-- ==== Sys2Proof/Machine/Float.lean ====
section
/-!
DEFINITION. Sys2Proof/Machine/Float.lean: exact arithmetic and its one rounding (R26 to R30, R43, R44). A number is
taken apart into a sign, a whole magnitude and a power of two; every operation computes the exact result and rounds once.
Results come with the flags of R30: bit 4 invalid, 3 divide by zero, 2 overflow, 1 underflow, 0 inexact.
-/

namespace Sys2Proof.Machine

/-- A binary format by its exponent and fraction widths (R26). -/
structure Fmt where
  eb : Nat
  fb : Nat
  deriving DecidableEq, Repr

/-- FP32 (R26). -/
def fp32 : Fmt := ⟨8, 23⟩
/-- BF16 (R26). -/
def bf16 : Fmt := ⟨8, 7⟩
/-- FP16 (R26). -/
def fp16 : Fmt := ⟨5, 10⟩

/-- The invalid flag (R30). -/
def flNV : Nat := 16
/-- The divide by zero flag (R30). -/
def flDZ : Nat := 8
/-- The overflow flag (R30). -/
def flOF : Nat := 4
/-- The underflow flag (R30). -/
def flUF : Nat := 2
/-- The inexact flag (R30). -/
def flNX : Nat := 1

/-- The union of two sets of flags. -/
def orFlags (a b : Nat) : Nat := a ||| b

/-- A floating-point datum: a NaN (signalling or quiet), an infinity, or an exact number ±m·2^e. -/
inductive FVal where
  | nan (snan : Bool)
  | inf (neg : Bool)
  | num (neg : Bool) (m : Nat) (e : Int)
  deriving DecidableEq, Repr

/-- Twice the all-ones exponent: the first code of the infinities of a format. -/
def Fmt.infCode (f : Fmt) : Nat := (2 ^ f.eb - 1) * 2 ^ f.fb

/-- The place of a format's sign bit. -/
def Fmt.signBit (f : Fmt) : Nat := 2 ^ (f.eb + f.fb)

/-- The exponent of the smallest subnormal (R26). -/
def Fmt.emin (f : Fmt) : Int := 2 - 2 ^ (f.eb - 1) - f.fb

/-- The canonical quiet NaN of a format (R26). -/
def qnan (f : Fmt) : Nat := f.infCode + 2 ^ (f.fb - 1)

/-- The infinity of a sign. -/
def infBits (f : Fmt) (neg : Bool) : Nat := f.infCode + (if neg then f.signBit else 0)

/-- What a code stands for (R26). -/
def unpack (f : Fmt) (w : Nat) : FVal :=
  let neg := w / f.signBit % 2 = 1
  let ex := w / 2 ^ f.fb % 2 ^ f.eb
  let fr := w % 2 ^ f.fb
  if ex = 2 ^ f.eb - 1 then
    if fr = 0 then .inf neg else .nan (fr < 2 ^ (f.fb - 1))
  else if ex = 0 then .num neg fr f.emin
  else .num neg (2 ^ f.fb + fr) (f.emin + (ex - 1))

/-- m shifted right by n places, rounded to nearest even or, with rz, towards zero; with whether it was inexact. -/
def shiftRound (rz : Bool) (m n : Nat) : Nat × Bool :=
  let q := m / 2 ^ n
  let r := m % 2 ^ n
  if r = 0 then (q, false)
  else if rz then (q, true)
  else if 2 ^ n < 2 * r ∨ (2 ^ n = 2 * r ∧ q % 2 = 1) then (q + 1, true)
  else (q, true)

/-- m·2^e expressed in units of 2^q: exact when e is at least q, else rounded. -/
def toUnits (rz : Bool) (m : Nat) (e q : Int) : Nat × Bool :=
  if q ≤ e then (m * 2 ^ (e - q).toNat, false) else shiftRound rz m (q - e).toNat

/-- The exact number ±m·2^e rounded to a format (R28, R30): its code and its flags. -/
def roundNum (f : Fmt) (rz neg : Bool) (m : Nat) (e : Int) : Nat × Nat :=
  let sgn := if neg then f.signBit else 0
  if m = 0 then (sgn, 0) else
  let top : Int := e + m.log2
  let free := toUnits rz m e (top - f.fb)
  let tiny := decide (top < f.emin + f.fb) && !(decide (top = f.emin + f.fb - 1) && decide (2 ^ (f.fb + 1) ≤ free.1))
  let q : Int := max (top - f.fb) f.emin
  let r := toUnits rz m e q
  let code := (q - f.emin).toNat * 2 ^ f.fb + r.1
  if f.infCode ≤ code then
    ((if rz then f.infCode - 1 else f.infCode) + sgn, flOF + flNX)
  else (code + sgn, (if r.2 then flNX + (if tiny then flUF else 0) else 0))

/-- A datum delivered in a format, rounded once (R28, R29). -/
def pack (f : Fmt) (rz : Bool) : FVal → Nat × Nat
  | .nan s => (qnan f, if s then flNV else 0)
  | .inf n => (infBits f n, 0)
  | .num n m e => roundNum f rz n m e

/-- The number's magnitude as a signed whole number of units 2^q, for q at most its exponent. -/
def signedUnits (neg : Bool) (m : Nat) (e q : Int) : Int :=
  (if neg then -1 else 1) * (m * 2 ^ (e - q).toNat : Nat)

/-- The exact sum of two data; an infinity less itself is a signalling NaN so that packing raises NV. -/
def addV : FVal → FVal → FVal
  | .nan a, .nan b => .nan (a || b)
  | .nan a, _ => .nan a
  | _, .nan b => .nan b
  | .inf a, .inf b => if a = b then .inf a else .nan true
  | .inf a, _ => .inf a
  | _, .inf b => .inf b
  | .num n m e, .num n' m' e' =>
    let q := min e e'
    let s := signedUnits n m e q + signedUnits n' m' e' q
    if s = 0 then .num (if m = 0 ∧ m' = 0 then n && n' else false) 0 q
    else .num (s < 0) s.natAbs q

/-- The exact product of two data (infinity times zero has no numeric result). -/
def mulV : FVal → FVal → FVal
  | .nan a, .nan b => .nan (a || b)
  | .nan a, _ => .nan a
  | _, .nan b => .nan b
  | .inf a, .inf b => .inf (a != b)
  | .inf a, .num n m _ => if m = 0 then .nan true else .inf (a != n)
  | .num n m _, .inf b => if m = 0 then .nan true else .inf (n != b)
  | .num n m e, .num n' m' e' => .num (n != n') (m * m') (e + e')

/-- The datum with its sign turned. -/
def negV : FVal → FVal
  | .nan s => .nan s
  | .inf n => .inf (!n)
  | .num n m e => .num (!n) m e

/-- A datum is a NaN. -/
def FVal.isNan : FVal → Bool
  | .nan _ => true
  | _ => false

/-- A datum is a signalling NaN. -/
def FVal.isSnan : FVal → Bool
  | .nan s => s
  | _ => false

/-- a·b + c with one rounding to come; infinity times zero is invalid whatever c is (R166). -/
def fmaV (a b c : FVal) : FVal := addV (mulV a b) c

/-- Quotient of two magnitudes with `bits` more bits than the divisor needs, its last bit standing for the rest. -/
def stickyDiv (m m' bits : Nat) : Nat :=
  2 * (m * 2 ^ bits / m') + (if m * 2 ^ bits % m' = 0 then 0 else 1)

/-- Division with one rounding (R30, R44). An infinity over zero is infinite and raises no flag: R30 gives DZ for a finite operand only,
R53 words it for every element that is neither zero nor NaN (DESIGN CHOICE, log 33). -/
def divF (f : Fmt) (rz : Bool) (a b : FVal) : Nat × Nat :=
  match a, b with
  | .nan s, .nan s' => pack f rz (.nan (s || s'))
  | .nan s, _ => pack f rz (.nan s)
  | _, .nan s => pack f rz (.nan s)
  | .inf _, .inf _ => pack f rz (.nan true)
  | .inf n, .num n' _ _ => pack f rz (.inf (n != n'))
  | .num n _ _, .inf n' => pack f rz (.num (n != n') 0 0)
  | .num n m e, .num n' m' e' =>
    if m' = 0 then
      if m = 0 then pack f rz (.nan true) else (infBits f (n != n'), flDZ)
    else
      let k := m'.log2 + 2 + 2 * f.fb + 8
      roundNum f rz (n != n') (stickyDiv m m' k) (e - e' - k - 1)

/-- One step of the whole square root, a bit at a time. -/
def isqrtGo (x : Nat) : Nat → Nat → Nat
  | 0, r => r
  | k + 1, r =>
    let r' := r + 2 ^ k
    isqrtGo x k (if r' * r' ≤ x then r' else r)

/-- The whole square root of x. -/
def isqrt (x : Nat) : Nat := isqrtGo x (x.log2 / 2 + 1) 0

/-- The square root with one rounding (R44). -/
def sqrtF (f : Fmt) (a : FVal) : Nat × Nat :=
  match a with
  | .nan s => pack f false (.nan s)
  | .inf n => if n then pack f false (.nan true) else pack f false (.inf false)
  | .num n m e =>
    if m = 0 then pack f false (.num n 0 0)
    else if n then pack f false (.nan true)
    else
      let odd := e % 2 = 1
      let m2 := (if odd then 2 * m else m) * 2 ^ (2 * f.fb + 20)
      let e2 := (if odd then e - 1 else e) - (2 * f.fb + 20 : Nat)
      let r := isqrt m2
      roundNum f false false (2 * r + (if r * r = m2 then 0 else 1)) (e2 / 2 - 1)

/-- The reciprocal of the square root with one rounding (R44). -/
def rsqrtF (f : Fmt) (a : FVal) : Nat × Nat :=
  match a with
  | .nan s => pack f false (.nan s)
  | .inf n => if n then pack f false (.nan true) else pack f false (.num false 0 0)
  | .num n m e =>
    if m = 0 then (infBits f n, flDZ)
    else if n then pack f false (.nan true)
    else
      let odd := e % 2 = 1
      let m2 := if odd then 2 * m else m
      let e2 := if odd then e - 1 else e
      let t := m2.log2 + f.fb + 8
      let y := isqrt (2 ^ (2 * t) / m2)
      roundNum f false false (2 * y + (if y * y * m2 = 2 ^ (2 * t) then 0 else 1)) (-(e2 / 2) - t - 1)

/-- FP32 addition (R44). -/
def add32 (a b : Nat) : Nat × Nat := pack fp32 false (addV (unpack fp32 a) (unpack fp32 b))
/-- FP32 subtraction (R44). -/
def sub32 (a b : Nat) : Nat × Nat := pack fp32 false (addV (unpack fp32 a) (negV (unpack fp32 b)))
/-- FP32 multiplication (R44). -/
def mul32 (a b : Nat) : Nat × Nat := pack fp32 false (mulV (unpack fp32 a) (unpack fp32 b))
/-- FP32 division (R44). -/
def div32 (a b : Nat) : Nat × Nat := divF fp32 false (unpack fp32 a) (unpack fp32 b)
/-- FP32 fused multiply and add (R44). -/
def fma32 (a b c : Nat) : Nat × Nat := pack fp32 false (fmaV (unpack fp32 a) (unpack fp32 b) (unpack fp32 c))
/-- FP32 square root (R44). -/
def sqrt32 (a : Nat) : Nat × Nat := sqrtF fp32 (unpack fp32 a)
/-- FP32 reciprocal square root (R44). -/
def rsqrt32 (a : Nat) : Nat × Nat := rsqrtF fp32 (unpack fp32 a)
/-- FP32 reciprocal (R44). -/
def rcp32 (a : Nat) : Nat × Nat := divF fp32 false (.num false 1 0) (unpack fp32 a)

/-- The fixed-point places the exponential and the logarithm are computed with before their one rounding: 192, far
below the distance of any FP32 result from a rounding boundary (log 15). -/
def fxBits : Nat := 192

/-- The sum of z^(2k+1)/(2k+1) in fixed point: the area tangent of z. -/
def atanhGo (z2 : Nat) : Nat → Nat → Nat → Nat → Nat
  | 0, _, _, acc => acc
  | n + 1, k, p, acc => atanhGo z2 n (k + 2) (p * z2 / 2 ^ fxBits) (acc + p / k)

/-- ln of the fixed-point number y, for y from 1 to below 2. -/
def lnFx (y : Nat) : Nat :=
  let z := (y - 2 ^ fxBits) * 2 ^ fxBits / (y + 2 ^ fxBits)
  2 * atanhGo (z * z / 2 ^ fxBits) 64 1 z 0

/-- ln 2 in fixed point. -/
def ln2Fx : Nat :=
  let z := 2 ^ fxBits / 3
  2 * atanhGo (z * z / 2 ^ fxBits) 64 1 z 0

/-- The exponential series of t in fixed point. -/
def expGo (t : Nat) : Nat → Nat → Nat → Nat → Nat
  | 0, _, _, acc => acc
  | n + 1, k, p, acc => expGo t n (k + 1) (p * t / 2 ^ fxBits / k) (acc + p)

/-- 2 to the power x (R44). -/
def exp2_32 (a : Nat) : Nat × Nat :=
  match unpack fp32 a with
  | .nan s => pack fp32 false (.nan s)
  | .inf n => if n then pack fp32 false (.num false 0 0) else pack fp32 false (.inf false)
  | .num n m e =>
    if m = 0 then pack fp32 false (.num false 1 0)
    else if 8 ≤ e + m.log2 then
      roundNum fp32 false false 1 (if n then -1000 else 1000)
        |> fun r => if n then (0, flUF + flNX) else r
    else
      -- x in units of 2^-149 is whole
      let u : Int := signedUnits n m e (-149)
      let k : Int := u / 2 ^ 149
      let f : Nat := (u % 2 ^ 149).toNat
      if f = 0 then roundNum fp32 false false 1 k
      else
        let t := f * 2 ^ (fxBits - 149) * ln2Fx / 2 ^ fxBits
        roundNum fp32 false false (2 * expGo t 64 1 (2 ^ fxBits) 0 + 1) (k - fxBits - 1)

/-- The base-2 logarithm (R44). -/
def log2_32 (a : Nat) : Nat × Nat :=
  match unpack fp32 a with
  | .nan s => pack fp32 false (.nan s)
  | .inf n => if n then pack fp32 false (.nan true) else pack fp32 false (.inf false)
  | .num n m e =>
    if m = 0 then (infBits fp32 true, flDZ)
    else if n then pack fp32 false (.nan true)
    else
      let k : Int := e + m.log2
      if m = 2 ^ m.log2 then roundNum fp32 false (k < 0) k.natAbs 0
      else
        let y := m * 2 ^ fxBits / 2 ^ m.log2
        let v : Int := k * 2 ^ fxBits + (lnFx y * 2 ^ fxBits / ln2Fx : Nat)
        roundNum fp32 false (v < 0) (2 * v.natAbs + 1) (-(fxBits : Int) - 1)

/-- The order of two numbers as an integer comparison: whether a is below b. NaNs are below nothing. -/
def ltV : FVal → FVal → Bool
  | .nan _, _ => false
  | _, .nan _ => false
  | .inf a, .inf b => a && !b
  | .inf a, .num _ _ _ => a
  | .num _ _ _, .inf b => !b
  | .num n m e, .num n' m' e' =>
    let q := min e e'
    signedUnits n m e q < signedUnits n' m' e' q

/-- Equality of two numbers by value; a NaN equals nothing. -/
def eqV (a b : FVal) : Bool := !a.isNan && !b.isNan && !ltV a b && !ltV b a

/-- A datum is a zero. -/
def FVal.isZero : FVal → Bool
  | .num _ m _ => m == 0
  | _ => false

/-- The sign of a datum that is no NaN. -/
def FVal.isNeg : FVal → Bool
  | .nan _ => false
  | .inf n => n
  | .num n _ _ => n

/-- Minimum and maximum of R43: `big` for the greater, `prop` for the family that delivers a NaN operand's NaN. -/
def minmaxF (f : Fmt) (big prop : Bool) (a b : Nat) : Nat × Nat :=
  let x := unpack f a
  let y := unpack f b
  if x.isSnan || y.isSnan then (qnan f, flNV)
  else if x.isNan && y.isNan then (qnan f, 0)
  else if x.isNan then (if prop then qnan f else b, 0)
  else if y.isNan then (if prop then qnan f else a, 0)
  else if x.isZero && y.isZero then (if x.isNeg = big then b else a, 0)
  else if big then (if ltV x y then b else a, 0)
  else (if ltV y x then b else a, 0)

/-- `max_num` on FP32 (R43). -/
def maxNum32 (a b : Nat) : Nat × Nat := minmaxF fp32 true false a b

/-- A whole number rounded to a float format (R33). -/
def ofInt (f : Fmt) (rz : Bool) (x : Int) : Nat × Nat := roundNum f rz (x < 0) x.natAbs 0

/-- A datum rounded to a whole number of a range (R33): out of range gives the nearest end, with NV. -/
def toIntF (rz : Bool) (lo hi : Int) : FVal → Int × Nat
  | .nan _ => (0, flNV)
  | .inf n => (if n then lo else hi, flNV)
  | .num n m e =>
    let r := toUnits rz m e 0
    let v : Int := if n then -(r.1 : Int) else r.1
    if v < lo then (lo, flNV) else if hi < v then (hi, flNV) else (v, if r.2 then flNX else 0)

end Sys2Proof.Machine
end

