-- ==== Sys2Proof/Machine/Formats.lean ====
section
/-!
DEFINITION. Sys2Proof/Machine/Formats.lean: element formats, LG6, block scales, conversions, fixed summation orders, the
partial triple's merge and the CK64 checksum (R25, R31 to R56).
-/

namespace Sys2Proof.Machine

/-- The element formats of R25 with code below 12; a reserved code names none. -/
inductive EFmt where
  | fp32 | bf16 | fp16 | int32 | uint32 | int16 | uint16 | int8 | uint8 | int4 | lg6b | lg6p
  deriving DecidableEq, Repr

/-- The format of a code (R25). -/
def efmtOf : Nat → Option EFmt
  | 0 => some .fp32 | 1 => some .bf16 | 2 => some .fp16 | 3 => some .int32 | 4 => some .uint32
  | 5 => some .int16 | 6 => some .uint16 | 7 => some .int8 | 8 => some .uint8 | 9 => some .int4
  | 10 => some .lg6b | 11 => some .lg6p
  | _ => none

/-- Bits per element (R25). -/
def EFmt.bits : EFmt → Nat
  | .fp32 | .int32 | .uint32 => 32
  | .bf16 | .fp16 | .int16 | .uint16 => 16
  | .int8 | .uint8 | .lg6b => 8
  | .int4 => 4
  | .lg6p => 6

/-- The floating-point layout of a format. -/
def EFmt.flt : EFmt → Option Fmt
  | .fp32 => some Machine.fp32 | .bf16 => some Machine.bf16 | .fp16 => some Machine.fp16
  | _ => none

/-- A format is floating point (R25). -/
def EFmt.isFloat (f : EFmt) : Bool := f.flt.isSome
/-- A format is logarithmic (R25). -/
def EFmt.isLg (f : EFmt) : Bool := f = .lg6b || f = .lg6p
/-- A format is an integer format (R25). -/
def EFmt.isInt (f : EFmt) : Bool := !f.isFloat && !f.isLg
/-- An integer format is signed (R25). -/
def EFmt.signed (f : EFmt) : Bool := f = .int32 || f = .int16 || f = .int8 || f = .int4

/-- The least value of an integer format (R31, R32). -/
def EFmt.lo (f : EFmt) : Int := if f.signed then -(2 ^ (f.bits - 1) : Nat) else 0
/-- The greatest value of an integer format (R31, R32). -/
def EFmt.hi (f : EFmt) : Int := if f.signed then (2 ^ (f.bits - 1) : Nat) - 1 else (2 ^ f.bits : Nat) - 1

/-- The whole number an n-bit code stands for, two's complement when signed. -/
def toSigned (n w : Nat) : Int := if 2 ^ (n - 1) ≤ w % 2 ^ n then (w % 2 ^ n : Nat) - (2 ^ n : Nat) else (w % 2 ^ n : Nat)

/-- The n-bit two's complement code of a whole number. -/
def ofSigned (n : Nat) (x : Int) : Nat := (x % (2 ^ n : Nat)).toNat

/-- The whole number of an integer element (R31, R32). -/
def EFmt.int (f : EFmt) (w : Nat) : Int := if f.signed then toSigned f.bits w else (w % 2 ^ f.bits : Nat)

/-- A whole number clamped to a range (R31). -/
def clampInt (lo hi x : Int) : Int := if x < lo then lo else if hi < x then hi else x

/-! ### LG6 -/

/-- The architectural table T (R34). -/
def lg6T (i : Nat) : Nat := if i = 0 then 32768 else if i = 1 then 38968 else if i = 2 then 46341 else 55109

/-- The exact value of an LG6 code (R34). -/
def lg6Dec (c : Nat) : FVal :=
  let e := c % 32
  if e = 0 then .num false 0 0 else .num (c / 32 % 2 = 1) (lg6T (e % 4)) (((e : Int) - 16) / 4 - 15)

/-- The exact product of two LG6 codes, formed from the codes (R36). -/
def lg6Mul (c d : Nat) : FVal :=
  if c % 32 = 0 ∨ d % 32 = 0 then .num false 0 0
  else
    let n := c % 32 + d % 32
    .num ((c / 32 + d / 32) % 2 = 1) (lg6T (n % 4)) (((n : Int) - 32) / 4 - 15)

/-! ### BSC20 -/

/-- An element times its block scale (R39, R40): a zero scale makes it +0. -/
def scaledV (v s : FVal) : FVal := if s.isZero && !v.isNan then .num false 0 0 else mulV v s


/-- The value of a block scale (R38): a NaN scale is a quiet NaN. -/
def bsc20Dec (w : Nat) : FVal :=
  let e := w / 4096 % 256
  if e = 0 then .num false 0 0 else if e = 255 then .nan false
  else .num false (4096 + w % 4096) ((e : Int) - 127 - 12)

/-- The nearest block scale of a value (R41). -/
def bsc20Enc : FVal → Nat × Nat
  | .nan _ => (0xFF000, flNV)
  | .inf n => (0xFF000, if n then flNV else flOF)
  | .num n m e =>
    if m = 0 then (0, 0)
    else if n then (0xFF000, flNV)
    else
      let top : Int := e + m.log2
      let r := toUnits false m e (top - 12)
      let code : Int := (top + 127 - 1) * 4096 + r.1
      if code < 4096 then (0, flUF + flNX)
      else if 255 * 4096 ≤ code then (0xFF000, flOF + flNX)
      else (code.toNat, if r.2 then flNX else 0)

/-- The quotient of two positive numbers, each a magnitude times a power of two, as a fraction. -/
def ratio (m : Nat) (e : Int) (m' : Nat) (e' : Int) : Nat × Nat :=
  if e' ≤ e then (m * 2 ^ (e - e').toNat, m') else (m, m' * 2 ^ (e' - e).toNat)

/-- Quantisation to LG6 under a block scale (R37). -/
def lg6Quant (x s : FVal) : Nat × Nat :=
  match s with
  | .nan _ => (0, flNV)
  | .inf _ => (0, flNV)
  | .num _ ms es =>
    if ms = 0 then (0, 0)
    else match x with
    | .nan _ => (0, flNV)
    | .inf n => (31 + (if n then 32 else 0), flOF)
    | .num n m e =>
      if m = 0 then (0, 0)
      else
        let q := ratio m e ms es
        -- k is the number of boundaries 2^((2j-33)/8) that |x|/σ reaches, for j from 1 to 32
        let reach (j : Nat) : Bool := 2 ^ (2 * j) * q.2 ^ 8 ≤ q.1 ^ 8 * 2 ^ 33
        let k := ((List.range 32).filter fun j => reach (j + 1)).length
        if k = 0 then (0, flUF + flNX)
        else if 31 < k then (31 + (if n then 32 else 0), flOF + flNX)
        else
          let c := k + (if n then 32 else 0)
          (c, if eqV (mulV (lg6Dec c) s) x then 0 else flNX)

/-- Quantisation to INT8 or INT4 under a block scale (R42). A zero scale comes before a NaN x (DESIGN CHOICE, log 33: the rule gives both 0, the
one with NV and the other without a flag). -/
def intQuant (f : EFmt) (x s : FVal) : Nat × Nat :=
  match s with
  | .nan _ => (0, flNV)
  | .inf _ => (0, flNV)
  | .num _ ms es =>
    if ms = 0 then (0, 0)
    else match x with
    | .nan _ => (0, flNV)
    | .inf n => (ofSigned f.bits (if n then f.lo else f.hi), flNV)
    | .num n m e =>
      let q := ratio m e ms es
      let t := q.1 / q.2
      let r := q.1 % q.2
      let a := if q.2 < 2 * r ∨ (q.2 = 2 * r ∧ t % 2 = 1) then t + 1 else t
      let v : Int := if n then -(a : Int) else a
      let c := clampInt f.lo f.hi v
      (ofSigned f.bits c, if c = v then (if r = 0 then 0 else flNX) else flNV)

/-! ### Conversions -/

/-- The datum of a float or LG6 element. -/
def EFmt.val (f : EFmt) (w : Nat) : FVal :=
  match f.flt with
  | some g => unpack g w
  | none => if f.isLg then lg6Dec w else
    let x := f.int w
    .num (x < 0) x.natAbs 0

/-- Conversion between element formats (R33): a code of the source to a code of the destination. -/
def cvt (src dst : EFmt) (rz : Bool) (w : Nat) : Nat × Nat :=
  match dst.flt with
  | some g => if src.isInt then ofInt g rz (src.int w) else pack g rz (src.val w)
  | none =>
    if src.isInt then (ofSigned dst.bits (clampInt dst.lo dst.hi (src.int w)), 0)
    else
      let r := toIntF rz dst.lo dst.hi (src.val w)
      (ofSigned dst.bits r.1, r.2)

/-- A conversion R33 has a rule for, by `vcvt`: quantising formats are reached by their own instructions only. -/
def cvtAllowed (src dst : EFmt) : Bool :=
  !dst.isLg && dst != .int4 && src != .int4 && (dst.isFloat || !src.isLg)

/-! ### Summation orders -/

/-- One round of the fixed tree: neighbours combined, flags gathered. -/
def pairUp (op : Nat → Nat → Nat × Nat) : List Nat → List Nat × Nat
  | a :: b :: t =>
    let r := op a b
    let q := pairUp op t
    (r.1 :: q.1, orFlags r.2 q.2)
  | l => (l, 0)

/-- The rounds of the fixed tree. -/
def treeGo (op : Nat → Nat → Nat × Nat) : Nat → List Nat × Nat → List Nat × Nat
  | 0, s => s
  | n + 1, s =>
    if s.1.length ≤ 1 then s
    else
      let r := pairUp op s.1
      treeGo op n (r.1, orFlags s.2 r.2)

/-- The least power of two that is at least n, for n up to 2^k. -/
def pow2Above (n : Nat) : Nat := if n ≤ 1 then 1 else 2 ^ ((n - 1).log2 + 1)

/-- The fixed pairwise tree of R45. -/
def treeReduce (op : Nat → Nat → Nat × Nat) (v : List Nat) (pad none : Nat) : Nat × Nat :=
  if v.length = 0 then (none, 0)
  else
    let k := pow2Above v.length
    let r := treeGo op (k.log2 + 1) (v ++ List.replicate (k - v.length) pad, 0)
    (r.1.headD none, r.2)

/-- What the matrix engine and the bank units multiply (R47). -/
inductive DotKind where
  | bf16 | int8 | lg6
  deriving DecidableEq, Repr

/-- Elements of one group of R47. -/
def DotKind.group : DotKind → Nat
  | .bf16 => 16
  | .int8 | .lg6 => 32

/-- The exact product of two element codes (R47). -/
def DotKind.prod (k : DotKind) (a b : Nat) : FVal :=
  match k with
  | .bf16 => mulV (unpack Machine.bf16 a) (unpack Machine.bf16 b)
  | .int8 =>
    let x := toSigned 8 a * toSigned 8 b
    .num (x < 0) x.natAbs 0
  | .lg6 => lg6Mul a b

/-- The exact sum of a group's products (R48): both infinities among them leave no numeric result. -/
def groupSum (ps : List FVal) : FVal :=
  if ps.any (· = .inf false) && ps.any (· = .inf true) then .nan true
  else ps.foldl addV (.num true 0 0)

/-- One group's update of an accumulator (R47, R48). -/
def groupDot (k : DotKind) (acc : Nat) (ab : List (Nat × Nat)) (sa sb : FVal) : Nat × Nat :=
  let ps := ab.map (fun p => k.prod p.1 p.2) ++ List.replicate (k.group - ab.length) (.num false 0 0)
  let t := groupSum ps
  let u :=
    if k = .bf16 then t
    else if sa.isNan || sb.isNan then .nan false
    else if sa.isZero || sb.isZero then (if t.isNan then t else .num false 0 0)
    else mulV (mulV t sa) sb
  pack Machine.fp32 false (addV (unpack Machine.fp32 acc) u)

/-! ### The partial triple -/

/-- The status word of two merged partials (R50). -/
def mergeStatus (x y : Nat) : Nat :=
  (if x / 2 ^ 31 % 2 = 1 ∨ y / 2 ^ 31 % 2 = 1 then 2 ^ 31 else 0) +
  (if x / 2 ^ 30 % 2 = 1 ∨ y / 2 ^ 30 % 2 = 1 then 2 ^ 30 else 0) +
  min (x % 2 ^ 30 + y % 2 ^ 30) (2 ^ 30 - 1)

/-- FP32 minus infinity, the running maximum of the empty partial (R51). -/
def negInf32 : Nat := 0xFF800000

/-- The empty partial of dimension d (R51). -/
def emptyPartial (d : Nat) : List Nat := negInf32 :: 0 :: List.replicate d 0 ++ [0]

/-- Word i of a triple. -/
def word (t : List Nat) (i : Nat) : Nat := t.getD i 0

/-- What words 0 of two partials decide about their merge (R51): one side's words, NaNs, or the two weights. -/
inductive MergeHead where
  | first | second | nan
  | mix (m e1 e2 : Nat)
  deriving DecidableEq, Repr

/-- The head of a merge with the flags it raises (R51). -/
def mergeHead (m1 m2 : Nat) : MergeHead × Nat :=
  if m1 = negInf32 then (.second, 0)
  else if m2 = negInf32 then (.first, 0)
  else if (unpack Machine.fp32 m1).isNan || (unpack Machine.fp32 m2).isNan || m1 = 0x7F800000 || m2 = 0x7F800000 then (.nan, flNV)
  else
    let m := maxNum32 m1 m2
    let s1 := sub32 m1 m.1
    let s2 := sub32 m2 m.1
    let e1 := exp2_32 s1.1
    let e2 := exp2_32 s2.1
    (.mix m.1 e1.1 e2.1, orFlags m.2 (orFlags s1.2 (orFlags s2.2 (orFlags e1.2 e2.2))))

/-- Word w of the merge of two partials of dimension d (R51), from words 0 and w of both, with its own flags. -/
def mergeWord (d : Nat) (h : MergeHead) (w x1 x2 : Nat) : Nat × Nat :=
  if w = d + 2 then (mergeStatus x1 x2, 0)
  else match h with
  | .first => (x1, 0)
  | .second => (x2, 0)
  | .nan => (qnan Machine.fp32, 0)
  | .mix m e1 e2 =>
    if w = 0 then (m, 0)
    else
      let p := mul32 x1 e1
      let r := fma32 x2 e2 p.1
      (r.1, orFlags p.2 r.2)

/-- The union of a list of flags. -/
def foldFlags (l : List (Nat × Nat)) : Nat := l.foldl (fun f r => orFlags f r.2) 0

/-- The merge of two partials of dimension d (R51), with the flags that `vmrg` records. -/
def mergeTriple (d : Nat) (t1 t2 : List Nat) : List Nat × Nat :=
  let h := mergeHead (word t1 0) (word t2 0)
  let r := (List.range (d + 3)).map fun w => mergeWord d h.1 w (word t1 w) (word t2 w)
  (r.map Prod.fst, orFlags h.2 (foldFlags r))

/-- A finished triple normalised (R53). -/
def normalise (d : Nat) (t : List Nat) : List Nat := (List.range d).map fun j => (div32 (word t (j + 2)) (word t 1)).1

/-! ### CK64 -/

/-- The prime of CK64 (R54). -/
def ckP : Nat := 4294967291

/-- The two sums of CK64 over words from index i on. -/
def ckGo : List Nat → Nat → Nat × Nat → Nat × Nat
  | [], _, s => s
  | w :: t, i, s => ckGo t (i + 1) ((s.1 + w) % ckP, (s.2 + i * w) % ckP)

/-- The CK64 checksum of a payload's words (R54). -/
def ck64 (ws : List Nat) : Nat :=
  let s := ckGo ws 1 (0, 0)
  s.1 + s.2 * 2 ^ 32

/-- The checksum of X followed by Y, where X has n words (R55). -/
def ck64Cat (cx n cy : Nat) : Nat :=
  (cx % 2 ^ 32 + cy % 2 ^ 32) % ckP + (cx / 2 ^ 32 + cy / 2 ^ 32 + n * (cy % 2 ^ 32)) % ckP * 2 ^ 32

/-! ### Bytes and words -/

/-- Little-endian bytes as a number (R5). -/
def ofBytes : List Nat → Nat
  | [] => 0
  | b :: t => b % 256 + 256 * ofBytes t

/-- The n little-endian bytes of a number (R5). -/
def toBytes : Nat → Nat → List Nat
  | 0, _ => []
  | n + 1, w => w % 256 :: toBytes n (w / 256)

/-- A list cut into numbers of n bytes each, fuel k. -/
def wordsOf (n : Nat) : Nat → List Nat → List Nat
  | 0, _ => []
  | k + 1, l => if l.isEmpty then [] else ofBytes (l.take n) :: wordsOf n k (l.drop n)

/-- The 32-bit words of a payload, padded with zero bytes (R54). -/
def words32 (l : List Nat) : List Nat := wordsOf 4 ((l.length + 3) / 4) l

/-- The bytes of a list of 32-bit words. -/
def bytes32 (l : List Nat) : List Nat := l.flatMap (toBytes 4)

end Sys2Proof.Machine
end

