-- ==== Sys2Proof/Word.lean ====
section
/-!
DEFINITION. Sys2Proof/Word.lean: the words of the machine and the two plain types every instruction is built from.
-/

namespace Sys2Proof

/-- A byte of memory (R5). -/
abbrev Byte := BitVec 8
/-- A scalar register, 64 bits (R107). -/
abbrev Word64 := BitVec 64
/-- An FP32 or integer word, 32 bits. -/
abbrev Word32 := BitVec 32
/-- A stream register, 128 bits (R153). -/
abbrev QWord := BitVec 128
/-- An operand descriptor, 256 bits (R181). -/
abbrev DWord := BitVec 256

/-- The four streams of a task (R14). -/
inductive StreamId where
  | s | v | m | c
  deriving DecidableEq, Repr

/-- A guard: predicate number and negate bit (R61). -/
structure Guard where
  p : Nat
  neg : Bool
  deriving DecidableEq, Repr

end Sys2Proof
end

