-- ==== Sys2Proof/Config.lean ====
section
/-!
DEFINITION. Sys2Proof/Config.lean: what one implementation fixes, and the free values the manual leaves open. An opaque
constant here has no value that a proof could see.
-/

namespace Sys2Proof.Config

/-- Byte `a` of a scratchpad whose contents the manual calls undefined, for filling number `seed` (R149; log 3). -/
opaque freeByte (seed a : Nat) : Byte

/-- How many of the optional propagations of a predicate write a reader takes, for free choice number `n` (R140; log 4). -/
opaque freeChoice (n : Nat) : Nat

/-- A 64-bit value that the manual does not state, for free value number `n` (log 4). -/
opaque freeValue (n : Nat) : Word64

/-- Native latency codes of stepping B1, class k in bits 4k+3:4k (R108 `latn`). -/
def latn : Nat := 0x6219B75264341A31

/-- Cycles of a latency code (R83). -/
def latCycles (c : Nat) : Nat :=
  match c with
  | 1 => 1 | 2 => 2 | 3 => 3 | 4 => 4 | 5 => 6 | 6 => 8 | 7 => 10 | 8 => 12 | 9 => 16 | 10 => 20 | 11 => 24
  | 12 => 32 | 13 => 48 | 14 => 64 | 15 => 96
  | _ => 0

/-- The minor release of a package's 3.x firmware (R2, R445). -/
opaque firmware (pkg : Nat) : Nat

/-- The device serial number of a package, 128 bits (R446). -/
opaque serial (pkg : Nat) : Nat

/-- Byte i of the SHA3-512 digest of firmware image k of a package (R444, R446). -/
opaque imageDigest (pkg k i : Nat) : Byte

/-- Byte i of the device identity public key of a package (R446). -/
opaque identityKey (pkg i : Nat) : Byte

/-- Byte i of the signature that the identity key of a package makes over a digest (R446). -/
opaque signature (pkg : Nat) (digest : List Nat) (i : Nat) : Byte

end Sys2Proof.Config
end

