-- ==== Sys2Proof/Machine/Encoding.lean ====
section
/-!
DEFINITION. Sys2Proof/Machine/Encoding.lean: what decoder and well-formedness share: bit fields of a word, the
subcauses of R59, the control and status map of R108, the stage-control rules of R177, and the operand records of the
bank commands and of the steps that no word encodes.
-/

namespace Sys2Proof

/-- Bits hi:lo of w, as an unsigned integer (R89). -/
def fld (w hi lo : Nat) : Nat := w / 2 ^ lo % 2 ^ (hi + 1 - lo)

/-- The number of a stream: S 0, V 1, M 2, C 3 (R423). -/
def StreamId.num : StreamId → Nat
  | .s => 0 | .v => 1 | .m => 2 | .c => 3

/-- The subcauses of the illegal-instruction fault (R59). -/
inductive Subcause where
  | c01 | c02 | c03 | c04 | c05 | c06 | c07 | c08
  deriving DecidableEq, Repr

/-- The reason code a subcause puts into the fault record (R59, R423). -/
def Subcause.code : Subcause → Nat
  | .c01 => 1 | .c02 => 2 | .c03 => 3 | .c04 => 4 | .c05 => 5 | .c06 => 6 | .c07 => 7 | .c08 => 8

/-- Why a bank command word is refused for its encoding (R80): reason codes 0x01 and 0x02 of R294. -/
inductive BankReason where
  | unassigned | reserved
  deriving DecidableEq, Repr

/-- The operand fields of a bank command word (R78, R298). A field the command does not have is 0. -/
structure BankOps where
  w : Nat := 0
  b : Nat := 0
  r : Nat := 0
  col : Nat := 0
  os : Nat := 0
  sq : Nat := 0
  q : Nat := 0
  wk : Nat := 0
  lp : Nat := 0
  tgt : Nat := 0
  cnt : Nat := 0
  all : Nat := 0
  deriving DecidableEq, Repr

/-- An event counter (R433): of a core, of a die, or of the package, with its number in its own block. -/
inductive EcRef where
  | core (core : Nat) (k : Nat)
  | die (die : Nat) (k : Nat)
  | pkg (pkg : Nat) (k : Nat)
  deriving DecidableEq, Repr

/-- A protected unit of an array or of HBM (R427, R428), by the location codes of R425: an array's unit is 64 bits. The units of L1 and
L2 are named by a physical address divided by 8, those of the instruction cache by a virtual one. `file` is another register file of a core:
0 the stream registers, 1 the plan handle registers, 2 the matrix descriptors; a TLB entry is named by its page of 64 KiB. -/
inductive ErrLoc where
  | reg (core : Nat) (st : StreamId) (r : Nat)
  | l1 (core : Nat) (word : Nat)
  | icache (core : Nat) (word : Nat)
  | spad (core : Nat) (word : Nat)
  | l2 (die : Nat) (word : Nat)
  | hbm (column : Nat)
  | base (chan : Nat) (word : Nat)
  | router (pkg : Nat)
  | file (core : Nat) (f : Nat) (r : Nat)
  | utlb (core : Nat) (st : StreamId) (page : Nat)
  | tlb (core : Nat) (page : Nat)
  | dtlb (die : Nat) (page : Nat)
  deriving DecidableEq, Repr

/-- Where a step that no word encodes happens and what it brings: the unit it happens at (a core, die, channel or
package key), the stream, up to three numbers and a value, a flag, an event counter or an error's place. Each meaning's
docstring says which fields it reads. -/
structure Args where
  unit : Nat := 0
  st : StreamId := .s
  k : Nat := 0
  j : Nat := 0
  n : Nat := 0
  v : Nat := 0
  flag : Bool := true
  ec : EcRef := .pkg 0 0
  loc : ErrLoc := .router 0
  deriving DecidableEq, Repr

/-- A scalar field that names no register of stream k (R63): V and C have 16. -/
def badReg (k : StreamId) (r : Nat) : Bool := decide (k ≠ .s ∧ 16 ≤ r)

/-- The numbers of the control and status map that stream k can name (R108, R127, R163, R202, R218, R225, R314). -/
def csrAssigned (k : StreamId) (n : Nat) : Bool :=
  decide (n ≤ 0x008 ∨ n = 0x010 ∨ n = 0x018 ∨ n = 0x019 ∨ (0x020 ≤ n ∧ n ≤ 0x027) ∨ n = 0x030 ∨ n = 0x031 ∨
  (0x038 ≤ n ∧ n ≤ 0x03A) ∨ (0x120 ≤ n ∧ n ≤ 0x141) ∨ n = 0x150 ∨
  ((n = 0x011 ∨ n = 0x012 ∨ n = 0x102 ∨ n = 0x103 ∨ n = 0x110 ∨ n = 0x111) ∧ (k = .s ∨ k = .v)) ∨
  ((n = 0x100 ∨ n = 0x101) ∧ k = .v))

/-- The immediates `vstg` accepts (R177): pbase in 15:12, nst in 11:8, mask in 7:0. -/
def vstgLegal (i : Nat) : Bool :=
  decide (fld i 11 8 ≤ 8 ∧ (fld i 11 8 = 0 ∨ (fld i 15 12 ≠ 0 ∧ fld i 15 12 + fld i 11 8 ≤ 16)) ∧
  fld i 7 0 < 2 ^ fld i 11 8)

end Sys2Proof
end

