-- ==== Sys2Proof/Syntax.lean ====
section
/-!
DEFINITION. Sys2Proof/Syntax.lean: the instructions, one constructor for each row of the opcode table.
Operands are plain numbers as the word's fields hold them; WellFormed says which are in range.
Three groups: the 32-bit stream words (R57 to R77); the 64-bit bank command words (R78, R79), whose operand fields
the decoder gives beside the constructor (BankOps) and the state holds while the command runs; the steps of the device
that no word encodes (spec file 95), whose place and data the state holds while the step runs (Args).
-/

namespace Sys2Proof

/-- Every row of the opcode table. -/
inductive Instr where
  /-- R58. The all-zero word issues in one cycle in any stream and changes no state. -/
  | nop
  /-- R112. Sets xd to xa plus xb, wrapping modulo 2^64. -/
  | add (gd : Guard) (d : Nat) (a : Nat) (b : Nat)
  /-- R112. Sets xd to xa minus xb. -/
  | sub (gd : Guard) (d : Nat) (a : Nat) (b : Nat)
  /-- R112. Sets xd to xa AND xb. -/
  | and (gd : Guard) (d : Nat) (a : Nat) (b : Nat)
  /-- R112. Sets xd to xa OR xb. -/
  | or (gd : Guard) (d : Nat) (a : Nat) (b : Nat)
  /-- R112. Sets xd to xa XOR xb. -/
  | xor (gd : Guard) (d : Nat) (a : Nat) (b : Nat)
  /-- R112. Sets xd to xa AND NOT xb. -/
  | andn (gd : Guard) (d : Nat) (a : Nat) (b : Nat)
  /-- R112. Sets xd to xa OR NOT xb. -/
  | orn (gd : Guard) (d : Nat) (a : Nat) (b : Nat)
  /-- R112. Sets xd to NOT (xa XOR xb). -/
  | xnor (gd : Guard) (d : Nat) (a : Nat) (b : Nat)
  /-- R112. Shifts xa left by xb[5:0]. -/
  | sll (gd : Guard) (d : Nat) (a : Nat) (b : Nat)
  /-- R112. Shifts xa right logically by xb[5:0]. -/
  | srl (gd : Guard) (d : Nat) (a : Nat) (b : Nat)
  /-- R112. Shifts xa right arithmetically by xb[5:0]. -/
  | sra (gd : Guard) (d : Nat) (a : Nat) (b : Nat)
  /-- R112. Rotates xa right by xb[5:0]. -/
  | ror (gd : Guard) (d : Nat) (a : Nat) (b : Nat)
  /-- R112. Sets xd to the signed lesser of xa and xb. -/
  | min (gd : Guard) (d : Nat) (a : Nat) (b : Nat)
  /-- R112. Sets xd to the signed greater of xa and xb. -/
  | max (gd : Guard) (d : Nat) (a : Nat) (b : Nat)
  /-- R112. Sets xd to the unsigned lesser of xa and xb. -/
  | minu (gd : Guard) (d : Nat) (a : Nat) (b : Nat)
  /-- R112. Sets xd to the unsigned greater of xa and xb. -/
  | maxu (gd : Guard) (d : Nat) (a : Nat) (b : Nat)
  /-- R113. Adds a sign-extended 9-bit immediate to xa. -/
  | addi (gd : Guard) (d : Nat) (a : Nat) (i : Nat)
  /-- R113. ANDs xa with a sign-extended immediate. -/
  | andi (gd : Guard) (d : Nat) (a : Nat) (i : Nat)
  /-- R113. ORs xa with a sign-extended immediate. -/
  | ori (gd : Guard) (d : Nat) (a : Nat) (i : Nat)
  /-- R113. XORs xa with a sign-extended immediate. -/
  | xori (gd : Guard) (d : Nat) (a : Nat) (i : Nat)
  /-- R113. Shifts xa left by an immediate amount. -/
  | slli (gd : Guard) (d : Nat) (a : Nat) (s : Nat)
  /-- R113. Shifts xa right logically by an immediate amount. -/
  | srli (gd : Guard) (d : Nat) (a : Nat) (s : Nat)
  /-- R113. Shifts xa right arithmetically by an immediate amount. -/
  | srai (gd : Guard) (d : Nat) (a : Nat) (s : Nat)
  /-- R113. Rotates xa right by an immediate amount. -/
  | rori (gd : Guard) (d : Nat) (a : Nat) (s : Nat)
  /-- R114. Loads a sign-extended 15-bit immediate into xd. -/
  | li (gd : Guard) (d : Nat) (i : Nat)
  /-- R114. Shifts xd left by 15 and ORs in a 15-bit immediate. -/
  | lix (gd : Guard) (d : Nat) (i : Nat)
  /-- R119. Compares xa with xb under a condition and writes a shared predicate. -/
  | cmp (gd : Guard) (p : Nat) (a : Nat) (b : Nat) (c : Nat)
  /-- R119. Compares xa with a 7-bit immediate under a condition and writes a predicate. -/
  | cmpi (gd : Guard) (p : Nat) (a : Nat) (c : Nat) (i : Nat)
  /-- R120. Sets pd to pa AND pb. -/
  | pand (gd : Guard) (d : Nat) (a : Nat) (b : Nat)
  /-- R120. Sets pd to pa OR pb. -/
  | por (gd : Guard) (d : Nat) (a : Nat) (b : Nat)
  /-- R120. Sets pd to pa XOR pb. -/
  | pxor (gd : Guard) (d : Nat) (a : Nat) (b : Nat)
  /-- R120. Sets pd to pa AND NOT pb. -/
  | pandn (gd : Guard) (d : Nat) (a : Nat) (b : Nat)
  /-- R120. Sets pd to NOT pa. -/
  | pnot (gd : Guard) (d : Nat) (a : Nat)
  /-- R120. Copies pa into pd. -/
  | pmov (gd : Guard) (d : Nat) (a : Nat)
  /-- R120. Sets pd to 1. -/
  | pset (gd : Guard) (d : Nat)
  /-- R120. Sets pd to 0. -/
  | pclr (gd : Guard) (d : Nat)
  /-- R102. Sets a branch-target register to a word offset from its own address. -/
  | brp (gd : Guard) (d : Nat) (o : Nat)
  /-- R102. Sets a branch-target register from a scalar register. -/
  | brpx (gd : Guard) (d : Nat) (a : Nat)
  /-- R103. Transfers control to a b register after three delay slots. -/
  | br (gd : Guard) (s : Nat)
  /-- R104. Branches as br and lands the return address a+16 in xd. -/
  | brL (gd : Guard) (s : Nat) (d : Nat)
  /-- R105. Starts a hardware loop counter with a count from a register. -/
  | loop (gd : Guard) (l : Nat) (a : Nat) (e : Nat)
  /-- R105. Starts a hardware loop counter with an immediate count. -/
  | loopi (gd : Guard) (l : Nat) (c : Nat) (e : Nat)
  /-- R110. Reads a control and status register into a scalar register. -/
  | csrr (gd : Guard) (d : Nat) (c : Nat)
  /-- R110. Writes a scalar register to a control and status register. -/
  | csrw (gd : Guard) (a : Nat) (c : Nat)
  /-- R130. Joins a semaphore's waiter queue and freezes until k can be taken. -/
  | semWait (gd : Guard) (i : Nat) (k : Nat)
  /-- R131. Issues a release that adds k to a semaphore once covered accesses are performed. -/
  | semSig (gd : Guard) (i : Nat) (k : Nat)
  /-- R132. Takes one count if free and no waiter is queued, landing the outcome in a predicate. -/
  | semTry (gd : Guard) (i : Nat) (p : Nat)
  /-- R133. Samples a semaphore count into a scalar register. -/
  | semRd (gd : Guard) (i : Nat) (r : Nat)
  /-- R144. Arrives at a gang barrier as a release at gang scope. -/
  | gbArr (gd : Guard) (i : Nat)
  /-- R144. Waits for the phase of the task's most recent arrival to complete. -/
  | gbWait (gd : Guard) (i : Nat)
  /-- R144. Arrives at a gang barrier and then waits, as one instruction. -/
  | gbSync (gd : Guard) (i : Nat)
  /-- R219. Waits until a timeline counter reaches n and its effects are performed at a scope. -/
  | fenceTlw (gd : Guard) (i : Nat) (s : Nat) (r : Nat)
  /-- R115. Sets xd to the low 64 bits of xa times xb. -/
  | mul (gd : Guard) (d : Nat) (a : Nat) (b : Nat)
  /-- R115. High 64 bits of the signed product. -/
  | mulh (gd : Guard) (d : Nat) (a : Nat) (b : Nat)
  /-- R115. High 64 bits of the unsigned product. -/
  | mulhu (gd : Guard) (d : Nat) (a : Nat) (b : Nat)
  /-- R115. High 64 bits of signed xa times unsigned xb. -/
  | mulhsu (gd : Guard) (d : Nat) (a : Nat) (b : Nat)
  /-- R115. Signed quotient rounded towards zero. -/
  | div (gd : Guard) (d : Nat) (a : Nat) (b : Nat)
  /-- R115. Unsigned quotient. -/
  | divu (gd : Guard) (d : Nat) (a : Nat) (b : Nat)
  /-- R115. Signed remainder with the sign of xa. -/
  | rem (gd : Guard) (d : Nat) (a : Nat) (b : Nat)
  /-- R115. Unsigned remainder. -/
  | remu (gd : Guard) (d : Nat) (a : Nat) (b : Nat)
  /-- R116. 32-bit add, sign-extended into xd. -/
  | addw (gd : Guard) (d : Nat) (a : Nat) (b : Nat)
  /-- R116. 32-bit subtract, sign-extended into xd. -/
  | subw (gd : Guard) (d : Nat) (a : Nat) (b : Nat)
  /-- R116. Low 32 bits of the product, sign-extended. -/
  | mulw (gd : Guard) (d : Nat) (a : Nat) (b : Nat)
  /-- R116. 32-bit left shift by xb[4:0]. -/
  | sllw (gd : Guard) (d : Nat) (a : Nat) (b : Nat)
  /-- R116. 32-bit logical right shift. -/
  | srlw (gd : Guard) (d : Nat) (a : Nat) (b : Nat)
  /-- R116. 32-bit arithmetic right shift. -/
  | sraw (gd : Guard) (d : Nat) (a : Nat) (b : Nat)
  /-- R116. 32-bit signed division. -/
  | divw (gd : Guard) (d : Nat) (a : Nat) (b : Nat)
  /-- R116. 32-bit signed remainder. -/
  | remw (gd : Guard) (d : Nat) (a : Nat) (b : Nat)
  /-- R117. Counts leading zero bits of xa. -/
  | clz (gd : Guard) (d : Nat) (a : Nat)
  /-- R117. Counts trailing zero bits of xa. -/
  | ctz (gd : Guard) (d : Nat) (a : Nat)
  /-- R117. Counts one bits of xa. -/
  | popc (gd : Guard) (d : Nat) (a : Nat)
  /-- R117. Reverses the bits of xa. -/
  | brev (gd : Guard) (d : Nat) (a : Nat)
  /-- R117. Sign-extends the low byte of xa. -/
  | sextb (gd : Guard) (d : Nat) (a : Nat)
  /-- R117. Sign-extends the low half-word of xa. -/
  | sexth (gd : Guard) (d : Nat) (a : Nat)
  /-- R117. Sign-extends the low word of xa. -/
  | sextw (gd : Guard) (d : Nat) (a : Nat)
  /-- R117. Zero-extends the low word of xa. -/
  | zextw (gd : Guard) (d : Nat) (a : Nat)
  /-- R118. Selects xa or xb by a predicate, always executing. -/
  | sel (gd : Guard) (d : Nat) (a : Nat) (b : Nat)
  /-- R123. Loads 1 to 8 bytes from a virtual address into xd, sign- or zero-extended. -/
  | ld (gd : Guard) (d : Nat) (a : Nat) (s : Nat) (x : Nat) (o : Nat)
  /-- R123. Stores the low bytes of xd to a virtual address through the store buffer. -/
  | st (gd : Guard) (d : Nat) (a : Nat) (s : Nat) (o : Nat)
  /-- R125. Loads from the task's scratchpad without translation. -/
  | ldsp (gd : Guard) (d : Nat) (a : Nat) (s : Nat) (x : Nat) (o : Nat)
  /-- R125. Stores to the task's scratchpad at t+1. -/
  | stsp (gd : Guard) (d : Nat) (a : Nat) (s : Nat) (o : Nat)
  /-- R126. Acquire load at a named scope. -/
  | ldAcq (gd : Guard) (d : Nat) (a : Nat) (s : Nat) (c : Nat)
  /-- R126. Release store at a named scope. -/
  | stRel (gd : Guard) (d : Nat) (a : Nat) (s : Nat) (c : Nat)
  /-- R215. Atomic word add returning the old value. -/
  | amAddW (gd : Guard) (d : Nat) (a : Nat) (o : Nat) (c : Nat)
  /-- R215. Atomic word swap. -/
  | amSwapW (gd : Guard) (d : Nat) (a : Nat) (o : Nat) (c : Nat)
  /-- R215. Atomic word compare-and-swap using an even register pair. -/
  | amCasW (gd : Guard) (d : Nat) (a : Nat) (o : Nat) (c : Nat)
  /-- R215. Atomic word AND. -/
  | amAndW (gd : Guard) (d : Nat) (a : Nat) (o : Nat) (c : Nat)
  /-- R215. Atomic word OR. -/
  | amOrW (gd : Guard) (d : Nat) (a : Nat) (o : Nat) (c : Nat)
  /-- R215. Atomic word XOR. -/
  | amXorW (gd : Guard) (d : Nat) (a : Nat) (o : Nat) (c : Nat)
  /-- R215. Atomic word signed maximum. -/
  | amMaxW (gd : Guard) (d : Nat) (a : Nat) (o : Nat) (c : Nat)
  /-- R215. Atomic word signed minimum. -/
  | amMinW (gd : Guard) (d : Nat) (a : Nat) (o : Nat) (c : Nat)
  /-- R215. Atomic double-word add. -/
  | amAddD (gd : Guard) (d : Nat) (a : Nat) (o : Nat) (c : Nat)
  /-- R215. Atomic double-word swap. -/
  | amSwapD (gd : Guard) (d : Nat) (a : Nat) (o : Nat) (c : Nat)
  /-- R215. Atomic double-word compare-and-swap. -/
  | amCasD (gd : Guard) (d : Nat) (a : Nat) (o : Nat) (c : Nat)
  /-- R215. Atomic double-word AND. -/
  | amAndD (gd : Guard) (d : Nat) (a : Nat) (o : Nat) (c : Nat)
  /-- R215. Atomic double-word OR. -/
  | amOrD (gd : Guard) (d : Nat) (a : Nat) (o : Nat) (c : Nat)
  /-- R215. Atomic double-word XOR. -/
  | amXorD (gd : Guard) (d : Nat) (a : Nat) (o : Nat) (c : Nat)
  /-- R215. Atomic double-word signed maximum. -/
  | amMaxD (gd : Guard) (d : Nat) (a : Nat) (o : Nat) (c : Nat)
  /-- R215. Atomic double-word signed minimum. -/
  | amMinD (gd : Guard) (d : Nat) (a : Nat) (o : Nat) (c : Nat)
  /-- R226. Sequentially consistent load issued in an hour of a wheel. -/
  | scLd (gd : Guard) (d : Nat) (a : Nat) (s : Nat) (w : Nat) (o : Nat)
  /-- R226. Sequentially consistent store issued in an hour of a wheel. -/
  | scSt (gd : Guard) (d : Nat) (a : Nat) (s : Nat) (w : Nat) (o : Nat)
  /-- R213. Acquire fence at a scope. -/
  | fenceAcq (gd : Guard) (c : Nat)
  /-- R213. Release fence at a scope. -/
  | fenceRel (gd : Guard) (c : Nat)
  /-- R213. Acquire-release fence at a scope. -/
  | fenceAr (gd : Guard) (c : Nat)
  /-- R438. Reads an event counter value. -/
  | ecRd (gd : Guard) (d : Nat) (a : Nat)
  /-- R438. Configures an event counter's event and trap, optionally clearing it. -/
  | ecCfg (gd : Guard) (a : Nat) (b : Nat)
  /-- R438. Enables an event counter. -/
  | ecOn (gd : Guard) (a : Nat)
  /-- R438. Disables an event counter. -/
  | ecOff (gd : Guard) (a : Nat)
  /-- R416. Ends the S stream; results in flight still land. -/
  | sysEnd (gd : Guard)
  /-- R417. Stops and saves the task while a pre-emption request is waiting. -/
  | yield (gd : Guard)
  /-- R418. Loads a double-word of the launch arguments, or 0 beyond their length. -/
  | sysArg (gd : Guard) (d : Nat) (a : Nat)
  /-- R419. Ends the task's grid and fails its packet with code 0x03. -/
  | sysAbort (gd : Guard) (a : Nat)
  /-- R420. Stops the task, writes a trap record and interrupts the host. -/
  | trap (gd : Guard) (i : Nat)
  /-- R421. Marks a vesper point where a waiting pre-emption may stop the task. -/
  | vesper (gd : Guard) (i : Nat)
  /-- R165. Element-wise float addition over stream registers. -/
  | vadd (gd : Guard) (d : Nat) (a : Nat) (b : Nat)
  /-- R165. Element-wise float subtraction. -/
  | vsub (gd : Guard) (d : Nat) (a : Nat) (b : Nat)
  /-- R165. Element-wise float multiplication. -/
  | vmul (gd : Guard) (d : Nat) (a : Nat) (b : Nat)
  /-- R165. Element-wise float division. -/
  | vdiv (gd : Guard) (d : Nat) (a : Nat) (b : Nat)
  /-- R165. Element-wise min_num. -/
  | vmin (gd : Guard) (d : Nat) (a : Nat) (b : Nat)
  /-- R165. Element-wise max_num. -/
  | vmax (gd : Guard) (d : Nat) (a : Nat) (b : Nat)
  /-- R165. Element-wise min_prop. -/
  | vminp (gd : Guard) (d : Nat) (a : Nat) (b : Nat)
  /-- R165. Element-wise max_prop. -/
  | vmaxp (gd : Guard) (d : Nat) (a : Nat) (b : Nat)
  /-- R167. Element-wise integer addition, optionally saturating. -/
  | viadd (gd : Guard) (d : Nat) (a : Nat) (b : Nat) (s : Nat)
  /-- R167. Element-wise integer subtraction, optionally saturating. -/
  | visub (gd : Guard) (d : Nat) (a : Nat) (b : Nat) (s : Nat)
  /-- R167. Element-wise integer multiplication, optionally saturating. -/
  | vimul (gd : Guard) (d : Nat) (a : Nat) (b : Nat) (s : Nat)
  /-- R167. Element-wise bitwise AND. -/
  | viand (gd : Guard) (d : Nat) (a : Nat) (b : Nat)
  /-- R167. Element-wise bitwise OR. -/
  | vior (gd : Guard) (d : Nat) (a : Nat) (b : Nat)
  /-- R167. Element-wise bitwise XOR. -/
  | vixor (gd : Guard) (d : Nat) (a : Nat) (b : Nat)
  /-- R167. Element-wise left shift. -/
  | vishl (gd : Guard) (d : Nat) (a : Nat) (b : Nat)
  /-- R167. Element-wise logical right shift. -/
  | vishr (gd : Guard) (d : Nat) (a : Nat) (b : Nat)
  /-- R167. Element-wise arithmetic right shift. -/
  | visra (gd : Guard) (d : Nat) (a : Nat) (b : Nat)
  /-- R167. Element-wise integer minimum. -/
  | vimin (gd : Guard) (d : Nat) (a : Nat) (b : Nat)
  /-- R167. Element-wise integer maximum. -/
  | vimax (gd : Guard) (d : Nat) (a : Nat) (b : Nat)
  /-- R166. Fused multiply-add a*b+c, rounded once. -/
  | vfma (gd : Guard) (d : Nat) (a : Nat) (b : Nat) (c : Nat)
  /-- R166. Fused multiply-subtract a*b-c, rounded once. -/
  | vfms (gd : Guard) (d : Nat) (a : Nat) (b : Nat) (c : Nat)
  /-- R166. Selects qa or qb elements by a non-zero mask element. -/
  | vsel (gd : Guard) (d : Nat) (a : Nat) (b : Nat) (c : Nat)
  /-- R168. Copies element bits between formats of equal width. -/
  | vmov (gd : Guard) (d : Nat) (a : Nat)
  /-- R168. Negates each element. -/
  | vneg (gd : Guard) (d : Nat) (a : Nat)
  /-- R168. Takes the absolute value of each element. -/
  | vabs (gd : Guard) (d : Nat) (a : Nat)
  /-- R168. Element-wise exp2 into FP32. -/
  | vexp2 (gd : Guard) (d : Nat) (a : Nat)
  /-- R168. Element-wise log2 into FP32. -/
  | vlog2 (gd : Guard) (d : Nat) (a : Nat)
  /-- R168. Element-wise reciprocal into FP32. -/
  | vrcp (gd : Guard) (d : Nat) (a : Nat)
  /-- R168. Element-wise reciprocal square root into FP32. -/
  | vrsqrt (gd : Guard) (d : Nat) (a : Nat)
  /-- R168. Element-wise square root into FP32. -/
  | vsqrt (gd : Guard) (d : Nat) (a : Nat)
  /-- R168. Element-wise format conversion, optionally rounding towards zero. -/
  | vcvt (gd : Guard) (d : Nat) (a : Nat) (r : Nat)
  /-- R170. Quantises float data to block-scaled LG6 with encoded scales. -/
  | vqlg6 (gd : Guard) (d : Nat) (a : Nat) (b : Nat)
  /-- R170. Quantises float data to block-scaled INT8. -/
  | vqint8 (gd : Guard) (d : Nat) (a : Nat) (b : Nat)
  /-- R170. Dequantises block-scaled data into floats. -/
  | vdq (gd : Guard) (d : Nat) (a : Nat)
  /-- R170. Computes per-block maximum magnitude times a factor. -/
  | vscl (gd : Guard) (d : Nat) (a : Nat) (b : Nat)
  /-- R171. Permutes bytes within 128-byte windows by an index pattern. -/
  | vperm (gd : Guard) (d : Nat) (a : Nat) (b : Nat)
  /-- R171. Unpacks INT4 nibbles into a wider format. -/
  | vunpk4 (gd : Guard) (d : Nat) (a : Nat)
  /-- R171. Transposes eight rows into rows of eight. -/
  | vtr8 (gd : Guard) (d : Nat) (a : Nat)
  /-- R172. Segmented float sum by the fixed tree. -/
  | vrsum (gd : Guard) (d : Nat) (a : Nat)
  /-- R172. Segmented max_num reduction. -/
  | vrmax (gd : Guard) (d : Nat) (a : Nat)
  /-- R172. Segmented min_num reduction. -/
  | vrmin (gd : Guard) (d : Nat) (a : Nat)
  /-- R172. Segmented max_prop reduction. -/
  | vrmaxp (gd : Guard) (d : Nat) (a : Nat)
  /-- R172. Segmented min_prop reduction. -/
  | vrminp (gd : Guard) (d : Nat) (a : Nat)
  /-- R172. Segmented wrapping integer sum. -/
  | virsum (gd : Guard) (d : Nat) (a : Nat)
  /-- R173. Sets a predicate if any mask element is non-zero. -/
  | vany (gd : Guard) (p : Nat) (a : Nat)
  /-- R173. Sets a predicate if every mask element is non-zero. -/
  | vall (gd : Guard) (p : Nat) (a : Nat)
  /-- R174. Merges two partial triples by the online-softmax merge. -/
  | vmrg (gd : Guard) (d : Nat) (a : Nat) (b : Nat)
  /-- R175. Computes the CK64 checksum of a stream's bytes. -/
  | vck (gd : Guard) (d : Nat) (a : Nat)
  /-- R169. Element-wise equality compare into an integer mask. -/
  | vcmpEq (gd : Guard) (d : Nat) (a : Nat) (b : Nat)
  /-- R169. Element-wise inequality compare. -/
  | vcmpNe (gd : Guard) (d : Nat) (a : Nat) (b : Nat)
  /-- R169. Element-wise less-than compare. -/
  | vcmpLt (gd : Guard) (d : Nat) (a : Nat) (b : Nat)
  /-- R169. Element-wise less-or-equal compare. -/
  | vcmpLe (gd : Guard) (d : Nat) (a : Nat) (b : Nat)
  /-- R169. Element-wise unordered compare. -/
  | vcmpUn (gd : Guard) (d : Nat) (a : Nat) (b : Nat)
  /-- R156. Writes a stream register from two y registers. -/
  | vsetq (gd : Guard) (d : Nat) (a : Nat) (b : Nat)
  /-- R156. Reads a stream register into two y registers. -/
  | vgetq (gd : Guard) (d : Nat) (a : Nat) (b : Nat)
  /-- R156. Advances a stream register's base, scale base and tag. -/
  | vadvq (gd : Guard) (d : Nat) (a : Nat) (b : Nat)
  /-- R156. Sets a stream register's element count. -/
  | vcntq (gd : Guard) (d : Nat) (a : Nat)
  /-- R176. Loads contiguous memory bytes into scratchpad positions of a stream register. -/
  | vld (gd : Guard) (q : Nat) (a : Nat) (h : Nat)
  /-- R176. Stores scratchpad elements of a stream register to contiguous memory. -/
  | vst (gd : Guard) (q : Nat) (a : Nat) (h : Nat)
  /-- R178. Starts a vector loop counter whose repeats rotate the window and stage predicates. -/
  | vloop (gd : Guard) (l : Nat) (a : Nat) (e : Nat)
  /-- R177. Sets stg and lands the stage predicates. -/
  | vstg (gd : Guard) (i : Nat)
  /-- R186. Accumulates a tile product into an accumulator by group_dot. -/
  | mmMac (a : Nat) (d : Nat) (e : Nat) (t : Nat)
  /-- R186. Computes a tile product into an accumulator starting from -0. -/
  | mmMul (a : Nat) (d : Nat) (e : Nat) (t : Nat)
  /-- R192. Lands +0 in every element of an accumulator. -/
  | mmZero (a : Nat)
  /-- R196. Converts an accumulator and drains it to scratchpad, memory or a plan slot. -/
  | mmDrain (a : Nat) (d : Nat) (f : Nat) (r : Nat)
  /-- R193. Loads an operand descriptor from 32 scratchpad bytes. -/
  | mmSetd (d : Nat) (s : Nat)
  /-- R193. Writes an operand descriptor to 32 scratchpad bytes. -/
  | mmGetd (d : Nat) (s : Nat)
  /-- R195. Advances an operand descriptor by its advance fields. -/
  | mmAdv (d : Nat)
  /-- R194. Loads a tile into an accumulator, widened to FP32. -/
  | mmLdacc (a : Nat) (d : Nat)
  /-- R192. Copies one accumulator to another. -/
  | mmMov (a : Nat) (d : Nat)
  /-- R265. Issues a one-row copy on a copy channel. -/
  | cp1d (c : Nat) (a : Nat) (b : Nat)
  /-- R265. Issues a two-level strided copy. -/
  | cp2d (c : Nat) (a : Nat) (b : Nat)
  /-- R265. Issues a three-level strided copy. -/
  | cp3d (c : Nat) (a : Nat) (b : Nat)
  /-- R265. Issues a gather copy through an index list. -/
  | cpGat (c : Nat) (a : Nat) (b : Nat)
  /-- R265. Issues a scatter copy through an index list. -/
  | cpSct (c : Nat) (a : Nat) (b : Nat)
  /-- R265. Issues a copy that fills with a 64-bit pattern. -/
  | cpFill (c : Nat) (a : Nat) (b : Nat)
  /-- R267. Issues a copy into a lease window. -/
  | cpTol (c : Nat) (a : Nat) (b : Nat)
  /-- R267. Issues a copy out of a lease window. -/
  | cpFrl (c : Nat) (a : Nat) (b : Nat)
  /-- R268. Issues a copy that sums into its destination. -/
  | cpRedSum (c : Nat) (a : Nat) (b : Nat)
  /-- R268. Issues a copy that takes the maximum into its destination. -/
  | cpRedMax (c : Nat) (a : Nat) (b : Nat)
  /-- R268. Issues a copy that merges triples into its destination. -/
  | cpRedMrg (c : Nat) (a : Nat) (b : Nat)
  /-- R269. Attaches a follow-on matrix command to a copy channel. -/
  | cpMm (c : Nat) (a : Nat) (b : Nat)
  /-- R279. Samples a copy channel's status word. -/
  | cpStat (d : Nat) (k : Nat)
  /-- R281. Ends every outstanding copy and attachment of a channel. -/
  | cpAbort (d : Nat) (k : Nat)
  /-- R282. Binds a copy channel to a timeline counter. -/
  | cpBind (n : Nat) (k : Nat)
  /-- R365. Starts set-up of a plan from its record and lands a handle. -/
  | plSetup (n : Nat) (a : Nat) (k : Nat)
  /-- R382. Issues one trigger for the executing core's rank. -/
  | plFire (n : Nat) (k : Nat)
  /-- R368. Ends a plan in every peer and releases its reservations. -/
  | plFree (n : Nat) (k : Nat)
  /-- R383. Samples a plan's table entry. -/
  | plStat (d : Nat) (k : Nat)
  /-- R377. Re-executes one faulted chunk of a plan. -/
  | plRedo (n : Nat) (a : Nat) (k : Nat)
  /-- R381. Copies a plan-handle register into a z register. -/
  | plGeth (d : Nat) (k : Nat)
  /-- R382. Looks up a plan ID and generation and lands a handle. -/
  | plSeth (a : Nat) (k : Nat)
  /-- R312. Starts the Matins tables of a channel set at a global tick. -/
  | nmStart (n : Nat) (a : Nat)
  /-- R313. Pushes stores to a bank and completes commands issued to it. -/
  | nmFenceBank (a : Nat)
  /-- R313. Pushes stores to every bank of a channel and completes its commands. -/
  | nmFenceChan (a : Nat)
  /-- R314. Computes the bank-unit share of a split product. -/
  | nmRatio (d : Nat) (a : Nat)
  /-- R315. Collects channel output buffers into one destination. -/
  | nmColl (n : Nat) (a : Nat)
  /-- R316. Broadcasts a query into a slot of a channel range. -/
  | nmQbc (n : Nat) (a : Nat)
  /-- R317. Fills one walk register of a channel. -/
  | nmWalk (n : Nat) (a : Nat)
  /-- R318. Returns a channel's mcst register. -/
  | nmStat (d : Nat) (a : Nat)
  /-- R339. Creates a sequence homed on the executing package. -/
  | kvAlloc (d : Nat) (a : Nat)
  /-- R340. Ends a sequence and releases its pair references. -/
  | kvFree (d : Nat) (a : Nat)
  /-- R341. Appends tokens to the sequences of a list, taking pairs as needed. -/
  | kvApp (d : Nat) (a : Nat) (b : Nat)
  /-- R342. Writes map entries or walk entries for a position range. -/
  | kvMap (d : Nat) (a : Nat)
  /-- R347. Gives a new sequence a prefix of a source sequence. -/
  | kvShare (d : Nat) (a : Nat)
  /-- R344. Moves one map entry to a pair on a target holder. -/
  | kvMove (d : Nat) (a : Nat)
  /-- R343. Returns a sequence's length. -/
  | kvStatLen (d : Nat) (a : Nat)
  /-- R343. Returns a sequence's map generation and absent count. -/
  | kvStatGen (d : Nat) (a : Nat)
  /-- R343. Returns the executing package's free pair count. -/
  | kvStatFree (d : Nat) (a : Nat)
  /-- R346. Raises the map generation, validating a moving entry if named. -/
  | kvGen (d : Nat) (a : Nat) (b : Nat)
  /-- R249. Requests a lease pinning a virtual range in the die's L2. -/
  | l2Lease (d : Nat) (a : Nat) (b : Nat)
  /-- R250. Ends a lease. -/
  | l2Rel (d : Nat) (a : Nat)
  /-- R250. Sets a new expiry for a held lease. -/
  | l2Renew (d : Nat) (a : Nat) (b : Nat)
  /-- R250. Returns a lease's expiry tick. -/
  | l2Stat (d : Nat) (a : Nat)
  /-- R253. Scores a query against leased key-value pages in the slice dot units. -/
  | l2Dot (n : Nat) (a : Nat)
  /-- R255. Writes back dirty lines of a range from the executing L1. -/
  | l2WbL1 (n : Nat) (a : Nat) (b : Nat)
  /-- R255. Writes back dirty lines of a range from L1 and home slices. -/
  | l2WbL2 (n : Nat) (a : Nat) (b : Nat)
  /-- R255. Writes back and removes lines of a range from the executing L1. -/
  | l2InvL1 (n : Nat) (a : Nat) (b : Nat)
  /-- R255. Writes back and removes lines of a range from L1 and home slices. -/
  | l2InvL2 (n : Nat) (a : Nat) (b : Nat)
  /-- R256. Hints a range into its home slices. -/
  | l2PfL2 (a : Nat) (b : Nat)
  /-- R256. Hints a range into home slices and the executing L1. -/
  | l2PfL1 (a : Nat) (b : Nat)
  /-- R220. Arms a semaphore signal on a timeline counter threshold. -/
  | fenceArmSig (n : Nat) (a : Nat) (b : Nat)
  /-- R220. Arms a plan trigger on a timeline counter threshold. -/
  | fenceArmTrig (n : Nat) (a : Nat) (b : Nat)
  /-- R220. Arms an 8-byte store on a timeline counter threshold. -/
  | fenceArmWr (n : Nat) (a : Nat) (b : Nat)
  /-- R127. C-stream load into a z register. -/
  | ldC (d : Nat) (a : Nat) (s : Nat) (x : Nat) (o : Nat)
  /-- R127. C-stream store from a z register through its store buffer. -/
  | stC (d : Nat) (a : Nat) (s : Nat) (o : Nat)
  /-- R308. Sequencer word that does nothing and proceeds to the next word. -/
  | bnop
  /-- R298. Activates a row in a bank. -/
  | bact
  /-- R293. Precharges one bank. -/
  | bpre
  /-- R293. Precharges every open bank of the channel. -/
  | bpra
  /-- R298. Refreshes a bank, busy for 160 cycles. -/
  | bref
  /-- R305. Loads a query slot into every bank unit's query buffer and br1. -/
  | bqld
  /-- R299. Scores one token slot of the open row against the query. -/
  | bdot
  /-- R300. Sends a bank unit's score to a merge slot or the output buffer. -/
  | bemit
  /-- R301. Folds a pending score into a merge slot and broadcasts weights. -/
  | bwbc
  /-- R302. Applies a bank unit's weights to one value token. -/
  | bwacc
  /-- R306. Writes br3 to a column of the open row. -/
  | bwr
  /-- R306. Writes the accumulator vector over the open row. -/
  | bwra
  /-- R305. Resets a bank unit's or every unit's pass state. -/
  | bclr
  /-- R305. Loads 32 bytes of the open row into a bank register. -/
  | bscl
  /-- R307. Activates a row named by a walk entry or marks the page null. -/
  | bwact
  /-- R307. Advances a walk register's pointer. -/
  | bwadv
  /-- R308. Sequencer loop on a loop counter. -/
  | bloop
  /-- R308. Sequencer jump to a target word. -/
  | bjmp
  /-- R308. Numbered word complete when earlier commands of its stream are. -/
  | bsync
  /-- R290. Ends a pass of the table. -/
  | bend
  /-- R303. Merges all 64 slots and exports the channel's triple. -/
  | bmx
  /-- R226. An SC access waiting for an owned hour and prior accesses issues and is stamped. -/
  | scAccessIssue
  /-- R91. A result in flight lands in its destination at its due cycle. -/
  | resultLanding
  /-- R100. Late load data arrives and ends a data freeze. -/
  | loadDataArrival
  /-- R123. A store-buffer entry leaves the buffer and is performed. -/
  | storeBufferDrain
  /-- R95. A missing instruction word arrives in the instruction cache. -/
  | instructionFetchFill
  /-- R99. An interlocked result comes into existence and ends a 0xA freeze. -/
  | interlockResultReady
  /-- R241. A walker takes a queued walk and fills the TLBs or ends in a fault. -/
  | pageWalk
  /-- R130. A queued waiter heads its queue with enough count and takes it. -/
  | semWaitService
  /-- R131. A signal's covered accesses are performed and k is added to the count. -/
  | semSignalApply
  /-- R144. An arrival's covered accesses are performed and the arrival is counted. -/
  | gbArrivalApply
  /-- R217. An operation completes and a timeline counter's mark moves past completed numbers. -/
  | timelineMarkAdvance
  /-- R270. A channel starts an accepted copy once its ordering condition holds and walks it. -/
  | copyStart
  /-- R270. A copy's reads and writes are performed and it completes on its counter. -/
  | copyComplete
  /-- R277. A copy chunk that failed its checksum is resent by the channel. -/
  | copyChunkResend
  /-- R269. An attachment arrives at the matrix queue after earlier copies and is numbered. -/
  | followOnArrival
  /-- R199. A waiting follow-on command takes the matrix array. -/
  | followOnStart
  /-- R199. A follow-on command writes its tile and completes. -/
  | followOnComplete
  /-- R198. A numbered drain's stores are performed or its chunk leaves the core. -/
  | matrixDrainComplete
  /-- R312. A started channel issues word 0 at the first cycle at or after its tick. -/
  | nmTableStart
  /-- R290. The next pass begins at word 0 after the previous pass or its refresh gap. -/
  | matinsPassStart
  /-- R290. After the last bend and all completions, the table stops and banks are precharged. -/
  | matinsTableStop
  /-- R248. A lease reaches its expiry tick and its handle and units return. -/
  | leaseExpiry
  /-- R242. An invalidation finishes and busy clears in xinvst. -/
  | xinvComplete
  /-- R365. Set-up ends in every peer with the plan ready or failed. -/
  | planSetupComplete
  /-- R369. A trigger reaches a rank's package and is queued or dropped. -/
  | planTriggerDelivery
  /-- R369. A rank starts its part of a round when a trigger waits and the prior part is complete. -/
  | planPartStart
  /-- R370. A rank's part completes, updating its arrival word and tags. -/
  | planPartComplete
  /-- R363. A merge or reduce unit combines its inputs for a tree node. -/
  | mergeNodeCompute
  /-- R375. A chunk arrives at a verifying point and its checksum, age and hop count are checked. -/
  | chunkHopVerify
  /-- R376. The nearest verified copy upstream resends a dropped chunk. -/
  | chunkResend
  /-- R351. A port receives a flit and checks its CRC, requesting replay on failure. -/
  | flitReceive
  /-- R352. A failing lane is spared, narrows the port or takes it down. -/
  | laneFailure
  /-- R468. A request to an unreachable member fails after 1 ms with a data-loss fault. -/
  | unplannedRequestTimeout
  /-- R397. A queue takes a launch packet describing a grid of gangs. -/
  | launchPacket
  /-- R398. A queue takes a barrier-and packet naming up to five signals. -/
  | barrierAndPacket
  /-- R398. A queue takes a barrier-or packet naming up to five signals. -/
  | barrierOrPacket
  /-- R398. The queue re-reads a barrier's signals and settles it as satisfied, waiting or aborted. -/
  | barrierEvaluation
  /-- R399. A queue starts a copy on a queue copy engine. -/
  | copyPacket
  /-- R400. A signal packet stores a value as a system-scope release. -/
  | signalStorePacket
  /-- R400. A signal packet atomically adds a value. -/
  | signalAddPacket
  /-- R400. A signal packet delivers a plan trigger to a package. -/
  | signalTriggerPacket
  /-- R401. A table-load packet offers Matins words to a channel range for checking. -/
  | tableLoadPacket
  /-- R402. A packet's work is done and -1 is added to its completion signal. -/
  | packetCompletion
  /-- R390. The dispatcher places a waiting gang on one die when resources free. -/
  | gangPlacement
  /-- R391. A task whose streams, copies and tables are done ends and releases its resources. -/
  | taskEnd
  /-- R407. The pmbnd bound passes and running tasks are stopped by force. -/
  | preemptBoundExpiry
  /-- R410. Once every task has stopped, each context area is saved. -/
  | preemptSave
  /-- R411. A saved gang is restored on its cores at a common tick. -/
  | gangResumption
  /-- R414. The partition hang timer reaches 0 and the partition is reset. -/
  | midnightExpiry
  /-- R242. The host starts a TLB invalidation of a range of a context. -/
  | xinvWrite
  /-- R243. The host resumes a stopped faulted or trapped access. -/
  | xresResume
  /-- R243. The host aborts the context of an outstanding fault. -/
  | xresAbort
  /-- R236. The host changes a stack's linear split, moving address placement. -/
  | hsplitWrite
  /-- R327. Setting en fills the free list with the linear parts' pairs. -/
  | kvctlEnable
  /-- R327. Clearing en discards homed sequences and empties the free list. -/
  | kvctlDisable
  /-- R345. Marks every entry held by a lost package absent and raises generations. -/
  | kvlostWrite
  /-- R369. A write to pltrig checks and forwards one plan trigger. -/
  | pltrigWrite
  /-- R386. Changes the partition mode when the device is idle, else sets rej. -/
  | ptcfgWrite
  /-- R387. Writes a context entry unless the context holds resources. -/
  | contextEntryWrite
  /-- R388. The host aborts a named context. -/
  | ctxabWrite
  /-- R393. Writing en = 1 checks a queue and makes it active or refused. -/
  | queueEnable
  /-- R393. Writing en = 0 stops a queue reading further packets. -/
  | queueDisable
  /-- R394. The doorbell makes further packets available to a queue. -/
  | qwrWrite
  /-- R407. Requests pre-emption of a named gang. -/
  | pmreqWrite
  /-- R411. Queues a saved gang for resumption. -/
  | pmresWrite
  /-- R413. Reloads the Midnight timer. -/
  | mnstKick
  /-- R436. Host write to a counter's ownership, refused unless host-owned. -/
  | ecownWrite
  /-- R436. Host write to ecval or eccfg, refused unless host-owned. -/
  | ecHostValueWrite
  /-- R437. An event counter wraps, sets ovf and may write an overflow record. -/
  | counterWrap
  /-- R446. Starts building a signed attestation report over a nonce. -/
  | atctlGo
  /-- R442. A rack controller message reads or writes power or health registers. -/
  | mctpRequest
  /-- R443. A host read or write through BAR0 or BAR2 as a system-scope agent. -/
  | hostBarAccess
  /-- R9. A write to a register with no row of its own acts by its access type. -/
  | registerWrite
  /-- R441. Every 1 ms the power registers update and the throttle steps up or down. -/
  | powerControlUpdate
  /-- R427. A correctable array or HBM error is corrected and counted. -/
  | correctedError
  /-- R428. An uncorrectable error poisons its unit or refetches a clean L1 line. -/
  | uncorrectableError
  /-- R429. A spare core takes a failed core's number once that core holds no task. -/
  | coreSpareTakeover
  /-- R444. Power-on or fundamental reset runs the verified start-up sequence. -/
  | dawnStartup
  /-- R468. A fabric port finishes training or a route to a member package comes up again, so the reachability table marks the package reachable and held requests proceed. -/
  | routeRecovery
  /-- R335. The home package's page manager finishes an accepted kv operation, possibly queued behind others or remote, and its reply lands in zd or is dropped if the issuer is gone. -/
  | kvOperationComplete
  /-- R442. The device loses power, after which it answers nothing until a later power-on runs the Dawn start-up. -/
  | powerLoss
  deriving DecidableEq, Repr

end Sys2Proof
end

