-- ==== Sys2Proof/WellFormed.lean ====
section
/-!
DEFINITION. Sys2Proof/WellFormed.lean: which instructions a stream's words can hold: every field in its width and
none of the subcauses of R59. Steps that no word encodes are not words of any stream.
-/

namespace Sys2Proof

/-- A guard whose predicate number fits its field (R61). -/
def Guard.fits (g : Guard) : Bool := g.p < 16

/-- A guard of the cells 0x01 to 0x0B, which carry none in the C stream (R61, R71). -/
def Guard.fitsPlain (g : Guard) (k : StreamId) : Bool := g.fits && (k ≠ .c || g = ⟨0, false⟩)

/-- Stream k can issue this instruction: the fields fit, the map of k assigns it, and R59 rejects nothing of it. -/
def Instr.wf (k : StreamId) : Instr → Bool
  | .nop => true
  | .add gd d a b => decide (k ≠ .m ∧ gd.fitsPlain k ∧ d < 64 ∧ a < 64 ∧ b < 64 ∧ ¬ (badReg k d ∨ badReg k a ∨ badReg k b))
  | .sub gd d a b => decide (k ≠ .m ∧ gd.fitsPlain k ∧ d < 64 ∧ a < 64 ∧ b < 64 ∧ ¬ (badReg k d ∨ badReg k a ∨ badReg k b))
  | .and gd d a b => decide (k ≠ .m ∧ gd.fitsPlain k ∧ d < 64 ∧ a < 64 ∧ b < 64 ∧ ¬ (badReg k d ∨ badReg k a ∨ badReg k b))
  | .or gd d a b => decide (k ≠ .m ∧ gd.fitsPlain k ∧ d < 64 ∧ a < 64 ∧ b < 64 ∧ ¬ (badReg k d ∨ badReg k a ∨ badReg k b))
  | .xor gd d a b => decide (k ≠ .m ∧ gd.fitsPlain k ∧ d < 64 ∧ a < 64 ∧ b < 64 ∧ ¬ (badReg k d ∨ badReg k a ∨ badReg k b))
  | .andn gd d a b => decide (k ≠ .m ∧ gd.fitsPlain k ∧ d < 64 ∧ a < 64 ∧ b < 64 ∧ ¬ (badReg k d ∨ badReg k a ∨ badReg k b))
  | .orn gd d a b => decide (k ≠ .m ∧ gd.fitsPlain k ∧ d < 64 ∧ a < 64 ∧ b < 64 ∧ ¬ (badReg k d ∨ badReg k a ∨ badReg k b))
  | .xnor gd d a b => decide (k ≠ .m ∧ gd.fitsPlain k ∧ d < 64 ∧ a < 64 ∧ b < 64 ∧ ¬ (badReg k d ∨ badReg k a ∨ badReg k b))
  | .sll gd d a b => decide (k ≠ .m ∧ gd.fitsPlain k ∧ d < 64 ∧ a < 64 ∧ b < 64 ∧ ¬ (badReg k d ∨ badReg k a ∨ badReg k b))
  | .srl gd d a b => decide (k ≠ .m ∧ gd.fitsPlain k ∧ d < 64 ∧ a < 64 ∧ b < 64 ∧ ¬ (badReg k d ∨ badReg k a ∨ badReg k b))
  | .sra gd d a b => decide (k ≠ .m ∧ gd.fitsPlain k ∧ d < 64 ∧ a < 64 ∧ b < 64 ∧ ¬ (badReg k d ∨ badReg k a ∨ badReg k b))
  | .ror gd d a b => decide (k ≠ .m ∧ gd.fitsPlain k ∧ d < 64 ∧ a < 64 ∧ b < 64 ∧ ¬ (badReg k d ∨ badReg k a ∨ badReg k b))
  | .min gd d a b => decide (k ≠ .m ∧ gd.fitsPlain k ∧ d < 64 ∧ a < 64 ∧ b < 64 ∧ ¬ (badReg k d ∨ badReg k a ∨ badReg k b))
  | .max gd d a b => decide (k ≠ .m ∧ gd.fitsPlain k ∧ d < 64 ∧ a < 64 ∧ b < 64 ∧ ¬ (badReg k d ∨ badReg k a ∨ badReg k b))
  | .minu gd d a b => decide (k ≠ .m ∧ gd.fitsPlain k ∧ d < 64 ∧ a < 64 ∧ b < 64 ∧ ¬ (badReg k d ∨ badReg k a ∨ badReg k b))
  | .maxu gd d a b => decide (k ≠ .m ∧ gd.fitsPlain k ∧ d < 64 ∧ a < 64 ∧ b < 64 ∧ ¬ (badReg k d ∨ badReg k a ∨ badReg k b))
  | .addi gd d a i => decide (k ≠ .m ∧ gd.fitsPlain k ∧ d < 64 ∧ a < 64 ∧ i < 512 ∧ ¬ (badReg k d ∨ badReg k a))
  | .andi gd d a i => decide (k ≠ .m ∧ gd.fitsPlain k ∧ d < 64 ∧ a < 64 ∧ i < 512 ∧ ¬ (badReg k d ∨ badReg k a))
  | .ori gd d a i => decide (k ≠ .m ∧ gd.fitsPlain k ∧ d < 64 ∧ a < 64 ∧ i < 512 ∧ ¬ (badReg k d ∨ badReg k a))
  | .xori gd d a i => decide (k ≠ .m ∧ gd.fitsPlain k ∧ d < 64 ∧ a < 64 ∧ i < 512 ∧ ¬ (badReg k d ∨ badReg k a))
  | .slli gd d a s => decide (k ≠ .m ∧ gd.fitsPlain k ∧ d < 64 ∧ a < 64 ∧ s < 64 ∧ ¬ (badReg k d ∨ badReg k a))
  | .srli gd d a s => decide (k ≠ .m ∧ gd.fitsPlain k ∧ d < 64 ∧ a < 64 ∧ s < 64 ∧ ¬ (badReg k d ∨ badReg k a))
  | .srai gd d a s => decide (k ≠ .m ∧ gd.fitsPlain k ∧ d < 64 ∧ a < 64 ∧ s < 64 ∧ ¬ (badReg k d ∨ badReg k a))
  | .rori gd d a s => decide (k ≠ .m ∧ gd.fitsPlain k ∧ d < 64 ∧ a < 64 ∧ s < 64 ∧ ¬ (badReg k d ∨ badReg k a))
  | .li gd d i => decide (k ≠ .m ∧ gd.fitsPlain k ∧ d < 64 ∧ i < 32768 ∧ ¬ (badReg k d))
  | .lix gd d i => decide (k ≠ .m ∧ gd.fitsPlain k ∧ d < 64 ∧ i < 32768 ∧ ¬ (badReg k d))
  | .cmp gd p a b c => decide (k ≠ .m ∧ gd.fitsPlain k ∧ p < 16 ∧ a < 64 ∧ b < 64 ∧ c < 16 ∧ ¬ (8 ≤ c) ∧ ¬ (badReg k a ∨ badReg k b) ∧ ¬ (p = 0))
  | .cmpi gd p a c i => decide (k ≠ .m ∧ gd.fitsPlain k ∧ p < 16 ∧ a < 64 ∧ c < 16 ∧ i < 128 ∧ ¬ (8 ≤ c) ∧ ¬ (badReg k a) ∧ ¬ (p = 0))
  | .pand gd d a b => decide (gd.fits ∧ d < 16 ∧ a < 16 ∧ b < 16 ∧ ¬ (d = 0))
  | .por gd d a b => decide (gd.fits ∧ d < 16 ∧ a < 16 ∧ b < 16 ∧ ¬ (d = 0))
  | .pxor gd d a b => decide (gd.fits ∧ d < 16 ∧ a < 16 ∧ b < 16 ∧ ¬ (d = 0))
  | .pandn gd d a b => decide (gd.fits ∧ d < 16 ∧ a < 16 ∧ b < 16 ∧ ¬ (d = 0))
  | .pnot gd d a => decide (gd.fits ∧ d < 16 ∧ a < 16 ∧ ¬ (d = 0))
  | .pmov gd d a => decide (gd.fits ∧ d < 16 ∧ a < 16 ∧ ¬ (d = 0))
  | .pset gd d => decide (gd.fits ∧ d < 16 ∧ ¬ (d = 0))
  | .pclr gd d => decide (gd.fits ∧ d < 16 ∧ ¬ (d = 0))
  | .brp gd d o => decide (gd.fits ∧ d < 8 ∧ o < 262144)
  | .brpx gd d a => decide (k ≠ .m ∧ gd.fits ∧ d < 8 ∧ a < 64 ∧ ¬ (badReg k a))
  | .br gd s => decide (gd.fits ∧ s < 8)
  | .brL gd s d => decide (k = .s ∧ gd.fits ∧ s < 8 ∧ d < 64)
  | .loop gd l a e => decide (k ≠ .m ∧ gd.fits ∧ l < 2 ∧ a < 64 ∧ e < 16384 ∧ ¬ (badReg k a) ∧ ¬ (e = 0))
  | .loopi gd l c e => decide (gd.fits ∧ l < 2 ∧ c < 1024 ∧ e < 1024 ∧ ¬ (e = 0))
  | .csrr gd d c => decide (k ≠ .m ∧ gd.fits ∧ d < 64 ∧ c < 512 ∧ ¬ (¬ csrAssigned k c) ∧ ¬ (badReg k d))
  | .csrw gd a c => decide (k ≠ .m ∧ gd.fits ∧ a < 64 ∧ c < 512 ∧ ¬ (¬ csrAssigned k c) ∧ ¬ (badReg k a))
  | .semWait gd i kk => decide (gd.fits ∧ i < 64 ∧ kk < 1024 ∧ ¬ (kk = 0))
  | .semSig gd i kk => decide (gd.fits ∧ i < 64 ∧ kk < 1024 ∧ ¬ (kk = 0))
  | .semTry gd i p => decide (gd.fits ∧ i < 64 ∧ p < 16 ∧ ¬ (p = 0))
  | .semRd gd i r => decide (k ≠ .m ∧ gd.fits ∧ i < 64 ∧ r < 64 ∧ ¬ (badReg k r))
  | .gbArr gd i => decide (gd.fits ∧ i < 64 ∧ ¬ (16 ≤ i))
  | .gbWait gd i => decide (gd.fits ∧ i < 64 ∧ ¬ (16 ≤ i))
  | .gbSync gd i => decide (gd.fits ∧ i < 64 ∧ ¬ (16 ≤ i))
  | .fenceTlw gd i s r => decide (k ≠ .m ∧ gd.fits ∧ i < 64 ∧ s < 16 ∧ r < 64 ∧ ¬ (16 ≤ i ∨ 10 ≤ s) ∧ ¬ (badReg k r))
  | .mul gd d a b => decide (k = .s ∧ gd.fits ∧ d < 64 ∧ a < 64 ∧ b < 64)
  | .mulh gd d a b => decide (k = .s ∧ gd.fits ∧ d < 64 ∧ a < 64 ∧ b < 64)
  | .mulhu gd d a b => decide (k = .s ∧ gd.fits ∧ d < 64 ∧ a < 64 ∧ b < 64)
  | .mulhsu gd d a b => decide (k = .s ∧ gd.fits ∧ d < 64 ∧ a < 64 ∧ b < 64)
  | .div gd d a b => decide (k = .s ∧ gd.fits ∧ d < 64 ∧ a < 64 ∧ b < 64)
  | .divu gd d a b => decide (k = .s ∧ gd.fits ∧ d < 64 ∧ a < 64 ∧ b < 64)
  | .rem gd d a b => decide (k = .s ∧ gd.fits ∧ d < 64 ∧ a < 64 ∧ b < 64)
  | .remu gd d a b => decide (k = .s ∧ gd.fits ∧ d < 64 ∧ a < 64 ∧ b < 64)
  | .addw gd d a b => decide (k = .s ∧ gd.fits ∧ d < 64 ∧ a < 64 ∧ b < 64)
  | .subw gd d a b => decide (k = .s ∧ gd.fits ∧ d < 64 ∧ a < 64 ∧ b < 64)
  | .mulw gd d a b => decide (k = .s ∧ gd.fits ∧ d < 64 ∧ a < 64 ∧ b < 64)
  | .sllw gd d a b => decide (k = .s ∧ gd.fits ∧ d < 64 ∧ a < 64 ∧ b < 64)
  | .srlw gd d a b => decide (k = .s ∧ gd.fits ∧ d < 64 ∧ a < 64 ∧ b < 64)
  | .sraw gd d a b => decide (k = .s ∧ gd.fits ∧ d < 64 ∧ a < 64 ∧ b < 64)
  | .divw gd d a b => decide (k = .s ∧ gd.fits ∧ d < 64 ∧ a < 64 ∧ b < 64)
  | .remw gd d a b => decide (k = .s ∧ gd.fits ∧ d < 64 ∧ a < 64 ∧ b < 64)
  | .clz gd d a => decide (k = .s ∧ gd.fits ∧ d < 64 ∧ a < 64)
  | .ctz gd d a => decide (k = .s ∧ gd.fits ∧ d < 64 ∧ a < 64)
  | .popc gd d a => decide (k = .s ∧ gd.fits ∧ d < 64 ∧ a < 64)
  | .brev gd d a => decide (k = .s ∧ gd.fits ∧ d < 64 ∧ a < 64)
  | .sextb gd d a => decide (k = .s ∧ gd.fits ∧ d < 64 ∧ a < 64)
  | .sexth gd d a => decide (k = .s ∧ gd.fits ∧ d < 64 ∧ a < 64)
  | .sextw gd d a => decide (k = .s ∧ gd.fits ∧ d < 64 ∧ a < 64)
  | .zextw gd d a => decide (k = .s ∧ gd.fits ∧ d < 64 ∧ a < 64)
  | .sel gd d a b => decide (k = .s ∧ gd.fits ∧ d < 64 ∧ a < 64 ∧ b < 64)
  | .ld gd d a s x o => decide (k = .s ∧ gd.fits ∧ d < 64 ∧ a < 64 ∧ s < 4 ∧ x < 2 ∧ o < 64 ∧ ¬ (s = 3 ∧ x = 1))
  | .st gd d a s o => decide (k = .s ∧ gd.fits ∧ d < 64 ∧ a < 64 ∧ s < 4 ∧ o < 64)
  | .ldsp gd d a s x o => decide (k = .s ∧ gd.fits ∧ d < 64 ∧ a < 64 ∧ s < 4 ∧ x < 2 ∧ o < 64 ∧ ¬ (s = 3 ∧ x = 1))
  | .stsp gd d a s o => decide (k = .s ∧ gd.fits ∧ d < 64 ∧ a < 64 ∧ s < 4 ∧ o < 64)
  | .ldAcq gd d a s c => decide (k = .s ∧ gd.fits ∧ d < 64 ∧ a < 64 ∧ s < 4 ∧ c < 16 ∧ ¬ (10 ≤ c))
  | .stRel gd d a s c => decide (k = .s ∧ gd.fits ∧ d < 64 ∧ a < 64 ∧ s < 4 ∧ c < 16 ∧ ¬ (10 ≤ c))
  | .amAddW gd d a o c => decide (k = .s ∧ gd.fits ∧ d < 64 ∧ a < 64 ∧ o < 4 ∧ c < 16 ∧ ¬ (10 ≤ c))
  | .amSwapW gd d a o c => decide (k = .s ∧ gd.fits ∧ d < 64 ∧ a < 64 ∧ o < 4 ∧ c < 16 ∧ ¬ (10 ≤ c))
  | .amCasW gd d a o c => decide (k = .s ∧ gd.fits ∧ d < 64 ∧ a < 64 ∧ o < 4 ∧ c < 16 ∧ ¬ (10 ≤ c ∨ d % 2 = 1))
  | .amAndW gd d a o c => decide (k = .s ∧ gd.fits ∧ d < 64 ∧ a < 64 ∧ o < 4 ∧ c < 16 ∧ ¬ (10 ≤ c))
  | .amOrW gd d a o c => decide (k = .s ∧ gd.fits ∧ d < 64 ∧ a < 64 ∧ o < 4 ∧ c < 16 ∧ ¬ (10 ≤ c))
  | .amXorW gd d a o c => decide (k = .s ∧ gd.fits ∧ d < 64 ∧ a < 64 ∧ o < 4 ∧ c < 16 ∧ ¬ (10 ≤ c))
  | .amMaxW gd d a o c => decide (k = .s ∧ gd.fits ∧ d < 64 ∧ a < 64 ∧ o < 4 ∧ c < 16 ∧ ¬ (10 ≤ c))
  | .amMinW gd d a o c => decide (k = .s ∧ gd.fits ∧ d < 64 ∧ a < 64 ∧ o < 4 ∧ c < 16 ∧ ¬ (10 ≤ c))
  | .amAddD gd d a o c => decide (k = .s ∧ gd.fits ∧ d < 64 ∧ a < 64 ∧ o < 4 ∧ c < 16 ∧ ¬ (10 ≤ c))
  | .amSwapD gd d a o c => decide (k = .s ∧ gd.fits ∧ d < 64 ∧ a < 64 ∧ o < 4 ∧ c < 16 ∧ ¬ (10 ≤ c))
  | .amCasD gd d a o c => decide (k = .s ∧ gd.fits ∧ d < 64 ∧ a < 64 ∧ o < 4 ∧ c < 16 ∧ ¬ (10 ≤ c ∨ d % 2 = 1))
  | .amAndD gd d a o c => decide (k = .s ∧ gd.fits ∧ d < 64 ∧ a < 64 ∧ o < 4 ∧ c < 16 ∧ ¬ (10 ≤ c))
  | .amOrD gd d a o c => decide (k = .s ∧ gd.fits ∧ d < 64 ∧ a < 64 ∧ o < 4 ∧ c < 16 ∧ ¬ (10 ≤ c))
  | .amXorD gd d a o c => decide (k = .s ∧ gd.fits ∧ d < 64 ∧ a < 64 ∧ o < 4 ∧ c < 16 ∧ ¬ (10 ≤ c))
  | .amMaxD gd d a o c => decide (k = .s ∧ gd.fits ∧ d < 64 ∧ a < 64 ∧ o < 4 ∧ c < 16 ∧ ¬ (10 ≤ c))
  | .amMinD gd d a o c => decide (k = .s ∧ gd.fits ∧ d < 64 ∧ a < 64 ∧ o < 4 ∧ c < 16 ∧ ¬ (10 ≤ c))
  | .scLd gd d a s w o => decide (k = .s ∧ gd.fits ∧ d < 64 ∧ a < 64 ∧ s < 2 ∧ w < 2 ∧ o < 64)
  | .scSt gd d a s w o => decide (k = .s ∧ gd.fits ∧ d < 64 ∧ a < 64 ∧ s < 2 ∧ w < 2 ∧ o < 64)
  | .scAccessIssue => false
  | .fenceAcq gd c => decide (k = .s ∧ gd.fits ∧ c < 16 ∧ ¬ (10 ≤ c))
  | .fenceRel gd c => decide (k = .s ∧ gd.fits ∧ c < 16 ∧ ¬ (10 ≤ c))
  | .fenceAr gd c => decide (k = .s ∧ gd.fits ∧ c < 16 ∧ ¬ (10 ≤ c))
  | .ecRd gd d a => decide (k = .s ∧ gd.fits ∧ d < 64 ∧ a < 64)
  | .ecCfg gd a b => decide (k = .s ∧ gd.fits ∧ a < 64 ∧ b < 64)
  | .ecOn gd a => decide (k = .s ∧ gd.fits ∧ a < 64)
  | .ecOff gd a => decide (k = .s ∧ gd.fits ∧ a < 64)
  | .sysEnd gd => decide (k = .s ∧ gd.fits)
  | .yield gd => decide (k = .s ∧ gd.fits)
  | .sysArg gd d a => decide (k = .s ∧ gd.fits ∧ d < 64 ∧ a < 64)
  | .sysAbort gd a => decide (k = .s ∧ gd.fits ∧ a < 64)
  | .trap gd i => decide (k = .s ∧ gd.fits ∧ i < 32768)
  | .vesper gd i => decide (k = .s ∧ gd.fits ∧ i < 32768)
  | .vadd gd d a b => decide (k = .v ∧ gd.fits ∧ d < 32 ∧ a < 32 ∧ b < 32)
  | .vsub gd d a b => decide (k = .v ∧ gd.fits ∧ d < 32 ∧ a < 32 ∧ b < 32)
  | .vmul gd d a b => decide (k = .v ∧ gd.fits ∧ d < 32 ∧ a < 32 ∧ b < 32)
  | .vdiv gd d a b => decide (k = .v ∧ gd.fits ∧ d < 32 ∧ a < 32 ∧ b < 32)
  | .vmin gd d a b => decide (k = .v ∧ gd.fits ∧ d < 32 ∧ a < 32 ∧ b < 32)
  | .vmax gd d a b => decide (k = .v ∧ gd.fits ∧ d < 32 ∧ a < 32 ∧ b < 32)
  | .vminp gd d a b => decide (k = .v ∧ gd.fits ∧ d < 32 ∧ a < 32 ∧ b < 32)
  | .vmaxp gd d a b => decide (k = .v ∧ gd.fits ∧ d < 32 ∧ a < 32 ∧ b < 32)
  | .viadd gd d a b s => decide (k = .v ∧ gd.fits ∧ d < 32 ∧ a < 32 ∧ b < 32 ∧ s < 2)
  | .visub gd d a b s => decide (k = .v ∧ gd.fits ∧ d < 32 ∧ a < 32 ∧ b < 32 ∧ s < 2)
  | .vimul gd d a b s => decide (k = .v ∧ gd.fits ∧ d < 32 ∧ a < 32 ∧ b < 32 ∧ s < 2)
  | .viand gd d a b => decide (k = .v ∧ gd.fits ∧ d < 32 ∧ a < 32 ∧ b < 32)
  | .vior gd d a b => decide (k = .v ∧ gd.fits ∧ d < 32 ∧ a < 32 ∧ b < 32)
  | .vixor gd d a b => decide (k = .v ∧ gd.fits ∧ d < 32 ∧ a < 32 ∧ b < 32)
  | .vishl gd d a b => decide (k = .v ∧ gd.fits ∧ d < 32 ∧ a < 32 ∧ b < 32)
  | .vishr gd d a b => decide (k = .v ∧ gd.fits ∧ d < 32 ∧ a < 32 ∧ b < 32)
  | .visra gd d a b => decide (k = .v ∧ gd.fits ∧ d < 32 ∧ a < 32 ∧ b < 32)
  | .vimin gd d a b => decide (k = .v ∧ gd.fits ∧ d < 32 ∧ a < 32 ∧ b < 32)
  | .vimax gd d a b => decide (k = .v ∧ gd.fits ∧ d < 32 ∧ a < 32 ∧ b < 32)
  | .vfma gd d a b c => decide (k = .v ∧ gd.fits ∧ d < 32 ∧ a < 32 ∧ b < 32 ∧ c < 32)
  | .vfms gd d a b c => decide (k = .v ∧ gd.fits ∧ d < 32 ∧ a < 32 ∧ b < 32 ∧ c < 32)
  | .vsel gd d a b c => decide (k = .v ∧ gd.fits ∧ d < 32 ∧ a < 32 ∧ b < 32 ∧ c < 32)
  | .vmov gd d a => decide (k = .v ∧ gd.fits ∧ d < 32 ∧ a < 32)
  | .vneg gd d a => decide (k = .v ∧ gd.fits ∧ d < 32 ∧ a < 32)
  | .vabs gd d a => decide (k = .v ∧ gd.fits ∧ d < 32 ∧ a < 32)
  | .vexp2 gd d a => decide (k = .v ∧ gd.fits ∧ d < 32 ∧ a < 32)
  | .vlog2 gd d a => decide (k = .v ∧ gd.fits ∧ d < 32 ∧ a < 32)
  | .vrcp gd d a => decide (k = .v ∧ gd.fits ∧ d < 32 ∧ a < 32)
  | .vrsqrt gd d a => decide (k = .v ∧ gd.fits ∧ d < 32 ∧ a < 32)
  | .vsqrt gd d a => decide (k = .v ∧ gd.fits ∧ d < 32 ∧ a < 32)
  | .vcvt gd d a r => decide (k = .v ∧ gd.fits ∧ d < 32 ∧ a < 32 ∧ r < 2)
  | .vqlg6 gd d a b => decide (k = .v ∧ gd.fits ∧ d < 32 ∧ a < 32 ∧ b < 32)
  | .vqint8 gd d a b => decide (k = .v ∧ gd.fits ∧ d < 32 ∧ a < 32 ∧ b < 32)
  | .vdq gd d a => decide (k = .v ∧ gd.fits ∧ d < 32 ∧ a < 32)
  | .vscl gd d a b => decide (k = .v ∧ gd.fits ∧ d < 32 ∧ a < 32 ∧ b < 32)
  | .vperm gd d a b => decide (k = .v ∧ gd.fits ∧ d < 32 ∧ a < 32 ∧ b < 32)
  | .vunpk4 gd d a => decide (k = .v ∧ gd.fits ∧ d < 32 ∧ a < 32)
  | .vtr8 gd d a => decide (k = .v ∧ gd.fits ∧ d < 32 ∧ a < 32)
  | .vrsum gd d a => decide (k = .v ∧ gd.fits ∧ d < 32 ∧ a < 32)
  | .vrmax gd d a => decide (k = .v ∧ gd.fits ∧ d < 32 ∧ a < 32)
  | .vrmin gd d a => decide (k = .v ∧ gd.fits ∧ d < 32 ∧ a < 32)
  | .vrmaxp gd d a => decide (k = .v ∧ gd.fits ∧ d < 32 ∧ a < 32)
  | .vrminp gd d a => decide (k = .v ∧ gd.fits ∧ d < 32 ∧ a < 32)
  | .virsum gd d a => decide (k = .v ∧ gd.fits ∧ d < 32 ∧ a < 32)
  | .vany gd p a => decide (k = .v ∧ gd.fits ∧ p < 16 ∧ a < 32 ∧ ¬ (p = 0))
  | .vall gd p a => decide (k = .v ∧ gd.fits ∧ p < 16 ∧ a < 32 ∧ ¬ (p = 0))
  | .vmrg gd d a b => decide (k = .v ∧ gd.fits ∧ d < 32 ∧ a < 32 ∧ b < 32)
  | .vck gd d a => decide (k = .v ∧ gd.fits ∧ d < 32 ∧ a < 32)
  | .vcmpEq gd d a b => decide (k = .v ∧ gd.fits ∧ d < 32 ∧ a < 32 ∧ b < 32)
  | .vcmpNe gd d a b => decide (k = .v ∧ gd.fits ∧ d < 32 ∧ a < 32 ∧ b < 32)
  | .vcmpLt gd d a b => decide (k = .v ∧ gd.fits ∧ d < 32 ∧ a < 32 ∧ b < 32)
  | .vcmpLe gd d a b => decide (k = .v ∧ gd.fits ∧ d < 32 ∧ a < 32 ∧ b < 32)
  | .vcmpUn gd d a b => decide (k = .v ∧ gd.fits ∧ d < 32 ∧ a < 32 ∧ b < 32)
  | .vsetq gd d a b => decide (k = .v ∧ gd.fits ∧ d < 32 ∧ a < 16 ∧ b < 16)
  | .vgetq gd d a b => decide (k = .v ∧ gd.fits ∧ d < 32 ∧ a < 16 ∧ b < 16)
  | .vadvq gd d a b => decide (k = .v ∧ gd.fits ∧ d < 32 ∧ a < 16 ∧ b < 16)
  | .vcntq gd d a => decide (k = .v ∧ gd.fits ∧ d < 32 ∧ a < 16)
  | .vld gd q a h => decide (k = .v ∧ gd.fits ∧ q < 32 ∧ a < 16 ∧ h < 4 ∧ ¬ (h = 3))
  | .vst gd q a h => decide (k = .v ∧ gd.fits ∧ q < 32 ∧ a < 16 ∧ h < 4 ∧ ¬ (h = 3))
  | .vloop gd l a e => decide (k = .v ∧ gd.fits ∧ l < 2 ∧ a < 16 ∧ e < 16384 ∧ ¬ (e = 0))
  | .vstg gd i => decide (k = .v ∧ gd.fits ∧ i < 65536 ∧ ¬ (¬ vstgLegal i))
  | .mmMac a d e t => decide (k = .m ∧ a < 8 ∧ d < 8 ∧ e < 8 ∧ t < 4)
  | .mmMul a d e t => decide (k = .m ∧ a < 8 ∧ d < 8 ∧ e < 8 ∧ t < 4)
  | .mmZero a => decide (k = .m ∧ a < 8)
  | .mmDrain a d f r => decide (k = .m ∧ a < 8 ∧ d < 8 ∧ f < 16 ∧ r < 2 ∧ ¬ (12 ≤ f))
  | .mmSetd d s => decide (k = .m ∧ d < 8 ∧ s < 32768)
  | .mmGetd d s => decide (k = .m ∧ d < 8 ∧ s < 32768)
  | .mmAdv d => decide (k = .m ∧ d < 8)
  | .mmLdacc a d => decide (k = .m ∧ a < 8 ∧ d < 8)
  | .mmMov a d => decide (k = .m ∧ a < 8 ∧ d < 8)
  | .cp1d c a b => decide (k = .c ∧ c < 4 ∧ a < 16 ∧ b < 16)
  | .cp2d c a b => decide (k = .c ∧ c < 4 ∧ a < 16 ∧ b < 16)
  | .cp3d c a b => decide (k = .c ∧ c < 4 ∧ a < 16 ∧ b < 16)
  | .cpGat c a b => decide (k = .c ∧ c < 4 ∧ a < 16 ∧ b < 16)
  | .cpSct c a b => decide (k = .c ∧ c < 4 ∧ a < 16 ∧ b < 16)
  | .cpFill c a b => decide (k = .c ∧ c < 4 ∧ a < 16 ∧ b < 16)
  | .cpTol c a b => decide (k = .c ∧ c < 4 ∧ a < 16 ∧ b < 16)
  | .cpFrl c a b => decide (k = .c ∧ c < 4 ∧ a < 16 ∧ b < 16)
  | .cpRedSum c a b => decide (k = .c ∧ c < 4 ∧ a < 16 ∧ b < 16)
  | .cpRedMax c a b => decide (k = .c ∧ c < 4 ∧ a < 16 ∧ b < 16)
  | .cpRedMrg c a b => decide (k = .c ∧ c < 4 ∧ a < 16 ∧ b < 16)
  | .cpMm c a b => decide (k = .c ∧ c < 4 ∧ a < 16 ∧ b < 16)
  | .cpStat d kk => decide (k = .c ∧ d < 16 ∧ kk < 16 ∧ ¬ (4 ≤ kk))
  | .cpAbort d kk => decide (k = .c ∧ d < 16 ∧ kk < 16 ∧ ¬ (4 ≤ kk))
  | .cpBind n kk => decide (k = .c ∧ n < 16 ∧ kk < 16 ∧ ¬ (4 ≤ kk))
  | .plSetup n a kk => decide (k = .c ∧ n < 16 ∧ a < 16 ∧ kk < 8)
  | .plFire n kk => decide (k = .c ∧ n < 16 ∧ kk < 8)
  | .plFree n kk => decide (k = .c ∧ n < 16 ∧ kk < 8)
  | .plStat d kk => decide (k = .c ∧ d < 16 ∧ kk < 8)
  | .plRedo n a kk => decide (k = .c ∧ n < 16 ∧ a < 16 ∧ kk < 8)
  | .plGeth d kk => decide (k = .c ∧ d < 16 ∧ kk < 8)
  | .plSeth a kk => decide (k = .c ∧ a < 16 ∧ kk < 8)
  | .nmStart n a => decide (k = .c ∧ n < 16 ∧ a < 16)
  | .nmFenceBank a => decide (k = .c ∧ a < 16)
  | .nmFenceChan a => decide (k = .c ∧ a < 16)
  | .nmRatio d a => decide (k = .c ∧ d < 16 ∧ a < 16)
  | .nmColl n a => decide (k = .c ∧ n < 16 ∧ a < 16)
  | .nmQbc n a => decide (k = .c ∧ n < 16 ∧ a < 16)
  | .nmWalk n a => decide (k = .c ∧ n < 16 ∧ a < 16)
  | .nmStat d a => decide (k = .c ∧ d < 16 ∧ a < 16)
  | .kvAlloc d a => decide (k = .c ∧ d < 16 ∧ a < 16)
  | .kvFree d a => decide (k = .c ∧ d < 16 ∧ a < 16)
  | .kvApp d a b => decide (k = .c ∧ d < 16 ∧ a < 16 ∧ b < 16)
  | .kvMap d a => decide (k = .c ∧ d < 16 ∧ a < 16)
  | .kvShare d a => decide (k = .c ∧ d < 16 ∧ a < 16)
  | .kvMove d a => decide (k = .c ∧ d < 16 ∧ a < 16)
  | .kvStatLen d a => decide (k = .c ∧ d < 16 ∧ a < 16)
  | .kvStatGen d a => decide (k = .c ∧ d < 16 ∧ a < 16)
  | .kvStatFree d a => decide (k = .c ∧ d < 16 ∧ a < 16)
  | .kvGen d a b => decide (k = .c ∧ d < 16 ∧ a < 16 ∧ b < 16)
  | .l2Lease d a b => decide (k = .c ∧ d < 16 ∧ a < 16 ∧ b < 16)
  | .l2Rel d a => decide (k = .c ∧ d < 16 ∧ a < 16)
  | .l2Renew d a b => decide (k = .c ∧ d < 16 ∧ a < 16 ∧ b < 16)
  | .l2Stat d a => decide (k = .c ∧ d < 16 ∧ a < 16)
  | .l2Dot n a => decide (k = .c ∧ n < 16 ∧ a < 16)
  | .l2WbL1 n a b => decide (k = .c ∧ n < 16 ∧ a < 16 ∧ b < 16)
  | .l2WbL2 n a b => decide (k = .c ∧ n < 16 ∧ a < 16 ∧ b < 16)
  | .l2InvL1 n a b => decide (k = .c ∧ n < 16 ∧ a < 16 ∧ b < 16)
  | .l2InvL2 n a b => decide (k = .c ∧ n < 16 ∧ a < 16 ∧ b < 16)
  | .l2PfL2 a b => decide (k = .c ∧ a < 16 ∧ b < 16)
  | .l2PfL1 a b => decide (k = .c ∧ a < 16 ∧ b < 16)
  | .fenceArmSig n a b => decide (k = .c ∧ n < 16 ∧ a < 16 ∧ b < 16)
  | .fenceArmTrig n a b => decide (k = .c ∧ n < 16 ∧ a < 16 ∧ b < 16)
  | .fenceArmWr n a b => decide (k = .c ∧ n < 16 ∧ a < 16 ∧ b < 16 ∧ ¬ (b % 2 = 1))
  | .ldC d a s x o => decide (k = .c ∧ d < 64 ∧ a < 64 ∧ s < 4 ∧ x < 2 ∧ o < 64 ∧ ¬ (s = 3 ∧ x = 1) ∧ ¬ (badReg k d ∨ badReg k a))
  | .stC d a s o => decide (k = .c ∧ d < 64 ∧ a < 64 ∧ s < 4 ∧ o < 64 ∧ ¬ (badReg k d ∨ badReg k a))
  | .bnop => false
  | .bact => false
  | .bpre => false
  | .bpra => false
  | .bref => false
  | .bqld => false
  | .bdot => false
  | .bemit => false
  | .bwbc => false
  | .bwacc => false
  | .bwr => false
  | .bwra => false
  | .bclr => false
  | .bscl => false
  | .bwact => false
  | .bwadv => false
  | .bloop => false
  | .bjmp => false
  | .bsync => false
  | .bend => false
  | .bmx => false
  | .resultLanding => false
  | .loadDataArrival => false
  | .storeBufferDrain => false
  | .instructionFetchFill => false
  | .interlockResultReady => false
  | .pageWalk => false
  | .semWaitService => false
  | .semSignalApply => false
  | .gbArrivalApply => false
  | .timelineMarkAdvance => false
  | .copyStart => false
  | .copyComplete => false
  | .copyChunkResend => false
  | .followOnArrival => false
  | .followOnStart => false
  | .followOnComplete => false
  | .matrixDrainComplete => false
  | .nmTableStart => false
  | .matinsPassStart => false
  | .matinsTableStop => false
  | .leaseExpiry => false
  | .xinvComplete => false
  | .planSetupComplete => false
  | .planTriggerDelivery => false
  | .planPartStart => false
  | .planPartComplete => false
  | .mergeNodeCompute => false
  | .chunkHopVerify => false
  | .chunkResend => false
  | .flitReceive => false
  | .laneFailure => false
  | .unplannedRequestTimeout => false
  | .launchPacket => false
  | .barrierAndPacket => false
  | .barrierOrPacket => false
  | .barrierEvaluation => false
  | .copyPacket => false
  | .signalStorePacket => false
  | .signalAddPacket => false
  | .signalTriggerPacket => false
  | .tableLoadPacket => false
  | .packetCompletion => false
  | .gangPlacement => false
  | .taskEnd => false
  | .preemptBoundExpiry => false
  | .preemptSave => false
  | .gangResumption => false
  | .midnightExpiry => false
  | .xinvWrite => false
  | .xresResume => false
  | .xresAbort => false
  | .hsplitWrite => false
  | .kvctlEnable => false
  | .kvctlDisable => false
  | .kvlostWrite => false
  | .pltrigWrite => false
  | .ptcfgWrite => false
  | .contextEntryWrite => false
  | .ctxabWrite => false
  | .queueEnable => false
  | .queueDisable => false
  | .qwrWrite => false
  | .pmreqWrite => false
  | .pmresWrite => false
  | .mnstKick => false
  | .ecownWrite => false
  | .ecHostValueWrite => false
  | .counterWrap => false
  | .atctlGo => false
  | .mctpRequest => false
  | .hostBarAccess => false
  | .registerWrite => false
  | .powerControlUpdate => false
  | .correctedError => false
  | .uncorrectableError => false
  | .coreSpareTakeover => false
  | .dawnStartup => false
  | .routeRecovery => false
  | .kvOperationComplete => false
  | .powerLoss => false

/-- A bank command whose operands fit and are used as R297 and R298 give: a field the command does not have is 0. -/
def Instr.bankWf (i : Instr) (o : BankOps) : Bool :=
  match i with
  | .bnop => decide (o.w < 256 ∧ o.b = 0 ∧ o.r = 0 ∧ o.col = 0 ∧ o.os = 0 ∧ o.sq = 0 ∧ o.q = 0 ∧ o.wk = 0 ∧ o.lp = 0 ∧ o.tgt = 0 ∧ o.cnt = 0 ∧ o.all = 0)
  | .bact => decide (o.w < 256 ∧ o.b < 64 ∧ o.r < 65536 ∧ o.r < 0x8000 ∧ o.col = 0 ∧ o.os = 0 ∧ o.sq = 0 ∧ o.q = 0 ∧ o.wk = 0 ∧ o.lp = 0 ∧ o.tgt = 0 ∧ o.cnt = 0 ∧ o.all = 0)
  | .bpre => decide (o.w < 256 ∧ o.b < 64 ∧ o.r = 0 ∧ o.col = 0 ∧ o.os = 0 ∧ o.sq = 0 ∧ o.q = 0 ∧ o.wk = 0 ∧ o.lp = 0 ∧ o.tgt = 0 ∧ o.cnt = 0 ∧ o.all = 0)
  | .bpra => decide (o.w < 256 ∧ o.b = 0 ∧ o.r = 0 ∧ o.col = 0 ∧ o.os = 0 ∧ o.sq = 0 ∧ o.q = 0 ∧ o.wk = 0 ∧ o.lp = 0 ∧ o.tgt = 0 ∧ o.cnt = 0 ∧ o.all = 0)
  | .bref => decide (o.w < 256 ∧ o.b < 64 ∧ o.r = 0 ∧ o.col = 0 ∧ o.os = 0 ∧ o.sq = 0 ∧ o.q = 0 ∧ o.wk = 0 ∧ o.lp = 0 ∧ o.tgt = 0 ∧ o.cnt = 0 ∧ o.all = 0)
  | .bqld => decide (o.w < 256 ∧ o.q < 16 ∧ o.b = 0 ∧ o.r = 0 ∧ o.col = 0 ∧ o.os = 0 ∧ o.sq = 0 ∧ o.wk = 0 ∧ o.lp = 0 ∧ o.tgt = 0 ∧ o.cnt = 0 ∧ o.all = 0)
  | .bdot => decide (o.w < 256 ∧ o.b < 64 ∧ o.r < 65536 ∧ o.col < 256 ∧ o.os < 16 ∧ o.sq < 4096 ∧ o.r ≤ 0x8000 ∧ o.col % 8 = 0 ∧ o.col / 32 % 4 = 0 ∧ o.q = 0 ∧ o.wk = 0 ∧ o.lp = 0 ∧ o.tgt = 0 ∧ o.cnt = 0 ∧ o.all = 0)
  | .bemit => decide (o.w < 256 ∧ o.b < 64 ∧ o.col < 128 ∧ o.os < 16 ∧ o.sq < 4096 ∧ o.r = 0 ∧ o.q = 0 ∧ o.wk = 0 ∧ o.lp = 0 ∧ o.tgt = 0 ∧ o.cnt = 0 ∧ o.all = 0)
  | .bwbc => decide (o.w < 256 ∧ o.b < 64 ∧ o.r = 0 ∧ o.col = 0 ∧ o.os = 0 ∧ o.sq = 0 ∧ o.q = 0 ∧ o.wk = 0 ∧ o.lp = 0 ∧ o.tgt = 0 ∧ o.cnt = 0 ∧ o.all = 0)
  | .bwacc => decide (o.w < 256 ∧ o.b < 64 ∧ o.r < 65536 ∧ o.col < 256 ∧ o.os < 16 ∧ o.sq < 4096 ∧ o.r ≤ 0x8000 ∧ o.col % 8 = 0 ∧ o.col / 32 % 4 = 0 ∧ o.q = 0 ∧ o.wk = 0 ∧ o.lp = 0 ∧ o.tgt = 0 ∧ o.cnt = 0 ∧ o.all = 0)
  | .bwr => decide (o.w < 256 ∧ o.b < 64 ∧ o.r < 65536 ∧ o.col < 32 ∧ o.os < 16 ∧ o.sq < 4096 ∧ o.r ≤ 0x8000 ∧ o.q = 0 ∧ o.wk = 0 ∧ o.lp = 0 ∧ o.tgt = 0 ∧ o.cnt = 0 ∧ o.all = 0)
  | .bwra => decide (o.w < 256 ∧ o.b < 64 ∧ o.r < 65536 ∧ o.os < 16 ∧ o.sq < 4096 ∧ o.r ≤ 0x8000 ∧ o.col = 0 ∧ o.q = 0 ∧ o.wk = 0 ∧ o.lp = 0 ∧ o.tgt = 0 ∧ o.cnt = 0 ∧ o.all = 0)
  | .bclr => decide (o.w < 256 ∧ o.b < 64 ∧ o.all < 2 ∧ (o.all = 0 ∨ o.b = 0) ∧ o.r = 0 ∧ o.col = 0 ∧ o.os = 0 ∧ o.sq = 0 ∧ o.q = 0 ∧ o.wk = 0 ∧ o.lp = 0 ∧ o.tgt = 0 ∧ o.cnt = 0)
  | .bscl => decide (o.w < 256 ∧ o.b < 64 ∧ o.r < 65536 ∧ o.col < 128 ∧ o.os < 16 ∧ o.sq < 4096 ∧ o.r ≤ 0x8000 ∧ o.q = 0 ∧ o.wk = 0 ∧ o.lp = 0 ∧ o.tgt = 0 ∧ o.cnt = 0 ∧ o.all = 0)
  | .bwact => decide (o.w < 256 ∧ o.b < 64 ∧ o.wk < 65536 ∧ o.r = 0 ∧ o.col = 0 ∧ o.os = 0 ∧ o.sq = 0 ∧ o.q = 0 ∧ o.lp = 0 ∧ o.tgt = 0 ∧ o.cnt = 0 ∧ o.all = 0)
  | .bwadv => decide (o.w < 256 ∧ o.wk < 65536 ∧ o.b = 0 ∧ o.r = 0 ∧ o.col = 0 ∧ o.os = 0 ∧ o.sq = 0 ∧ o.q = 0 ∧ o.lp = 0 ∧ o.tgt = 0 ∧ o.cnt = 0 ∧ o.all = 0)
  | .bloop => decide (o.w < 256 ∧ o.lp < 4 ∧ o.tgt < 1024 ∧ o.cnt < 256 ∧ o.b = 0 ∧ o.r = 0 ∧ o.col = 0 ∧ o.os = 0 ∧ o.sq = 0 ∧ o.q = 0 ∧ o.wk = 0 ∧ o.all = 0)
  | .bjmp => decide (o.w < 256 ∧ o.tgt < 1024 ∧ o.b = 0 ∧ o.r = 0 ∧ o.col = 0 ∧ o.os = 0 ∧ o.sq = 0 ∧ o.q = 0 ∧ o.wk = 0 ∧ o.lp = 0 ∧ o.cnt = 0 ∧ o.all = 0)
  | .bsync => decide (o.w < 256 ∧ o.os < 16 ∧ o.sq < 4096 ∧ o.b = 0 ∧ o.r = 0 ∧ o.col = 0 ∧ o.q = 0 ∧ o.wk = 0 ∧ o.lp = 0 ∧ o.tgt = 0 ∧ o.cnt = 0 ∧ o.all = 0)
  | .bend => decide (o.w < 256 ∧ o.b = 0 ∧ o.r = 0 ∧ o.col = 0 ∧ o.os = 0 ∧ o.sq = 0 ∧ o.q = 0 ∧ o.wk = 0 ∧ o.lp = 0 ∧ o.tgt = 0 ∧ o.cnt = 0 ∧ o.all = 0)
  | .bmx => decide (o.w < 256 ∧ o.os < 16 ∧ o.sq < 4096 ∧ o.b = 0 ∧ o.r = 0 ∧ o.col = 0 ∧ o.q = 0 ∧ o.wk = 0 ∧ o.lp = 0 ∧ o.tgt = 0 ∧ o.cnt = 0 ∧ o.all = 0)
  | .nop => false
  | .add _ _ _ _ => false
  | .sub _ _ _ _ => false
  | .and _ _ _ _ => false
  | .or _ _ _ _ => false
  | .xor _ _ _ _ => false
  | .andn _ _ _ _ => false
  | .orn _ _ _ _ => false
  | .xnor _ _ _ _ => false
  | .sll _ _ _ _ => false
  | .srl _ _ _ _ => false
  | .sra _ _ _ _ => false
  | .ror _ _ _ _ => false
  | .min _ _ _ _ => false
  | .max _ _ _ _ => false
  | .minu _ _ _ _ => false
  | .maxu _ _ _ _ => false
  | .addi _ _ _ _ => false
  | .andi _ _ _ _ => false
  | .ori _ _ _ _ => false
  | .xori _ _ _ _ => false
  | .slli _ _ _ _ => false
  | .srli _ _ _ _ => false
  | .srai _ _ _ _ => false
  | .rori _ _ _ _ => false
  | .li _ _ _ => false
  | .lix _ _ _ => false
  | .cmp _ _ _ _ _ => false
  | .cmpi _ _ _ _ _ => false
  | .pand _ _ _ _ => false
  | .por _ _ _ _ => false
  | .pxor _ _ _ _ => false
  | .pandn _ _ _ _ => false
  | .pnot _ _ _ => false
  | .pmov _ _ _ => false
  | .pset _ _ => false
  | .pclr _ _ => false
  | .brp _ _ _ => false
  | .brpx _ _ _ => false
  | .br _ _ => false
  | .brL _ _ _ => false
  | .loop _ _ _ _ => false
  | .loopi _ _ _ _ => false
  | .csrr _ _ _ => false
  | .csrw _ _ _ => false
  | .semWait _ _ _ => false
  | .semSig _ _ _ => false
  | .semTry _ _ _ => false
  | .semRd _ _ _ => false
  | .gbArr _ _ => false
  | .gbWait _ _ => false
  | .gbSync _ _ => false
  | .fenceTlw _ _ _ _ => false
  | .mul _ _ _ _ => false
  | .mulh _ _ _ _ => false
  | .mulhu _ _ _ _ => false
  | .mulhsu _ _ _ _ => false
  | .div _ _ _ _ => false
  | .divu _ _ _ _ => false
  | .rem _ _ _ _ => false
  | .remu _ _ _ _ => false
  | .addw _ _ _ _ => false
  | .subw _ _ _ _ => false
  | .mulw _ _ _ _ => false
  | .sllw _ _ _ _ => false
  | .srlw _ _ _ _ => false
  | .sraw _ _ _ _ => false
  | .divw _ _ _ _ => false
  | .remw _ _ _ _ => false
  | .clz _ _ _ => false
  | .ctz _ _ _ => false
  | .popc _ _ _ => false
  | .brev _ _ _ => false
  | .sextb _ _ _ => false
  | .sexth _ _ _ => false
  | .sextw _ _ _ => false
  | .zextw _ _ _ => false
  | .sel _ _ _ _ => false
  | .ld _ _ _ _ _ _ => false
  | .st _ _ _ _ _ => false
  | .ldsp _ _ _ _ _ _ => false
  | .stsp _ _ _ _ _ => false
  | .ldAcq _ _ _ _ _ => false
  | .stRel _ _ _ _ _ => false
  | .amAddW _ _ _ _ _ => false
  | .amSwapW _ _ _ _ _ => false
  | .amCasW _ _ _ _ _ => false
  | .amAndW _ _ _ _ _ => false
  | .amOrW _ _ _ _ _ => false
  | .amXorW _ _ _ _ _ => false
  | .amMaxW _ _ _ _ _ => false
  | .amMinW _ _ _ _ _ => false
  | .amAddD _ _ _ _ _ => false
  | .amSwapD _ _ _ _ _ => false
  | .amCasD _ _ _ _ _ => false
  | .amAndD _ _ _ _ _ => false
  | .amOrD _ _ _ _ _ => false
  | .amXorD _ _ _ _ _ => false
  | .amMaxD _ _ _ _ _ => false
  | .amMinD _ _ _ _ _ => false
  | .scLd _ _ _ _ _ _ => false
  | .scSt _ _ _ _ _ _ => false
  | .scAccessIssue => false
  | .fenceAcq _ _ => false
  | .fenceRel _ _ => false
  | .fenceAr _ _ => false
  | .ecRd _ _ _ => false
  | .ecCfg _ _ _ => false
  | .ecOn _ _ => false
  | .ecOff _ _ => false
  | .sysEnd _ => false
  | .yield _ => false
  | .sysArg _ _ _ => false
  | .sysAbort _ _ => false
  | .trap _ _ => false
  | .vesper _ _ => false
  | .vadd _ _ _ _ => false
  | .vsub _ _ _ _ => false
  | .vmul _ _ _ _ => false
  | .vdiv _ _ _ _ => false
  | .vmin _ _ _ _ => false
  | .vmax _ _ _ _ => false
  | .vminp _ _ _ _ => false
  | .vmaxp _ _ _ _ => false
  | .viadd _ _ _ _ _ => false
  | .visub _ _ _ _ _ => false
  | .vimul _ _ _ _ _ => false
  | .viand _ _ _ _ => false
  | .vior _ _ _ _ => false
  | .vixor _ _ _ _ => false
  | .vishl _ _ _ _ => false
  | .vishr _ _ _ _ => false
  | .visra _ _ _ _ => false
  | .vimin _ _ _ _ => false
  | .vimax _ _ _ _ => false
  | .vfma _ _ _ _ _ => false
  | .vfms _ _ _ _ _ => false
  | .vsel _ _ _ _ _ => false
  | .vmov _ _ _ => false
  | .vneg _ _ _ => false
  | .vabs _ _ _ => false
  | .vexp2 _ _ _ => false
  | .vlog2 _ _ _ => false
  | .vrcp _ _ _ => false
  | .vrsqrt _ _ _ => false
  | .vsqrt _ _ _ => false
  | .vcvt _ _ _ _ => false
  | .vqlg6 _ _ _ _ => false
  | .vqint8 _ _ _ _ => false
  | .vdq _ _ _ => false
  | .vscl _ _ _ _ => false
  | .vperm _ _ _ _ => false
  | .vunpk4 _ _ _ => false
  | .vtr8 _ _ _ => false
  | .vrsum _ _ _ => false
  | .vrmax _ _ _ => false
  | .vrmin _ _ _ => false
  | .vrmaxp _ _ _ => false
  | .vrminp _ _ _ => false
  | .virsum _ _ _ => false
  | .vany _ _ _ => false
  | .vall _ _ _ => false
  | .vmrg _ _ _ _ => false
  | .vck _ _ _ => false
  | .vcmpEq _ _ _ _ => false
  | .vcmpNe _ _ _ _ => false
  | .vcmpLt _ _ _ _ => false
  | .vcmpLe _ _ _ _ => false
  | .vcmpUn _ _ _ _ => false
  | .vsetq _ _ _ _ => false
  | .vgetq _ _ _ _ => false
  | .vadvq _ _ _ _ => false
  | .vcntq _ _ _ => false
  | .vld _ _ _ _ => false
  | .vst _ _ _ _ => false
  | .vloop _ _ _ _ => false
  | .vstg _ _ => false
  | .mmMac _ _ _ _ => false
  | .mmMul _ _ _ _ => false
  | .mmZero _ => false
  | .mmDrain _ _ _ _ => false
  | .mmSetd _ _ => false
  | .mmGetd _ _ => false
  | .mmAdv _ => false
  | .mmLdacc _ _ => false
  | .mmMov _ _ => false
  | .cp1d _ _ _ => false
  | .cp2d _ _ _ => false
  | .cp3d _ _ _ => false
  | .cpGat _ _ _ => false
  | .cpSct _ _ _ => false
  | .cpFill _ _ _ => false
  | .cpTol _ _ _ => false
  | .cpFrl _ _ _ => false
  | .cpRedSum _ _ _ => false
  | .cpRedMax _ _ _ => false
  | .cpRedMrg _ _ _ => false
  | .cpMm _ _ _ => false
  | .cpStat _ _ => false
  | .cpAbort _ _ => false
  | .cpBind _ _ => false
  | .plSetup _ _ _ => false
  | .plFire _ _ => false
  | .plFree _ _ => false
  | .plStat _ _ => false
  | .plRedo _ _ _ => false
  | .plGeth _ _ => false
  | .plSeth _ _ => false
  | .nmStart _ _ => false
  | .nmFenceBank _ => false
  | .nmFenceChan _ => false
  | .nmRatio _ _ => false
  | .nmColl _ _ => false
  | .nmQbc _ _ => false
  | .nmWalk _ _ => false
  | .nmStat _ _ => false
  | .kvAlloc _ _ => false
  | .kvFree _ _ => false
  | .kvApp _ _ _ => false
  | .kvMap _ _ => false
  | .kvShare _ _ => false
  | .kvMove _ _ => false
  | .kvStatLen _ _ => false
  | .kvStatGen _ _ => false
  | .kvStatFree _ _ => false
  | .kvGen _ _ _ => false
  | .l2Lease _ _ _ => false
  | .l2Rel _ _ => false
  | .l2Renew _ _ _ => false
  | .l2Stat _ _ => false
  | .l2Dot _ _ => false
  | .l2WbL1 _ _ _ => false
  | .l2WbL2 _ _ _ => false
  | .l2InvL1 _ _ _ => false
  | .l2InvL2 _ _ _ => false
  | .l2PfL2 _ _ => false
  | .l2PfL1 _ _ => false
  | .fenceArmSig _ _ _ => false
  | .fenceArmTrig _ _ _ => false
  | .fenceArmWr _ _ _ => false
  | .ldC _ _ _ _ _ => false
  | .stC _ _ _ _ => false
  | .resultLanding => false
  | .loadDataArrival => false
  | .storeBufferDrain => false
  | .instructionFetchFill => false
  | .interlockResultReady => false
  | .pageWalk => false
  | .semWaitService => false
  | .semSignalApply => false
  | .gbArrivalApply => false
  | .timelineMarkAdvance => false
  | .copyStart => false
  | .copyComplete => false
  | .copyChunkResend => false
  | .followOnArrival => false
  | .followOnStart => false
  | .followOnComplete => false
  | .matrixDrainComplete => false
  | .nmTableStart => false
  | .matinsPassStart => false
  | .matinsTableStop => false
  | .leaseExpiry => false
  | .xinvComplete => false
  | .planSetupComplete => false
  | .planTriggerDelivery => false
  | .planPartStart => false
  | .planPartComplete => false
  | .mergeNodeCompute => false
  | .chunkHopVerify => false
  | .chunkResend => false
  | .flitReceive => false
  | .laneFailure => false
  | .unplannedRequestTimeout => false
  | .launchPacket => false
  | .barrierAndPacket => false
  | .barrierOrPacket => false
  | .barrierEvaluation => false
  | .copyPacket => false
  | .signalStorePacket => false
  | .signalAddPacket => false
  | .signalTriggerPacket => false
  | .tableLoadPacket => false
  | .packetCompletion => false
  | .gangPlacement => false
  | .taskEnd => false
  | .preemptBoundExpiry => false
  | .preemptSave => false
  | .gangResumption => false
  | .midnightExpiry => false
  | .xinvWrite => false
  | .xresResume => false
  | .xresAbort => false
  | .hsplitWrite => false
  | .kvctlEnable => false
  | .kvctlDisable => false
  | .kvlostWrite => false
  | .pltrigWrite => false
  | .ptcfgWrite => false
  | .contextEntryWrite => false
  | .ctxabWrite => false
  | .queueEnable => false
  | .queueDisable => false
  | .qwrWrite => false
  | .pmreqWrite => false
  | .pmresWrite => false
  | .mnstKick => false
  | .ecownWrite => false
  | .ecHostValueWrite => false
  | .counterWrap => false
  | .atctlGo => false
  | .mctpRequest => false
  | .hostBarAccess => false
  | .registerWrite => false
  | .powerControlUpdate => false
  | .correctedError => false
  | .uncorrectableError => false
  | .coreSpareTakeover => false
  | .dawnStartup => false
  | .routeRecovery => false
  | .kvOperationComplete => false
  | .powerLoss => false

end Sys2Proof
end

