-- ==== Sys2Proof/Decode.lean ====
section
/-!
DEFINITION. Sys2Proof/Decode.lean: the decoder of stream words (R57 to R77) and of bank command words (R78, R79),
total on every number, rejecting by the subcause of R59 or the load reason of R294; after it the encoder, written
from the same tables. A cell's function reads the fields of its format; `pick` applies the order of R59.
-/

namespace Sys2Proof

/-- The guard fields g and n (R61). -/
def guardOf (w : Nat) : Guard := ⟨fld w 25 22, fld w 21 21 = 1⟩

/-- The reserved guard bits of a C word of the cells 0x01 to 0x0B are not zero (R61, R71). -/
def noGuard (k : StreamId) (w : Nat) : Bool := decide (k = .c ∧ fld w 25 21 ≠ 0)

/-- The subcauses a selected word can still raise, taken in the order of R59: 0x02, 0x04, 0x03, 0x05, 0x08. -/
def pick (b2 b4 b3 b5 b8 : Bool) (i : Instr) : Except Subcause Instr :=
  if b2 then .error .c02 else if b4 then .error .c04 else if b3 then .error .c03
  else if b5 then .error .c05 else if b8 then .error .c08 else .ok i

/-- Cell 0x01 of the common map (R71). -/
def decodeX01 (k : StreamId) (w : Nat) : Except Subcause Instr :=
  match fld w 2 0 with
  | 0 => pick false (decide (badReg k (fld w 20 15) ∨ badReg k (fld w 14 9) ∨ badReg k (fld w 8 3))) (noGuard k w) false false (.add (guardOf w) (fld w 20 15) (fld w 14 9) (fld w 8 3))
  | 1 => pick false (decide (badReg k (fld w 20 15) ∨ badReg k (fld w 14 9) ∨ badReg k (fld w 8 3))) (noGuard k w) false false (.sub (guardOf w) (fld w 20 15) (fld w 14 9) (fld w 8 3))
  | 2 => pick false (decide (badReg k (fld w 20 15) ∨ badReg k (fld w 14 9) ∨ badReg k (fld w 8 3))) (noGuard k w) false false (.and (guardOf w) (fld w 20 15) (fld w 14 9) (fld w 8 3))
  | 3 => pick false (decide (badReg k (fld w 20 15) ∨ badReg k (fld w 14 9) ∨ badReg k (fld w 8 3))) (noGuard k w) false false (.or (guardOf w) (fld w 20 15) (fld w 14 9) (fld w 8 3))
  | 4 => pick false (decide (badReg k (fld w 20 15) ∨ badReg k (fld w 14 9) ∨ badReg k (fld w 8 3))) (noGuard k w) false false (.xor (guardOf w) (fld w 20 15) (fld w 14 9) (fld w 8 3))
  | 5 => pick false (decide (badReg k (fld w 20 15) ∨ badReg k (fld w 14 9) ∨ badReg k (fld w 8 3))) (noGuard k w) false false (.andn (guardOf w) (fld w 20 15) (fld w 14 9) (fld w 8 3))
  | 6 => pick false (decide (badReg k (fld w 20 15) ∨ badReg k (fld w 14 9) ∨ badReg k (fld w 8 3))) (noGuard k w) false false (.orn (guardOf w) (fld w 20 15) (fld w 14 9) (fld w 8 3))
  | 7 => pick false (decide (badReg k (fld w 20 15) ∨ badReg k (fld w 14 9) ∨ badReg k (fld w 8 3))) (noGuard k w) false false (.xnor (guardOf w) (fld w 20 15) (fld w 14 9) (fld w 8 3))
  | _ => .error .c02

/-- Cell 0x02 of the common map (R71). -/
def decodeX02 (k : StreamId) (w : Nat) : Except Subcause Instr :=
  match fld w 2 0 with
  | 0 => pick false (decide (badReg k (fld w 20 15) ∨ badReg k (fld w 14 9) ∨ badReg k (fld w 8 3))) (noGuard k w) false false (.sll (guardOf w) (fld w 20 15) (fld w 14 9) (fld w 8 3))
  | 1 => pick false (decide (badReg k (fld w 20 15) ∨ badReg k (fld w 14 9) ∨ badReg k (fld w 8 3))) (noGuard k w) false false (.srl (guardOf w) (fld w 20 15) (fld w 14 9) (fld w 8 3))
  | 2 => pick false (decide (badReg k (fld w 20 15) ∨ badReg k (fld w 14 9) ∨ badReg k (fld w 8 3))) (noGuard k w) false false (.sra (guardOf w) (fld w 20 15) (fld w 14 9) (fld w 8 3))
  | 3 => pick false (decide (badReg k (fld w 20 15) ∨ badReg k (fld w 14 9) ∨ badReg k (fld w 8 3))) (noGuard k w) false false (.ror (guardOf w) (fld w 20 15) (fld w 14 9) (fld w 8 3))
  | 4 => pick false (decide (badReg k (fld w 20 15) ∨ badReg k (fld w 14 9) ∨ badReg k (fld w 8 3))) (noGuard k w) false false (.min (guardOf w) (fld w 20 15) (fld w 14 9) (fld w 8 3))
  | 5 => pick false (decide (badReg k (fld w 20 15) ∨ badReg k (fld w 14 9) ∨ badReg k (fld w 8 3))) (noGuard k w) false false (.max (guardOf w) (fld w 20 15) (fld w 14 9) (fld w 8 3))
  | 6 => pick false (decide (badReg k (fld w 20 15) ∨ badReg k (fld w 14 9) ∨ badReg k (fld w 8 3))) (noGuard k w) false false (.minu (guardOf w) (fld w 20 15) (fld w 14 9) (fld w 8 3))
  | 7 => pick false (decide (badReg k (fld w 20 15) ∨ badReg k (fld w 14 9) ∨ badReg k (fld w 8 3))) (noGuard k w) false false (.maxu (guardOf w) (fld w 20 15) (fld w 14 9) (fld w 8 3))
  | _ => .error .c02

/-- Cell 0x03 of the common map (R71). -/
def decodeX03 (k : StreamId) (w : Nat) : Except Subcause Instr :=
  pick false (decide (badReg k (fld w 20 15) ∨ badReg k (fld w 14 9))) (noGuard k w) false false (.addi (guardOf w) (fld w 20 15) (fld w 14 9) (fld w 8 0))

/-- Cell 0x04 of the common map (R71). -/
def decodeX04 (k : StreamId) (w : Nat) : Except Subcause Instr :=
  pick false (decide (badReg k (fld w 20 15) ∨ badReg k (fld w 14 9))) (noGuard k w) false false (.andi (guardOf w) (fld w 20 15) (fld w 14 9) (fld w 8 0))

/-- Cell 0x05 of the common map (R71). -/
def decodeX05 (k : StreamId) (w : Nat) : Except Subcause Instr :=
  pick false (decide (badReg k (fld w 20 15) ∨ badReg k (fld w 14 9))) (noGuard k w) false false (.ori (guardOf w) (fld w 20 15) (fld w 14 9) (fld w 8 0))

/-- Cell 0x06 of the common map (R71). -/
def decodeX06 (k : StreamId) (w : Nat) : Except Subcause Instr :=
  pick false (decide (badReg k (fld w 20 15) ∨ badReg k (fld w 14 9))) (noGuard k w) false false (.xori (guardOf w) (fld w 20 15) (fld w 14 9) (fld w 8 0))

/-- Cell 0x07 of the common map (R71). -/
def decodeX07 (k : StreamId) (w : Nat) : Except Subcause Instr :=
  match fld w 8 7 with
  | 0 => pick false (decide (badReg k (fld w 20 15) ∨ badReg k (fld w 14 9))) (noGuard k w || (decide (fld w 6 6 ≠ 0))) false false (.slli (guardOf w) (fld w 20 15) (fld w 14 9) (fld w 5 0))
  | 1 => pick false (decide (badReg k (fld w 20 15) ∨ badReg k (fld w 14 9))) (noGuard k w || (decide (fld w 6 6 ≠ 0))) false false (.srli (guardOf w) (fld w 20 15) (fld w 14 9) (fld w 5 0))
  | 2 => pick false (decide (badReg k (fld w 20 15) ∨ badReg k (fld w 14 9))) (noGuard k w || (decide (fld w 6 6 ≠ 0))) false false (.srai (guardOf w) (fld w 20 15) (fld w 14 9) (fld w 5 0))
  | 3 => pick false (decide (badReg k (fld w 20 15) ∨ badReg k (fld w 14 9))) (noGuard k w || (decide (fld w 6 6 ≠ 0))) false false (.rori (guardOf w) (fld w 20 15) (fld w 14 9) (fld w 5 0))
  | _ => .error .c02

/-- Cell 0x08 of the common map (R71). -/
def decodeX08 (k : StreamId) (w : Nat) : Except Subcause Instr :=
  pick false (decide (badReg k (fld w 20 15))) (noGuard k w) false false (.li (guardOf w) (fld w 20 15) (fld w 14 0))

/-- Cell 0x09 of the common map (R71). -/
def decodeX09 (k : StreamId) (w : Nat) : Except Subcause Instr :=
  pick false (decide (badReg k (fld w 20 15))) (noGuard k w) false false (.lix (guardOf w) (fld w 20 15) (fld w 14 0))

/-- Cell 0x0A of the common map (R71). -/
def decodeX0A (k : StreamId) (w : Nat) : Except Subcause Instr :=
  pick (decide (8 ≤ (fld w 4 1))) (decide (badReg k (fld w 16 11) ∨ badReg k (fld w 10 5))) (noGuard k w || (decide (fld w 0 0 ≠ 0))) (decide ((fld w 20 17) = 0)) false (.cmp (guardOf w) (fld w 20 17) (fld w 16 11) (fld w 10 5) (fld w 4 1))

/-- Cell 0x0B of the common map (R71). -/
def decodeX0B (k : StreamId) (w : Nat) : Except Subcause Instr :=
  pick (decide (8 ≤ (fld w 10 7))) (decide (badReg k (fld w 16 11))) (noGuard k w) (decide ((fld w 20 17) = 0)) false (.cmpi (guardOf w) (fld w 20 17) (fld w 16 11) (fld w 10 7) (fld w 6 0))

/-- Cell 0x0C of the common map (R71). -/
def decodeX0C (_k : StreamId) (w : Nat) : Except Subcause Instr :=
  match fld w 8 6 with
  | 0 => pick false false (decide (fld w 5 0 ≠ 0)) (decide ((fld w 20 17) = 0)) false (.pand (guardOf w) (fld w 20 17) (fld w 16 13) (fld w 12 9))
  | 1 => pick false false (decide (fld w 5 0 ≠ 0)) (decide ((fld w 20 17) = 0)) false (.por (guardOf w) (fld w 20 17) (fld w 16 13) (fld w 12 9))
  | 2 => pick false false (decide (fld w 5 0 ≠ 0)) (decide ((fld w 20 17) = 0)) false (.pxor (guardOf w) (fld w 20 17) (fld w 16 13) (fld w 12 9))
  | 3 => pick false false (decide (fld w 5 0 ≠ 0)) (decide ((fld w 20 17) = 0)) false (.pandn (guardOf w) (fld w 20 17) (fld w 16 13) (fld w 12 9))
  | 4 => pick false false (decide (fld w 12 9 ≠ 0 ∨ fld w 5 0 ≠ 0)) (decide ((fld w 20 17) = 0)) false (.pnot (guardOf w) (fld w 20 17) (fld w 16 13))
  | 5 => pick false false (decide (fld w 12 9 ≠ 0 ∨ fld w 5 0 ≠ 0)) (decide ((fld w 20 17) = 0)) false (.pmov (guardOf w) (fld w 20 17) (fld w 16 13))
  | 6 => pick false false (decide (fld w 16 9 ≠ 0 ∨ fld w 5 0 ≠ 0)) (decide ((fld w 20 17) = 0)) false (.pset (guardOf w) (fld w 20 17))
  | 7 => pick false false (decide (fld w 16 9 ≠ 0 ∨ fld w 5 0 ≠ 0)) (decide ((fld w 20 17) = 0)) false (.pclr (guardOf w) (fld w 20 17))
  | _ => .error .c02

/-- Cell 0x0D of the common map (R71). -/
def decodeX0D (_k : StreamId) (w : Nat) : Except Subcause Instr :=
  pick false false false false false (.brp (guardOf w) (fld w 20 18) (fld w 17 0))

/-- Cell 0x0E of the common map (R71). -/
def decodeX0E (k : StreamId) (w : Nat) : Except Subcause Instr :=
  pick false (decide (badReg k (fld w 17 12))) (decide (fld w 11 0 ≠ 0)) false false (.brpx (guardOf w) (fld w 20 18) (fld w 17 12))

/-- Cell 0x0F of the common map (R71). DESIGN CHOICE (log 34): with lk = 0 the destination field is reserved in every stream, so any value
in it is subcause 0x03. -/
def decodeX0F (k : StreamId) (w : Nat) : Except Subcause Instr :=
  match fld w 17 17 with
  | 0 => pick false false (decide (fld w 16 0 ≠ 0)) false false (.br (guardOf w) (fld w 20 18))
  | 1 => if k = .s then pick false false (decide (fld w 10 0 ≠ 0)) false false (.brL (guardOf w) (fld w 20 18) (fld w 16 11)) else .error .c02
  | _ => .error .c02

/-- Cell 0x10 of the common map (R71). -/
def decodeX10 (k : StreamId) (w : Nat) : Except Subcause Instr :=
  pick false (decide (badReg k (fld w 19 14))) false false (decide ((fld w 13 0) = 0)) (.loop (guardOf w) (fld w 20 20) (fld w 19 14) (fld w 13 0))

/-- Cell 0x11 of the common map (R71). -/
def decodeX11 (_k : StreamId) (w : Nat) : Except Subcause Instr :=
  pick false false false false (decide ((fld w 9 0) = 0)) (.loopi (guardOf w) (fld w 20 20) (fld w 19 10) (fld w 9 0))

/-- Cell 0x12 of the common map (R71). -/
def decodeX12 (k : StreamId) (w : Nat) : Except Subcause Instr :=
  pick (decide (¬ csrAssigned k (fld w 8 0))) (decide (badReg k (fld w 20 15))) (decide (fld w 14 9 ≠ 0)) false false (.csrr (guardOf w) (fld w 20 15) (fld w 8 0))

/-- Cell 0x13 of the common map (R71). -/
def decodeX13 (k : StreamId) (w : Nat) : Except Subcause Instr :=
  pick (decide (¬ csrAssigned k (fld w 8 0))) (decide (badReg k (fld w 14 9))) (decide (fld w 20 15 ≠ 0)) false false (.csrw (guardOf w) (fld w 14 9) (fld w 8 0))

/-- Cell 0x3C of the common map (R71). -/
def decodeX3C (k : StreamId) (w : Nat) : Except Subcause Instr :=
  match fld w 20 16 with
  | 0 => pick false false false false (decide ((fld w 9 0) = 0)) (.semWait (guardOf w) (fld w 15 10) (fld w 9 0))
  | 1 => pick false false false false (decide ((fld w 9 0) = 0)) (.semSig (guardOf w) (fld w 15 10) (fld w 9 0))
  | 2 => pick false false (decide (fld w 9 4 ≠ 0)) (decide ((fld w 3 0) = 0)) false (.semTry (guardOf w) (fld w 15 10) (fld w 3 0))
  | 3 => if k = .m then .error .c02 else pick false (decide (badReg k (fld w 5 0))) (decide (fld w 9 6 ≠ 0)) false false (.semRd (guardOf w) (fld w 15 10) (fld w 5 0))
  | 4 => pick false false (decide (fld w 9 0 ≠ 0 ∨ 16 ≤ (fld w 15 10))) false false (.gbArr (guardOf w) (fld w 15 10))
  | 5 => pick false false (decide (fld w 9 0 ≠ 0 ∨ 16 ≤ (fld w 15 10))) false false (.gbWait (guardOf w) (fld w 15 10))
  | 6 => pick false false (decide (fld w 9 0 ≠ 0 ∨ 16 ≤ (fld w 15 10))) false false (.gbSync (guardOf w) (fld w 15 10))
  | 7 => if k = .m then .error .c02 else pick false (decide (badReg k (fld w 5 0))) (decide (16 ≤ (fld w 15 10) ∨ 10 ≤ (fld w 9 6))) false false (.fenceTlw (guardOf w) (fld w 15 10) (fld w 9 6) (fld w 5 0))
  | _ => .error .c02

/-- Cell 0x14 of the S stream map (R73). -/
def decodeS14 (w : Nat) : Except Subcause Instr :=
  match fld w 2 0 with
  | 0 => pick false false false false false (.mul (guardOf w) (fld w 20 15) (fld w 14 9) (fld w 8 3))
  | 1 => pick false false false false false (.mulh (guardOf w) (fld w 20 15) (fld w 14 9) (fld w 8 3))
  | 2 => pick false false false false false (.mulhu (guardOf w) (fld w 20 15) (fld w 14 9) (fld w 8 3))
  | 3 => pick false false false false false (.mulhsu (guardOf w) (fld w 20 15) (fld w 14 9) (fld w 8 3))
  | 4 => pick false false false false false (.div (guardOf w) (fld w 20 15) (fld w 14 9) (fld w 8 3))
  | 5 => pick false false false false false (.divu (guardOf w) (fld w 20 15) (fld w 14 9) (fld w 8 3))
  | 6 => pick false false false false false (.rem (guardOf w) (fld w 20 15) (fld w 14 9) (fld w 8 3))
  | 7 => pick false false false false false (.remu (guardOf w) (fld w 20 15) (fld w 14 9) (fld w 8 3))
  | _ => .error .c02

/-- Cell 0x15 of the S stream map (R73). -/
def decodeS15 (w : Nat) : Except Subcause Instr :=
  match fld w 2 0 with
  | 0 => pick false false false false false (.addw (guardOf w) (fld w 20 15) (fld w 14 9) (fld w 8 3))
  | 1 => pick false false false false false (.subw (guardOf w) (fld w 20 15) (fld w 14 9) (fld w 8 3))
  | 2 => pick false false false false false (.mulw (guardOf w) (fld w 20 15) (fld w 14 9) (fld w 8 3))
  | 3 => pick false false false false false (.sllw (guardOf w) (fld w 20 15) (fld w 14 9) (fld w 8 3))
  | 4 => pick false false false false false (.srlw (guardOf w) (fld w 20 15) (fld w 14 9) (fld w 8 3))
  | 5 => pick false false false false false (.sraw (guardOf w) (fld w 20 15) (fld w 14 9) (fld w 8 3))
  | 6 => pick false false false false false (.divw (guardOf w) (fld w 20 15) (fld w 14 9) (fld w 8 3))
  | 7 => pick false false false false false (.remw (guardOf w) (fld w 20 15) (fld w 14 9) (fld w 8 3))
  | _ => .error .c02

/-- Cell 0x16 of the S stream map (R73). -/
def decodeS16 (w : Nat) : Except Subcause Instr :=
  match fld w 2 0 with
  | 0 => pick false false (decide (fld w 8 3 ≠ 0)) false false (.clz (guardOf w) (fld w 20 15) (fld w 14 9))
  | 1 => pick false false (decide (fld w 8 3 ≠ 0)) false false (.ctz (guardOf w) (fld w 20 15) (fld w 14 9))
  | 2 => pick false false (decide (fld w 8 3 ≠ 0)) false false (.popc (guardOf w) (fld w 20 15) (fld w 14 9))
  | 3 => pick false false (decide (fld w 8 3 ≠ 0)) false false (.brev (guardOf w) (fld w 20 15) (fld w 14 9))
  | 4 => pick false false (decide (fld w 8 3 ≠ 0)) false false (.sextb (guardOf w) (fld w 20 15) (fld w 14 9))
  | 5 => pick false false (decide (fld w 8 3 ≠ 0)) false false (.sexth (guardOf w) (fld w 20 15) (fld w 14 9))
  | 6 => pick false false (decide (fld w 8 3 ≠ 0)) false false (.sextw (guardOf w) (fld w 20 15) (fld w 14 9))
  | 7 => pick false false (decide (fld w 8 3 ≠ 0)) false false (.zextw (guardOf w) (fld w 20 15) (fld w 14 9))
  | _ => .error .c02

/-- Cell 0x17 of the S stream map (R73). -/
def decodeS17 (w : Nat) : Except Subcause Instr :=
  match fld w 2 0 with
  | 0 => pick false false false false false (.sel (guardOf w) (fld w 20 15) (fld w 14 9) (fld w 8 3))
  | _ => .error .c02

/-- Cell 0x18 of the S stream map (R73). -/
def decodeS18 (w : Nat) : Except Subcause Instr :=
  pick false false (decide ((fld w 8 7) = 3 ∧ (fld w 6 6) = 1)) false false (.ld (guardOf w) (fld w 20 15) (fld w 14 9) (fld w 8 7) (fld w 6 6) (fld w 5 0))

/-- Cell 0x19 of the S stream map (R73). -/
def decodeS19 (w : Nat) : Except Subcause Instr :=
  pick false false (decide (fld w 6 6 ≠ 0)) false false (.st (guardOf w) (fld w 20 15) (fld w 14 9) (fld w 8 7) (fld w 5 0))

/-- Cell 0x1A of the S stream map (R73). -/
def decodeS1A (w : Nat) : Except Subcause Instr :=
  pick false false (decide ((fld w 8 7) = 3 ∧ (fld w 6 6) = 1)) false false (.ldsp (guardOf w) (fld w 20 15) (fld w 14 9) (fld w 8 7) (fld w 6 6) (fld w 5 0))

/-- Cell 0x1B of the S stream map (R73). -/
def decodeS1B (w : Nat) : Except Subcause Instr :=
  pick false false (decide (fld w 6 6 ≠ 0)) false false (.stsp (guardOf w) (fld w 20 15) (fld w 14 9) (fld w 8 7) (fld w 5 0))

/-- Cell 0x1C of the S stream map (R73). -/
def decodeS1C (w : Nat) : Except Subcause Instr :=
  match fld w 8 8 with
  | 0 => pick false false (decide (fld w 5 4 ≠ 0 ∨ 10 ≤ (fld w 3 0))) false false (.ldAcq (guardOf w) (fld w 20 15) (fld w 14 9) (fld w 7 6) (fld w 3 0))
  | _ => .error .c02

/-- Cell 0x1D of the S stream map (R73). -/
def decodeS1D (w : Nat) : Except Subcause Instr :=
  match fld w 8 8 with
  | 0 => pick false false (decide (fld w 5 4 ≠ 0 ∨ 10 ≤ (fld w 3 0))) false false (.stRel (guardOf w) (fld w 20 15) (fld w 14 9) (fld w 7 6) (fld w 3 0))
  | _ => .error .c02

/-- Cell 0x1E of the S stream map (R73). -/
def decodeS1E (w : Nat) : Except Subcause Instr :=
  match fld w 8 6 with
  | 0 => pick false false (decide (10 ≤ (fld w 3 0))) false false (.amAddW (guardOf w) (fld w 20 15) (fld w 14 9) (fld w 5 4) (fld w 3 0))
  | 1 => pick false false (decide (10 ≤ (fld w 3 0))) false false (.amSwapW (guardOf w) (fld w 20 15) (fld w 14 9) (fld w 5 4) (fld w 3 0))
  | 2 => pick false false (decide (10 ≤ (fld w 3 0) ∨ (fld w 20 15) % 2 = 1)) false false (.amCasW (guardOf w) (fld w 20 15) (fld w 14 9) (fld w 5 4) (fld w 3 0))
  | 3 => pick false false (decide (10 ≤ (fld w 3 0))) false false (.amAndW (guardOf w) (fld w 20 15) (fld w 14 9) (fld w 5 4) (fld w 3 0))
  | 4 => pick false false (decide (10 ≤ (fld w 3 0))) false false (.amOrW (guardOf w) (fld w 20 15) (fld w 14 9) (fld w 5 4) (fld w 3 0))
  | 5 => pick false false (decide (10 ≤ (fld w 3 0))) false false (.amXorW (guardOf w) (fld w 20 15) (fld w 14 9) (fld w 5 4) (fld w 3 0))
  | 6 => pick false false (decide (10 ≤ (fld w 3 0))) false false (.amMaxW (guardOf w) (fld w 20 15) (fld w 14 9) (fld w 5 4) (fld w 3 0))
  | 7 => pick false false (decide (10 ≤ (fld w 3 0))) false false (.amMinW (guardOf w) (fld w 20 15) (fld w 14 9) (fld w 5 4) (fld w 3 0))
  | _ => .error .c02

/-- Cell 0x1F of the S stream map (R73). -/
def decodeS1F (w : Nat) : Except Subcause Instr :=
  match fld w 8 6 with
  | 0 => pick false false (decide (10 ≤ (fld w 3 0))) false false (.amAddD (guardOf w) (fld w 20 15) (fld w 14 9) (fld w 5 4) (fld w 3 0))
  | 1 => pick false false (decide (10 ≤ (fld w 3 0))) false false (.amSwapD (guardOf w) (fld w 20 15) (fld w 14 9) (fld w 5 4) (fld w 3 0))
  | 2 => pick false false (decide (10 ≤ (fld w 3 0) ∨ (fld w 20 15) % 2 = 1)) false false (.amCasD (guardOf w) (fld w 20 15) (fld w 14 9) (fld w 5 4) (fld w 3 0))
  | 3 => pick false false (decide (10 ≤ (fld w 3 0))) false false (.amAndD (guardOf w) (fld w 20 15) (fld w 14 9) (fld w 5 4) (fld w 3 0))
  | 4 => pick false false (decide (10 ≤ (fld w 3 0))) false false (.amOrD (guardOf w) (fld w 20 15) (fld w 14 9) (fld w 5 4) (fld w 3 0))
  | 5 => pick false false (decide (10 ≤ (fld w 3 0))) false false (.amXorD (guardOf w) (fld w 20 15) (fld w 14 9) (fld w 5 4) (fld w 3 0))
  | 6 => pick false false (decide (10 ≤ (fld w 3 0))) false false (.amMaxD (guardOf w) (fld w 20 15) (fld w 14 9) (fld w 5 4) (fld w 3 0))
  | 7 => pick false false (decide (10 ≤ (fld w 3 0))) false false (.amMinD (guardOf w) (fld w 20 15) (fld w 14 9) (fld w 5 4) (fld w 3 0))
  | _ => .error .c02

/-- Cell 0x20 of the S stream map (R73). -/
def decodeS20 (w : Nat) : Except Subcause Instr :=
  match fld w 8 8 with
  | 1 => pick false false false false false (.scLd (guardOf w) (fld w 20 15) (fld w 14 9) (fld w 7 7) (fld w 6 6) (fld w 5 0))
  | _ => .error .c02

/-- Cell 0x21 of the S stream map (R73). -/
def decodeS21 (w : Nat) : Except Subcause Instr :=
  match fld w 8 8 with
  | 1 => pick false false false false false (.scSt (guardOf w) (fld w 20 15) (fld w 14 9) (fld w 7 7) (fld w 6 6) (fld w 5 0))
  | _ => .error .c02

/-- Cell 0x22 of the S stream map (R73). -/
def decodeS22 (w : Nat) : Except Subcause Instr :=
  match fld w 5 4 with
  | 0 => pick false false (decide (fld w 20 6 ≠ 0 ∨ 10 ≤ (fld w 3 0))) false false (.fenceAcq (guardOf w) (fld w 3 0))
  | 1 => pick false false (decide (fld w 20 6 ≠ 0 ∨ 10 ≤ (fld w 3 0))) false false (.fenceRel (guardOf w) (fld w 3 0))
  | 2 => pick false false (decide (fld w 20 6 ≠ 0 ∨ 10 ≤ (fld w 3 0))) false false (.fenceAr (guardOf w) (fld w 3 0))
  | _ => .error .c02

/-- Cell 0x23 of the S stream map (R73). -/
def decodeS23 (w : Nat) : Except Subcause Instr :=
  match fld w 2 0 with
  | 0 => pick false false (decide (fld w 8 3 ≠ 0)) false false (.ecRd (guardOf w) (fld w 20 15) (fld w 14 9))
  | 1 => pick false false (decide (fld w 20 15 ≠ 0)) false false (.ecCfg (guardOf w) (fld w 14 9) (fld w 8 3))
  | 2 => pick false false (decide (fld w 20 15 ≠ 0 ∨ fld w 8 3 ≠ 0)) false false (.ecOn (guardOf w) (fld w 14 9))
  | 3 => pick false false (decide (fld w 20 15 ≠ 0 ∨ fld w 8 3 ≠ 0)) false false (.ecOff (guardOf w) (fld w 14 9))
  | _ => .error .c02

/-- Cell 0x24 of the S stream map (R73). -/
def decodeS24 (w : Nat) : Except Subcause Instr :=
  match fld w 2 0 with
  | 0 => pick false false (decide (fld w 20 3 ≠ 0)) false false (.sysEnd (guardOf w))
  | 1 => pick false false (decide (fld w 20 3 ≠ 0)) false false (.yield (guardOf w))
  | 2 => pick false false (decide (fld w 8 3 ≠ 0)) false false (.sysArg (guardOf w) (fld w 20 15) (fld w 14 9))
  | 3 => pick false false (decide (fld w 20 15 ≠ 0 ∨ fld w 8 3 ≠ 0)) false false (.sysAbort (guardOf w) (fld w 14 9))
  | _ => .error .c02

/-- Cell 0x25 of the S stream map (R73). -/
def decodeS25 (w : Nat) : Except Subcause Instr :=
  pick false false (decide (fld w 20 15 ≠ 0)) false false (.trap (guardOf w) (fld w 14 0))

/-- Cell 0x26 of the S stream map (R73). -/
def decodeS26 (w : Nat) : Except Subcause Instr :=
  pick false false (decide (fld w 20 15 ≠ 0)) false false (.vesper (guardOf w) (fld w 14 0))

/-- Cell 0x14 of the V stream map (R74). -/
def decodeV14 (w : Nat) : Except Subcause Instr :=
  match fld w 5 0 with
  | 0 => pick false false false false false (.vadd (guardOf w) (fld w 20 16) (fld w 15 11) (fld w 10 6))
  | 1 => pick false false false false false (.vsub (guardOf w) (fld w 20 16) (fld w 15 11) (fld w 10 6))
  | 2 => pick false false false false false (.vmul (guardOf w) (fld w 20 16) (fld w 15 11) (fld w 10 6))
  | 3 => pick false false false false false (.vdiv (guardOf w) (fld w 20 16) (fld w 15 11) (fld w 10 6))
  | 4 => pick false false false false false (.vmin (guardOf w) (fld w 20 16) (fld w 15 11) (fld w 10 6))
  | 5 => pick false false false false false (.vmax (guardOf w) (fld w 20 16) (fld w 15 11) (fld w 10 6))
  | 6 => pick false false false false false (.vminp (guardOf w) (fld w 20 16) (fld w 15 11) (fld w 10 6))
  | 7 => pick false false false false false (.vmaxp (guardOf w) (fld w 20 16) (fld w 15 11) (fld w 10 6))
  | _ => .error .c02

/-- Cell 0x15 of the V stream map (R74). -/
def decodeV15 (w : Nat) : Except Subcause Instr :=
  match fld w 5 0 with
  | 0 => pick false false false false false (.viadd (guardOf w) (fld w 20 16) (fld w 15 11) (fld w 10 6) (fld w 5 5))
  | 1 => pick false false false false false (.visub (guardOf w) (fld w 20 16) (fld w 15 11) (fld w 10 6) (fld w 5 5))
  | 2 => pick false false false false false (.vimul (guardOf w) (fld w 20 16) (fld w 15 11) (fld w 10 6) (fld w 5 5))
  | 3 => pick false false false false false (.viand (guardOf w) (fld w 20 16) (fld w 15 11) (fld w 10 6))
  | 4 => pick false false false false false (.vior (guardOf w) (fld w 20 16) (fld w 15 11) (fld w 10 6))
  | 5 => pick false false false false false (.vixor (guardOf w) (fld w 20 16) (fld w 15 11) (fld w 10 6))
  | 6 => pick false false false false false (.vishl (guardOf w) (fld w 20 16) (fld w 15 11) (fld w 10 6))
  | 7 => pick false false false false false (.vishr (guardOf w) (fld w 20 16) (fld w 15 11) (fld w 10 6))
  | 8 => pick false false false false false (.visra (guardOf w) (fld w 20 16) (fld w 15 11) (fld w 10 6))
  | 9 => pick false false false false false (.vimin (guardOf w) (fld w 20 16) (fld w 15 11) (fld w 10 6))
  | 10 => pick false false false false false (.vimax (guardOf w) (fld w 20 16) (fld w 15 11) (fld w 10 6))
  | 32 => pick false false false false false (.viadd (guardOf w) (fld w 20 16) (fld w 15 11) (fld w 10 6) (fld w 5 5))
  | 33 => pick false false false false false (.visub (guardOf w) (fld w 20 16) (fld w 15 11) (fld w 10 6) (fld w 5 5))
  | 34 => pick false false false false false (.vimul (guardOf w) (fld w 20 16) (fld w 15 11) (fld w 10 6) (fld w 5 5))
  | _ => .error .c02

/-- Cell 0x16 of the V stream map (R74). -/
def decodeV16 (w : Nat) : Except Subcause Instr :=
  match fld w 0 0 with
  | 0 => pick false false false false false (.vfma (guardOf w) (fld w 20 16) (fld w 15 11) (fld w 10 6) (fld w 5 1))
  | 1 => pick false false false false false (.vfms (guardOf w) (fld w 20 16) (fld w 15 11) (fld w 10 6) (fld w 5 1))
  | _ => .error .c02

/-- Cell 0x17 of the V stream map (R74). -/
def decodeV17 (w : Nat) : Except Subcause Instr :=
  match fld w 5 0 with
  | 0 => pick false false (decide (fld w 10 6 ≠ 0)) false false (.vmov (guardOf w) (fld w 20 16) (fld w 15 11))
  | 2 => pick false false (decide (fld w 10 6 ≠ 0)) false false (.vneg (guardOf w) (fld w 20 16) (fld w 15 11))
  | 4 => pick false false (decide (fld w 10 6 ≠ 0)) false false (.vabs (guardOf w) (fld w 20 16) (fld w 15 11))
  | 6 => pick false false (decide (fld w 10 6 ≠ 0)) false false (.vexp2 (guardOf w) (fld w 20 16) (fld w 15 11))
  | 8 => pick false false (decide (fld w 10 6 ≠ 0)) false false (.vlog2 (guardOf w) (fld w 20 16) (fld w 15 11))
  | 10 => pick false false (decide (fld w 10 6 ≠ 0)) false false (.vrcp (guardOf w) (fld w 20 16) (fld w 15 11))
  | 12 => pick false false (decide (fld w 10 6 ≠ 0)) false false (.vrsqrt (guardOf w) (fld w 20 16) (fld w 15 11))
  | 14 => pick false false (decide (fld w 10 6 ≠ 0)) false false (.vsqrt (guardOf w) (fld w 20 16) (fld w 15 11))
  | 16 => pick false false (decide (fld w 10 6 ≠ 0)) false false (.vcvt (guardOf w) (fld w 20 16) (fld w 15 11) (fld w 0 0))
  | 17 => pick false false (decide (fld w 10 6 ≠ 0)) false false (.vcvt (guardOf w) (fld w 20 16) (fld w 15 11) (fld w 0 0))
  | _ => .error .c02

/-- Cell 0x18 of the V stream map (R74). -/
def decodeV18 (w : Nat) : Except Subcause Instr :=
  match fld w 5 0 with
  | 0 => pick false false false false false (.vqlg6 (guardOf w) (fld w 20 16) (fld w 15 11) (fld w 10 6))
  | 1 => pick false false false false false (.vqint8 (guardOf w) (fld w 20 16) (fld w 15 11) (fld w 10 6))
  | 2 => pick false false (decide (fld w 10 6 ≠ 0)) false false (.vdq (guardOf w) (fld w 20 16) (fld w 15 11))
  | 3 => pick false false false false false (.vscl (guardOf w) (fld w 20 16) (fld w 15 11) (fld w 10 6))
  | _ => .error .c02

/-- Cell 0x19 of the V stream map (R74). -/
def decodeV19 (w : Nat) : Except Subcause Instr :=
  match fld w 5 0 with
  | 0 => pick false false false false false (.vperm (guardOf w) (fld w 20 16) (fld w 15 11) (fld w 10 6))
  | 1 => pick false false (decide (fld w 10 6 ≠ 0)) false false (.vunpk4 (guardOf w) (fld w 20 16) (fld w 15 11))
  | 2 => pick false false (decide (fld w 10 6 ≠ 0)) false false (.vtr8 (guardOf w) (fld w 20 16) (fld w 15 11))
  | _ => .error .c02

/-- Cell 0x1A of the V stream map (R74). -/
def decodeV1A (w : Nat) : Except Subcause Instr :=
  match fld w 5 0 with
  | 0 => pick false false (decide (fld w 10 6 ≠ 0)) false false (.vrsum (guardOf w) (fld w 20 16) (fld w 15 11))
  | 1 => pick false false (decide (fld w 10 6 ≠ 0)) false false (.vrmax (guardOf w) (fld w 20 16) (fld w 15 11))
  | 2 => pick false false (decide (fld w 10 6 ≠ 0)) false false (.vrmin (guardOf w) (fld w 20 16) (fld w 15 11))
  | 3 => pick false false (decide (fld w 10 6 ≠ 0)) false false (.vrmaxp (guardOf w) (fld w 20 16) (fld w 15 11))
  | 4 => pick false false (decide (fld w 10 6 ≠ 0)) false false (.vrminp (guardOf w) (fld w 20 16) (fld w 15 11))
  | 5 => pick false false (decide (fld w 10 6 ≠ 0)) false false (.virsum (guardOf w) (fld w 20 16) (fld w 15 11))
  | _ => .error .c02

/-- Cell 0x1B of the V stream map (R74). -/
def decodeV1B (w : Nat) : Except Subcause Instr :=
  match fld w 5 0 with
  | 0 => pick false false (decide (fld w 20 20 ≠ 0 ∨ fld w 10 6 ≠ 0)) (decide ((fld w 19 16) = 0)) false (.vany (guardOf w) (fld w 19 16) (fld w 15 11))
  | 1 => pick false false (decide (fld w 20 20 ≠ 0 ∨ fld w 10 6 ≠ 0)) (decide ((fld w 19 16) = 0)) false (.vall (guardOf w) (fld w 19 16) (fld w 15 11))
  | _ => .error .c02

/-- Cell 0x1C of the V stream map (R74). -/
def decodeV1C (w : Nat) : Except Subcause Instr :=
  match fld w 5 0 with
  | 0 => pick false false false false false (.vmrg (guardOf w) (fld w 20 16) (fld w 15 11) (fld w 10 6))
  | 1 => pick false false (decide (fld w 10 6 ≠ 0)) false false (.vck (guardOf w) (fld w 20 16) (fld w 15 11))
  | _ => .error .c02

/-- Cell 0x1D of the V stream map (R74). -/
def decodeV1D (w : Nat) : Except Subcause Instr :=
  match fld w 5 0 with
  | 0 => pick false false false false false (.vcmpEq (guardOf w) (fld w 20 16) (fld w 15 11) (fld w 10 6))
  | 1 => pick false false false false false (.vcmpNe (guardOf w) (fld w 20 16) (fld w 15 11) (fld w 10 6))
  | 2 => pick false false false false false (.vcmpLt (guardOf w) (fld w 20 16) (fld w 15 11) (fld w 10 6))
  | 3 => pick false false false false false (.vcmpLe (guardOf w) (fld w 20 16) (fld w 15 11) (fld w 10 6))
  | 4 => pick false false false false false (.vcmpUn (guardOf w) (fld w 20 16) (fld w 15 11) (fld w 10 6))
  | _ => .error .c02

/-- Cell 0x1E of the V stream map (R74). -/
def decodeV1E (w : Nat) : Except Subcause Instr :=
  match fld w 7 0 with
  | 0 => pick false false false false false (.vsetq (guardOf w) (fld w 20 16) (fld w 15 12) (fld w 11 8))
  | 1 => pick false false false false false (.vgetq (guardOf w) (fld w 20 16) (fld w 15 12) (fld w 11 8))
  | 2 => pick false false false false false (.vadvq (guardOf w) (fld w 20 16) (fld w 15 12) (fld w 11 8))
  | 3 => pick false false (decide (fld w 11 8 ≠ 0)) false false (.vcntq (guardOf w) (fld w 20 16) (fld w 15 12))
  | _ => .error .c02

/-- Cell 0x1F of the V stream map (R74). -/
def decodeV1F (w : Nat) : Except Subcause Instr :=
  match fld w 3 0 with
  | 0 => pick (decide ((fld w 5 4) = 3)) false (decide (fld w 11 6 ≠ 0)) false false (.vld (guardOf w) (fld w 20 16) (fld w 15 12) (fld w 5 4))
  | 1 => pick (decide ((fld w 5 4) = 3)) false (decide (fld w 11 6 ≠ 0)) false false (.vst (guardOf w) (fld w 20 16) (fld w 15 12) (fld w 5 4))
  | _ => .error .c02

/-- Cell 0x20 of the V stream map (R74). -/
def decodeV20 (w : Nat) : Except Subcause Instr :=
  pick false false (decide (fld w 15 14 ≠ 0)) false (decide ((fld w 13 0) = 0)) (.vloop (guardOf w) (fld w 20 20) (fld w 19 16) (fld w 13 0))

/-- Cell 0x21 of the V stream map (R74). -/
def decodeV21 (w : Nat) : Except Subcause Instr :=
  pick false false (decide (fld w 20 16 ≠ 0 ∨ ¬ vstgLegal (fld w 15 0))) false false (.vstg (guardOf w) (fld w 15 0))

/-- Cell 0x22 of the V stream map (R74). -/
def decodeV22 (w : Nat) : Except Subcause Instr :=
  match fld w 0 0 with
  | 0 => pick false false false false false (.vsel (guardOf w) (fld w 20 16) (fld w 15 11) (fld w 10 6) (fld w 5 1))
  | _ => .error .c02

/-- Cell 0x14 of the M stream map (R75, R204). -/
def decodeM14 (w : Nat) : Except Subcause Instr :=
  pick false false (decide (fld w 25 21 ≠ 0 ∨ fld w 9 0 ≠ 0)) false false (.mmMac (fld w 20 18) (fld w 17 15) (fld w 14 12) (fld w 11 10))

/-- Cell 0x15 of the M stream map (R75, R204). -/
def decodeM15 (w : Nat) : Except Subcause Instr :=
  pick false false (decide (fld w 25 21 ≠ 0 ∨ fld w 9 0 ≠ 0)) false false (.mmMul (fld w 20 18) (fld w 17 15) (fld w 14 12) (fld w 11 10))

/-- Cell 0x16 of the M stream map (R75, R204). -/
def decodeM16 (w : Nat) : Except Subcause Instr :=
  pick false false (decide (fld w 25 21 ≠ 0 ∨ fld w 17 0 ≠ 0)) false false (.mmZero (fld w 20 18))

/-- Cell 0x17 of the M stream map (R75, R204). -/
def decodeM17 (w : Nat) : Except Subcause Instr :=
  pick false false (decide (fld w 25 21 ≠ 0 ∨ fld w 9 0 ≠ 0 ∨ 12 ≤ (fld w 14 11))) false false (.mmDrain (fld w 20 18) (fld w 17 15) (fld w 14 11) (fld w 10 10))

/-- Cell 0x18 of the M stream map (R75, R204). -/
def decodeM18 (w : Nat) : Except Subcause Instr :=
  pick false false (decide (fld w 25 21 ≠ 0 ∨ fld w 17 15 ≠ 0)) false false (.mmSetd (fld w 20 18) (fld w 14 0))

/-- Cell 0x19 of the M stream map (R75, R204). -/
def decodeM19 (w : Nat) : Except Subcause Instr :=
  pick false false (decide (fld w 25 21 ≠ 0 ∨ fld w 17 15 ≠ 0)) false false (.mmGetd (fld w 20 18) (fld w 14 0))

/-- Cell 0x1A of the M stream map (R75, R204). -/
def decodeM1A (w : Nat) : Except Subcause Instr :=
  pick false false (decide (fld w 25 18 ≠ 0 ∨ fld w 14 0 ≠ 0)) false false (.mmAdv (fld w 17 15))

/-- Cell 0x1B of the M stream map (R75, R204). -/
def decodeM1B (w : Nat) : Except Subcause Instr :=
  pick false false (decide (fld w 25 21 ≠ 0 ∨ fld w 14 0 ≠ 0)) false false (.mmLdacc (fld w 20 18) (fld w 17 15))

/-- Cell 0x1C of the M stream map (R75, R204). -/
def decodeM1C (w : Nat) : Except Subcause Instr :=
  pick false false (decide (fld w 25 21 ≠ 0 ∨ fld w 14 0 ≠ 0)) false false (.mmMov (fld w 20 18) (fld w 17 15))

/-- Cell 0x14 of the C stream map (R76). -/
def decodeC14 (w : Nat) : Except Subcause Instr :=
  match fld w 5 0 with
  | 0 => pick false false (decide (fld w 25 21 ≠ 0 ∨ fld w 10 6 ≠ 0)) false false (.cp1d (fld w 20 19) (fld w 18 15) (fld w 14 11))
  | 1 => pick false false (decide (fld w 25 21 ≠ 0 ∨ fld w 10 6 ≠ 0)) false false (.cp2d (fld w 20 19) (fld w 18 15) (fld w 14 11))
  | 2 => pick false false (decide (fld w 25 21 ≠ 0 ∨ fld w 10 6 ≠ 0)) false false (.cp3d (fld w 20 19) (fld w 18 15) (fld w 14 11))
  | 3 => pick false false (decide (fld w 25 21 ≠ 0 ∨ fld w 10 6 ≠ 0)) false false (.cpGat (fld w 20 19) (fld w 18 15) (fld w 14 11))
  | 4 => pick false false (decide (fld w 25 21 ≠ 0 ∨ fld w 10 6 ≠ 0)) false false (.cpSct (fld w 20 19) (fld w 18 15) (fld w 14 11))
  | 5 => pick false false (decide (fld w 25 21 ≠ 0 ∨ fld w 10 6 ≠ 0)) false false (.cpFill (fld w 20 19) (fld w 18 15) (fld w 14 11))
  | 6 => pick false false (decide (fld w 25 21 ≠ 0 ∨ fld w 10 6 ≠ 0)) false false (.cpTol (fld w 20 19) (fld w 18 15) (fld w 14 11))
  | 7 => pick false false (decide (fld w 25 21 ≠ 0 ∨ fld w 10 6 ≠ 0)) false false (.cpFrl (fld w 20 19) (fld w 18 15) (fld w 14 11))
  | 8 => pick false false (decide (fld w 25 21 ≠ 0 ∨ fld w 10 6 ≠ 0)) false false (.cpRedSum (fld w 20 19) (fld w 18 15) (fld w 14 11))
  | 9 => pick false false (decide (fld w 25 21 ≠ 0 ∨ fld w 10 6 ≠ 0)) false false (.cpRedMax (fld w 20 19) (fld w 18 15) (fld w 14 11))
  | 10 => pick false false (decide (fld w 25 21 ≠ 0 ∨ fld w 10 6 ≠ 0)) false false (.cpRedMrg (fld w 20 19) (fld w 18 15) (fld w 14 11))
  | 11 => pick false false (decide (fld w 25 21 ≠ 0 ∨ fld w 10 6 ≠ 0)) false false (.cpMm (fld w 20 19) (fld w 18 15) (fld w 14 11))
  | _ => .error .c02

/-- Cell 0x15 of the C stream map (R76). -/
def decodeC15 (w : Nat) : Except Subcause Instr :=
  match fld w 5 0 with
  | 0 => pick false false (decide (fld w 25 21 ≠ 0 ∨ fld w 12 6 ≠ 0 ∨ 4 ≤ (fld w 16 13))) false false (.cpStat (fld w 20 17) (fld w 16 13))
  | 1 => pick false false (decide (fld w 25 21 ≠ 0 ∨ fld w 12 6 ≠ 0 ∨ 4 ≤ (fld w 16 13))) false false (.cpAbort (fld w 20 17) (fld w 16 13))
  | 2 => pick false false (decide (fld w 25 21 ≠ 0 ∨ fld w 12 6 ≠ 0 ∨ 4 ≤ (fld w 16 13))) false false (.cpBind (fld w 20 17) (fld w 16 13))
  | _ => .error .c02

/-- Cell 0x16 of the C stream map (R76). -/
def decodeC16 (w : Nat) : Except Subcause Instr :=
  match fld w 5 0 with
  | 0 => pick false false (decide (fld w 25 21 ≠ 0 ∨ fld w 12 9 ≠ 0)) false false (.plSetup (fld w 20 17) (fld w 16 13) (fld w 8 6))
  | 1 => pick false false (decide (fld w 25 21 ≠ 0 ∨ fld w 16 9 ≠ 0)) false false (.plFire (fld w 20 17) (fld w 8 6))
  | 2 => pick false false (decide (fld w 25 21 ≠ 0 ∨ fld w 16 9 ≠ 0)) false false (.plFree (fld w 20 17) (fld w 8 6))
  | 3 => pick false false (decide (fld w 25 21 ≠ 0 ∨ fld w 16 9 ≠ 0)) false false (.plStat (fld w 20 17) (fld w 8 6))
  | 4 => pick false false (decide (fld w 25 21 ≠ 0 ∨ fld w 12 9 ≠ 0)) false false (.plRedo (fld w 20 17) (fld w 16 13) (fld w 8 6))
  | 5 => pick false false (decide (fld w 25 21 ≠ 0 ∨ fld w 16 9 ≠ 0)) false false (.plGeth (fld w 20 17) (fld w 8 6))
  | 6 => pick false false (decide (fld w 25 17 ≠ 0 ∨ fld w 12 9 ≠ 0)) false false (.plSeth (fld w 16 13) (fld w 8 6))
  | _ => .error .c02

/-- Cell 0x17 of the C stream map (R76). -/
def decodeC17 (w : Nat) : Except Subcause Instr :=
  match fld w 5 0 with
  | 0 => pick false false (decide (fld w 25 21 ≠ 0 ∨ fld w 12 6 ≠ 0)) false false (.nmStart (fld w 20 17) (fld w 16 13))
  | 1 =>
    match fld w 8 6 with
    | 0 => pick false false (decide (fld w 25 17 ≠ 0 ∨ fld w 12 9 ≠ 0)) false false (.nmFenceBank (fld w 16 13))
    | 1 => pick false false (decide (fld w 25 17 ≠ 0 ∨ fld w 12 9 ≠ 0)) false false (.nmFenceChan (fld w 16 13))
    | _ => .error .c02
  | 2 => pick false false (decide (fld w 25 21 ≠ 0 ∨ fld w 12 6 ≠ 0)) false false (.nmRatio (fld w 20 17) (fld w 16 13))
  | 3 => pick false false (decide (fld w 25 21 ≠ 0 ∨ fld w 12 6 ≠ 0)) false false (.nmColl (fld w 20 17) (fld w 16 13))
  | 4 => pick false false (decide (fld w 25 21 ≠ 0 ∨ fld w 12 6 ≠ 0)) false false (.nmQbc (fld w 20 17) (fld w 16 13))
  | 5 => pick false false (decide (fld w 25 21 ≠ 0 ∨ fld w 12 6 ≠ 0)) false false (.nmWalk (fld w 20 17) (fld w 16 13))
  | 6 => pick false false (decide (fld w 25 21 ≠ 0 ∨ fld w 12 6 ≠ 0)) false false (.nmStat (fld w 20 17) (fld w 16 13))
  | _ => .error .c02

/-- Cell 0x18 of the C stream map (R76). -/
def decodeC18 (w : Nat) : Except Subcause Instr :=
  match fld w 5 0 with
  | 0 => pick false false (decide (fld w 25 21 ≠ 0 ∨ fld w 12 6 ≠ 0)) false false (.kvAlloc (fld w 20 17) (fld w 16 13))
  | 1 => pick false false (decide (fld w 25 21 ≠ 0 ∨ fld w 12 6 ≠ 0)) false false (.kvFree (fld w 20 17) (fld w 16 13))
  | 2 => pick false false (decide (fld w 25 21 ≠ 0 ∨ fld w 8 6 ≠ 0)) false false (.kvApp (fld w 20 17) (fld w 16 13) (fld w 12 9))
  | 3 => pick false false (decide (fld w 25 21 ≠ 0 ∨ fld w 12 6 ≠ 0)) false false (.kvMap (fld w 20 17) (fld w 16 13))
  | 4 => pick false false (decide (fld w 25 21 ≠ 0 ∨ fld w 12 6 ≠ 0)) false false (.kvShare (fld w 20 17) (fld w 16 13))
  | 5 => pick false false (decide (fld w 25 21 ≠ 0 ∨ fld w 12 6 ≠ 0)) false false (.kvMove (fld w 20 17) (fld w 16 13))
  | 6 =>
    match fld w 8 6 with
    | 0 => pick false false (decide (fld w 25 21 ≠ 0 ∨ fld w 12 9 ≠ 0)) false false (.kvStatLen (fld w 20 17) (fld w 16 13))
    | 1 => pick false false (decide (fld w 25 21 ≠ 0 ∨ fld w 12 9 ≠ 0)) false false (.kvStatGen (fld w 20 17) (fld w 16 13))
    | 2 => pick false false (decide (fld w 25 21 ≠ 0 ∨ fld w 12 9 ≠ 0)) false false (.kvStatFree (fld w 20 17) (fld w 16 13))
    | _ => .error .c02
  | 7 => pick false false (decide (fld w 25 21 ≠ 0 ∨ fld w 8 6 ≠ 0)) false false (.kvGen (fld w 20 17) (fld w 16 13) (fld w 12 9))
  | _ => .error .c02

/-- Cell 0x19 of the C stream map (R76). -/
def decodeC19 (w : Nat) : Except Subcause Instr :=
  match fld w 5 0 with
  | 0 => pick false false (decide (fld w 25 21 ≠ 0 ∨ fld w 8 6 ≠ 0)) false false (.l2Lease (fld w 20 17) (fld w 16 13) (fld w 12 9))
  | 1 => pick false false (decide (fld w 25 21 ≠ 0 ∨ fld w 12 6 ≠ 0)) false false (.l2Rel (fld w 20 17) (fld w 16 13))
  | 2 => pick false false (decide (fld w 25 21 ≠ 0 ∨ fld w 8 6 ≠ 0)) false false (.l2Renew (fld w 20 17) (fld w 16 13) (fld w 12 9))
  | 3 => pick false false (decide (fld w 25 21 ≠ 0 ∨ fld w 12 6 ≠ 0)) false false (.l2Stat (fld w 20 17) (fld w 16 13))
  | 4 => pick false false (decide (fld w 25 21 ≠ 0 ∨ fld w 12 6 ≠ 0)) false false (.l2Dot (fld w 20 17) (fld w 16 13))
  | 5 =>
    match fld w 8 6 with
    | 0 => pick false false (decide (fld w 25 21 ≠ 0)) false false (.l2WbL1 (fld w 20 17) (fld w 16 13) (fld w 12 9))
    | 1 => pick false false (decide (fld w 25 21 ≠ 0)) false false (.l2WbL2 (fld w 20 17) (fld w 16 13) (fld w 12 9))
    | _ => .error .c02
  | 6 =>
    match fld w 8 6 with
    | 0 => pick false false (decide (fld w 25 21 ≠ 0)) false false (.l2InvL1 (fld w 20 17) (fld w 16 13) (fld w 12 9))
    | 1 => pick false false (decide (fld w 25 21 ≠ 0)) false false (.l2InvL2 (fld w 20 17) (fld w 16 13) (fld w 12 9))
    | _ => .error .c02
  | 7 =>
    match fld w 8 6 with
    | 0 => pick false false (decide (fld w 25 17 ≠ 0)) false false (.l2PfL2 (fld w 16 13) (fld w 12 9))
    | 1 => pick false false (decide (fld w 25 17 ≠ 0)) false false (.l2PfL1 (fld w 16 13) (fld w 12 9))
    | _ => .error .c02
  | _ => .error .c02

/-- Cell 0x1A of the C stream map (R76). -/
def decodeC1A (w : Nat) : Except Subcause Instr :=
  match fld w 8 0 with
  | 0 => pick false false (decide (fld w 25 21 ≠ 0)) false false (.fenceArmSig (fld w 20 17) (fld w 16 13) (fld w 12 9))
  | 64 => pick false false (decide (fld w 25 21 ≠ 0)) false false (.fenceArmTrig (fld w 20 17) (fld w 16 13) (fld w 12 9))
  | 128 => pick false false (decide (fld w 25 21 ≠ 0 ∨ (fld w 12 9) % 2 = 1)) false false (.fenceArmWr (fld w 20 17) (fld w 16 13) (fld w 12 9))
  | _ => .error .c02

/-- Cell 0x1B of the C stream map (R76). -/
def decodeC1B (k : StreamId) (w : Nat) : Except Subcause Instr :=
  pick false (decide (badReg k (fld w 20 15) ∨ badReg k (fld w 14 9))) (decide (fld w 25 21 ≠ 0 ∨ (fld w 8 7) = 3 ∧ (fld w 6 6) = 1)) false false (.ldC (fld w 20 15) (fld w 14 9) (fld w 8 7) (fld w 6 6) (fld w 5 0))

/-- Cell 0x1C of the C stream map (R76). -/
def decodeC1C (k : StreamId) (w : Nat) : Except Subcause Instr :=
  pick false (decide (badReg k (fld w 20 15) ∨ badReg k (fld w 14 9))) (decide (fld w 25 21 ≠ 0 ∨ fld w 6 6 ≠ 0)) false false (.stC (fld w 20 15) (fld w 14 9) (fld w 8 7) (fld w 5 0))

/-- The cells only the S stream has. -/
def decodeOwnS (w : Nat) : Except Subcause Instr :=
  match fld w 31 26 with
  | 20 => decodeS14 w
  | 21 => decodeS15 w
  | 22 => decodeS16 w
  | 23 => decodeS17 w
  | 24 => decodeS18 w
  | 25 => decodeS19 w
  | 26 => decodeS1A w
  | 27 => decodeS1B w
  | 28 => decodeS1C w
  | 29 => decodeS1D w
  | 30 => decodeS1E w
  | 31 => decodeS1F w
  | 32 => decodeS20 w
  | 33 => decodeS21 w
  | 34 => decodeS22 w
  | 35 => decodeS23 w
  | 36 => decodeS24 w
  | 37 => decodeS25 w
  | 38 => decodeS26 w
  | _ => .error .c01

/-- The cells only the V stream has. -/
def decodeOwnV (w : Nat) : Except Subcause Instr :=
  match fld w 31 26 with
  | 20 => decodeV14 w
  | 21 => decodeV15 w
  | 22 => decodeV16 w
  | 23 => decodeV17 w
  | 24 => decodeV18 w
  | 25 => decodeV19 w
  | 26 => decodeV1A w
  | 27 => decodeV1B w
  | 28 => decodeV1C w
  | 29 => decodeV1D w
  | 30 => decodeV1E w
  | 31 => decodeV1F w
  | 32 => decodeV20 w
  | 33 => decodeV21 w
  | 34 => decodeV22 w
  | _ => .error .c01

/-- The cells only the M stream has. -/
def decodeOwnM (w : Nat) : Except Subcause Instr :=
  match fld w 31 26 with
  | 20 => decodeM14 w
  | 21 => decodeM15 w
  | 22 => decodeM16 w
  | 23 => decodeM17 w
  | 24 => decodeM18 w
  | 25 => decodeM19 w
  | 26 => decodeM1A w
  | 27 => decodeM1B w
  | 28 => decodeM1C w
  | _ => .error .c01

/-- The cells only the C stream has. -/
def decodeOwnC (w : Nat) : Except Subcause Instr :=
  match fld w 31 26 with
  | 20 => decodeC14 w
  | 21 => decodeC15 w
  | 22 => decodeC16 w
  | 23 => decodeC17 w
  | 24 => decodeC18 w
  | 25 => decodeC19 w
  | 26 => decodeC1A w
  | 27 => decodeC1B .c w
  | 28 => decodeC1C .c w
  | _ => .error .c01

/-- The cells a stream keeps to itself (R73 to R76). -/
def decodeOwn (k : StreamId) (w : Nat) : Except Subcause Instr :=
  match k with
  | .s => decodeOwnS w
  | .v => decodeOwnV w
  | .m => decodeOwnM w
  | .c => decodeOwnC w

/-- One stream word, read by the opcode map of stream k (R57 to R77). -/
def decode (k : StreamId) (w : Nat) : Except Subcause Instr :=
  if w = 0xFFFFFFFF then .error .c06
  else if w = 0 then .ok .nop
  else match fld w 31 26 with
  | 0 => .error .c03
  | 1 => if k = .m then .error .c01 else decodeX01 k w
  | 2 => if k = .m then .error .c01 else decodeX02 k w
  | 3 => if k = .m then .error .c01 else decodeX03 k w
  | 4 => if k = .m then .error .c01 else decodeX04 k w
  | 5 => if k = .m then .error .c01 else decodeX05 k w
  | 6 => if k = .m then .error .c01 else decodeX06 k w
  | 7 => if k = .m then .error .c01 else decodeX07 k w
  | 8 => if k = .m then .error .c01 else decodeX08 k w
  | 9 => if k = .m then .error .c01 else decodeX09 k w
  | 10 => if k = .m then .error .c01 else decodeX0A k w
  | 11 => if k = .m then .error .c01 else decodeX0B k w
  | 12 => decodeX0C k w
  | 13 => decodeX0D k w
  | 14 => if k = .m then .error .c01 else decodeX0E k w
  | 15 => decodeX0F k w
  | 16 => if k = .m then .error .c01 else decodeX10 k w
  | 17 => decodeX11 k w
  | 18 => if k = .m then .error .c01 else decodeX12 k w
  | 19 => if k = .m then .error .c01 else decodeX13 k w
  | 60 => decodeX3C k w
  | _ => decodeOwn k w

/-- The reasons a bank command word is refused for its encoding at load (R80, R294). -/
def pickBank (bad : Bool) (i : Instr) (o : BankOps) : Except BankReason (Instr × BankOps) := if bad then .error .reserved else .ok (i, o)

/-- One bank command word (R78, R79, R297, R298). -/
def decodeBank (w : Nat) : Except BankReason (Instr × BankOps) :=
  match fld w 63 58 with
  | 0 => pickBank (decide (fld w 49 0 ≠ 0)) .bnop { w := fld w 57 50 }
  | 1 => pickBank (decide (fld w 27 0 ≠ 0 ∨ 0x8000 ≤ fld w 43 28)) .bact { w := fld w 57 50, b := fld w 49 44, r := fld w 43 28 }
  | 2 => pickBank (decide (fld w 43 0 ≠ 0)) .bpre { w := fld w 57 50, b := fld w 49 44 }
  | 3 => pickBank (decide (fld w 49 0 ≠ 0)) .bpra { w := fld w 57 50 }
  | 4 => pickBank (decide (fld w 43 0 ≠ 0)) .bref { w := fld w 57 50, b := fld w 49 44 }
  | 5 => pickBank (decide (fld w 49 32 ≠ 0 ∨ fld w 27 0 ≠ 0)) .bqld { w := fld w 57 50, q := fld w 31 28 }
  | 6 => pickBank (decide (fld w 3 0 ≠ 0 ∨ 0x8000 < fld w 43 28 ∨ fld w 22 20 ≠ 0 ∨ fld w 26 25 ≠ 0)) .bdot { w := fld w 57 50, b := fld w 49 44, r := fld w 43 28, col := fld w 27 20, os := fld w 19 16, sq := fld w 15 4 }
  | 7 => pickBank (decide (fld w 43 27 ≠ 0 ∨ fld w 3 0 ≠ 0)) .bemit { w := fld w 57 50, b := fld w 49 44, col := fld w 26 20, os := fld w 19 16, sq := fld w 15 4 }
  | 8 => pickBank (decide (fld w 43 0 ≠ 0)) .bwbc { w := fld w 57 50, b := fld w 49 44 }
  | 9 => pickBank (decide (fld w 3 0 ≠ 0 ∨ 0x8000 < fld w 43 28 ∨ fld w 22 20 ≠ 0 ∨ fld w 26 25 ≠ 0)) .bwacc { w := fld w 57 50, b := fld w 49 44, r := fld w 43 28, col := fld w 27 20, os := fld w 19 16, sq := fld w 15 4 }
  | 10 => pickBank (decide (fld w 27 25 ≠ 0 ∨ fld w 3 0 ≠ 0 ∨ 0x8000 < fld w 43 28)) .bwr { w := fld w 57 50, b := fld w 49 44, r := fld w 43 28, col := fld w 24 20, os := fld w 19 16, sq := fld w 15 4 }
  | 11 => pickBank (decide (fld w 27 20 ≠ 0 ∨ fld w 3 0 ≠ 0 ∨ 0x8000 < fld w 43 28)) .bwra { w := fld w 57 50, b := fld w 49 44, r := fld w 43 28, os := fld w 19 16, sq := fld w 15 4 }
  | 12 => pickBank (decide (fld w 43 28 ≠ 0 ∨ fld w 26 0 ≠ 0 ∨ fld w 27 27 = 1 ∧ fld w 49 44 ≠ 0)) .bclr { w := fld w 57 50, b := fld w 49 44, all := fld w 27 27 }
  | 13 => pickBank (decide (fld w 27 27 ≠ 0 ∨ fld w 3 0 ≠ 0 ∨ 0x8000 < fld w 43 28)) .bscl { w := fld w 57 50, b := fld w 49 44, r := fld w 43 28, col := fld w 26 20, os := fld w 19 16, sq := fld w 15 4 }
  | 14 => pickBank (decide (fld w 27 0 ≠ 0)) .bwact { w := fld w 57 50, b := fld w 49 44, wk := fld w 43 28 }
  | 15 => pickBank (decide (fld w 49 44 ≠ 0 ∨ fld w 27 0 ≠ 0)) .bwadv { w := fld w 57 50, wk := fld w 43 28 }
  | 16 => pickBank (decide (fld w 49 46 ≠ 0 ∨ fld w 43 38 ≠ 0 ∨ fld w 19 0 ≠ 0)) .bloop { w := fld w 57 50, lp := fld w 45 44, tgt := fld w 37 28, cnt := fld w 27 20 }
  | 17 => pickBank (decide (fld w 49 38 ≠ 0 ∨ fld w 27 0 ≠ 0)) .bjmp { w := fld w 57 50, tgt := fld w 37 28 }
  | 18 => pickBank (decide (fld w 49 20 ≠ 0 ∨ fld w 3 0 ≠ 0)) .bsync { w := fld w 57 50, os := fld w 19 16, sq := fld w 15 4 }
  | 19 => pickBank (decide (fld w 49 0 ≠ 0)) .bend { w := fld w 57 50 }
  | 20 => pickBank (decide (fld w 49 20 ≠ 0 ∨ fld w 3 0 ≠ 0)) .bmx { w := fld w 57 50, os := fld w 19 16, sq := fld w 15 4 }
  | _ => .error .unassigned

/-- The guard bits of a word (R61). -/
def encGuard (g : Guard) : Nat := g.p * 0x400000 + (if g.neg then 0x200000 else 0)

/-- The word of an instruction, from the same formats (R67 to R79); none for a bank command (see
`encodeBank`) and for a step that no word encodes. -/
def encode : Instr → Option Nat
  | .nop => some (0x00000000)
  | .add gd d a b => some (0x04000000 + encGuard gd + d * 0x8000 + a * 0x200 + b * 0x8)
  | .sub gd d a b => some (0x04000001 + encGuard gd + d * 0x8000 + a * 0x200 + b * 0x8)
  | .and gd d a b => some (0x04000002 + encGuard gd + d * 0x8000 + a * 0x200 + b * 0x8)
  | .or gd d a b => some (0x04000003 + encGuard gd + d * 0x8000 + a * 0x200 + b * 0x8)
  | .xor gd d a b => some (0x04000004 + encGuard gd + d * 0x8000 + a * 0x200 + b * 0x8)
  | .andn gd d a b => some (0x04000005 + encGuard gd + d * 0x8000 + a * 0x200 + b * 0x8)
  | .orn gd d a b => some (0x04000006 + encGuard gd + d * 0x8000 + a * 0x200 + b * 0x8)
  | .xnor gd d a b => some (0x04000007 + encGuard gd + d * 0x8000 + a * 0x200 + b * 0x8)
  | .sll gd d a b => some (0x08000000 + encGuard gd + d * 0x8000 + a * 0x200 + b * 0x8)
  | .srl gd d a b => some (0x08000001 + encGuard gd + d * 0x8000 + a * 0x200 + b * 0x8)
  | .sra gd d a b => some (0x08000002 + encGuard gd + d * 0x8000 + a * 0x200 + b * 0x8)
  | .ror gd d a b => some (0x08000003 + encGuard gd + d * 0x8000 + a * 0x200 + b * 0x8)
  | .min gd d a b => some (0x08000004 + encGuard gd + d * 0x8000 + a * 0x200 + b * 0x8)
  | .max gd d a b => some (0x08000005 + encGuard gd + d * 0x8000 + a * 0x200 + b * 0x8)
  | .minu gd d a b => some (0x08000006 + encGuard gd + d * 0x8000 + a * 0x200 + b * 0x8)
  | .maxu gd d a b => some (0x08000007 + encGuard gd + d * 0x8000 + a * 0x200 + b * 0x8)
  | .addi gd d a i => some (0x0C000000 + encGuard gd + d * 0x8000 + a * 0x200 + i * 0x1)
  | .andi gd d a i => some (0x10000000 + encGuard gd + d * 0x8000 + a * 0x200 + i * 0x1)
  | .ori gd d a i => some (0x14000000 + encGuard gd + d * 0x8000 + a * 0x200 + i * 0x1)
  | .xori gd d a i => some (0x18000000 + encGuard gd + d * 0x8000 + a * 0x200 + i * 0x1)
  | .slli gd d a s => some (0x1C000000 + encGuard gd + d * 0x8000 + a * 0x200 + s * 0x1)
  | .srli gd d a s => some (0x1C000080 + encGuard gd + d * 0x8000 + a * 0x200 + s * 0x1)
  | .srai gd d a s => some (0x1C000100 + encGuard gd + d * 0x8000 + a * 0x200 + s * 0x1)
  | .rori gd d a s => some (0x1C000180 + encGuard gd + d * 0x8000 + a * 0x200 + s * 0x1)
  | .li gd d i => some (0x20000000 + encGuard gd + d * 0x8000 + i * 0x1)
  | .lix gd d i => some (0x24000000 + encGuard gd + d * 0x8000 + i * 0x1)
  | .cmp gd p a b c => some (0x28000000 + encGuard gd + p * 0x20000 + a * 0x800 + b * 0x20 + c * 0x2)
  | .cmpi gd p a c i => some (0x2C000000 + encGuard gd + p * 0x20000 + a * 0x800 + c * 0x80 + i * 0x1)
  | .pand gd d a b => some (0x30000000 + encGuard gd + d * 0x20000 + a * 0x2000 + b * 0x200)
  | .por gd d a b => some (0x30000040 + encGuard gd + d * 0x20000 + a * 0x2000 + b * 0x200)
  | .pxor gd d a b => some (0x30000080 + encGuard gd + d * 0x20000 + a * 0x2000 + b * 0x200)
  | .pandn gd d a b => some (0x300000C0 + encGuard gd + d * 0x20000 + a * 0x2000 + b * 0x200)
  | .pnot gd d a => some (0x30000100 + encGuard gd + d * 0x20000 + a * 0x2000)
  | .pmov gd d a => some (0x30000140 + encGuard gd + d * 0x20000 + a * 0x2000)
  | .pset gd d => some (0x30000180 + encGuard gd + d * 0x20000)
  | .pclr gd d => some (0x300001C0 + encGuard gd + d * 0x20000)
  | .brp gd d o => some (0x34000000 + encGuard gd + d * 0x40000 + o * 0x1)
  | .brpx gd d a => some (0x38000000 + encGuard gd + d * 0x40000 + a * 0x1000)
  | .br gd s => some (0x3C000000 + encGuard gd + s * 0x40000)
  | .brL gd s d => some (0x3C020000 + encGuard gd + s * 0x40000 + d * 0x800)
  | .loop gd l a e => some (0x40000000 + encGuard gd + l * 0x100000 + a * 0x4000 + e * 0x1)
  | .loopi gd l c e => some (0x44000000 + encGuard gd + l * 0x100000 + c * 0x400 + e * 0x1)
  | .csrr gd d c => some (0x48000000 + encGuard gd + d * 0x8000 + c * 0x1)
  | .csrw gd a c => some (0x4C000000 + encGuard gd + a * 0x200 + c * 0x1)
  | .semWait gd i k => some (0xF0000000 + encGuard gd + i * 0x400 + k * 0x1)
  | .semSig gd i k => some (0xF0010000 + encGuard gd + i * 0x400 + k * 0x1)
  | .semTry gd i p => some (0xF0020000 + encGuard gd + i * 0x400 + p * 0x1)
  | .semRd gd i r => some (0xF0030000 + encGuard gd + i * 0x400 + r * 0x1)
  | .gbArr gd i => some (0xF0040000 + encGuard gd + i * 0x400)
  | .gbWait gd i => some (0xF0050000 + encGuard gd + i * 0x400)
  | .gbSync gd i => some (0xF0060000 + encGuard gd + i * 0x400)
  | .fenceTlw gd i s r => some (0xF0070000 + encGuard gd + i * 0x400 + s * 0x40 + r * 0x1)
  | .mul gd d a b => some (0x50000000 + encGuard gd + d * 0x8000 + a * 0x200 + b * 0x8)
  | .mulh gd d a b => some (0x50000001 + encGuard gd + d * 0x8000 + a * 0x200 + b * 0x8)
  | .mulhu gd d a b => some (0x50000002 + encGuard gd + d * 0x8000 + a * 0x200 + b * 0x8)
  | .mulhsu gd d a b => some (0x50000003 + encGuard gd + d * 0x8000 + a * 0x200 + b * 0x8)
  | .div gd d a b => some (0x50000004 + encGuard gd + d * 0x8000 + a * 0x200 + b * 0x8)
  | .divu gd d a b => some (0x50000005 + encGuard gd + d * 0x8000 + a * 0x200 + b * 0x8)
  | .rem gd d a b => some (0x50000006 + encGuard gd + d * 0x8000 + a * 0x200 + b * 0x8)
  | .remu gd d a b => some (0x50000007 + encGuard gd + d * 0x8000 + a * 0x200 + b * 0x8)
  | .addw gd d a b => some (0x54000000 + encGuard gd + d * 0x8000 + a * 0x200 + b * 0x8)
  | .subw gd d a b => some (0x54000001 + encGuard gd + d * 0x8000 + a * 0x200 + b * 0x8)
  | .mulw gd d a b => some (0x54000002 + encGuard gd + d * 0x8000 + a * 0x200 + b * 0x8)
  | .sllw gd d a b => some (0x54000003 + encGuard gd + d * 0x8000 + a * 0x200 + b * 0x8)
  | .srlw gd d a b => some (0x54000004 + encGuard gd + d * 0x8000 + a * 0x200 + b * 0x8)
  | .sraw gd d a b => some (0x54000005 + encGuard gd + d * 0x8000 + a * 0x200 + b * 0x8)
  | .divw gd d a b => some (0x54000006 + encGuard gd + d * 0x8000 + a * 0x200 + b * 0x8)
  | .remw gd d a b => some (0x54000007 + encGuard gd + d * 0x8000 + a * 0x200 + b * 0x8)
  | .clz gd d a => some (0x58000000 + encGuard gd + d * 0x8000 + a * 0x200)
  | .ctz gd d a => some (0x58000001 + encGuard gd + d * 0x8000 + a * 0x200)
  | .popc gd d a => some (0x58000002 + encGuard gd + d * 0x8000 + a * 0x200)
  | .brev gd d a => some (0x58000003 + encGuard gd + d * 0x8000 + a * 0x200)
  | .sextb gd d a => some (0x58000004 + encGuard gd + d * 0x8000 + a * 0x200)
  | .sexth gd d a => some (0x58000005 + encGuard gd + d * 0x8000 + a * 0x200)
  | .sextw gd d a => some (0x58000006 + encGuard gd + d * 0x8000 + a * 0x200)
  | .zextw gd d a => some (0x58000007 + encGuard gd + d * 0x8000 + a * 0x200)
  | .sel gd d a b => some (0x5C000000 + encGuard gd + d * 0x8000 + a * 0x200 + b * 0x8)
  | .ld gd d a s x o => some (0x60000000 + encGuard gd + d * 0x8000 + a * 0x200 + s * 0x80 + x * 0x40 + o * 0x1)
  | .st gd d a s o => some (0x64000000 + encGuard gd + d * 0x8000 + a * 0x200 + s * 0x80 + o * 0x1)
  | .ldsp gd d a s x o => some (0x68000000 + encGuard gd + d * 0x8000 + a * 0x200 + s * 0x80 + x * 0x40 + o * 0x1)
  | .stsp gd d a s o => some (0x6C000000 + encGuard gd + d * 0x8000 + a * 0x200 + s * 0x80 + o * 0x1)
  | .ldAcq gd d a s c => some (0x70000000 + encGuard gd + d * 0x8000 + a * 0x200 + s * 0x40 + c * 0x1)
  | .stRel gd d a s c => some (0x74000000 + encGuard gd + d * 0x8000 + a * 0x200 + s * 0x40 + c * 0x1)
  | .amAddW gd d a o c => some (0x78000000 + encGuard gd + d * 0x8000 + a * 0x200 + o * 0x10 + c * 0x1)
  | .amSwapW gd d a o c => some (0x78000040 + encGuard gd + d * 0x8000 + a * 0x200 + o * 0x10 + c * 0x1)
  | .amCasW gd d a o c => some (0x78000080 + encGuard gd + d * 0x8000 + a * 0x200 + o * 0x10 + c * 0x1)
  | .amAndW gd d a o c => some (0x780000C0 + encGuard gd + d * 0x8000 + a * 0x200 + o * 0x10 + c * 0x1)
  | .amOrW gd d a o c => some (0x78000100 + encGuard gd + d * 0x8000 + a * 0x200 + o * 0x10 + c * 0x1)
  | .amXorW gd d a o c => some (0x78000140 + encGuard gd + d * 0x8000 + a * 0x200 + o * 0x10 + c * 0x1)
  | .amMaxW gd d a o c => some (0x78000180 + encGuard gd + d * 0x8000 + a * 0x200 + o * 0x10 + c * 0x1)
  | .amMinW gd d a o c => some (0x780001C0 + encGuard gd + d * 0x8000 + a * 0x200 + o * 0x10 + c * 0x1)
  | .amAddD gd d a o c => some (0x7C000000 + encGuard gd + d * 0x8000 + a * 0x200 + o * 0x10 + c * 0x1)
  | .amSwapD gd d a o c => some (0x7C000040 + encGuard gd + d * 0x8000 + a * 0x200 + o * 0x10 + c * 0x1)
  | .amCasD gd d a o c => some (0x7C000080 + encGuard gd + d * 0x8000 + a * 0x200 + o * 0x10 + c * 0x1)
  | .amAndD gd d a o c => some (0x7C0000C0 + encGuard gd + d * 0x8000 + a * 0x200 + o * 0x10 + c * 0x1)
  | .amOrD gd d a o c => some (0x7C000100 + encGuard gd + d * 0x8000 + a * 0x200 + o * 0x10 + c * 0x1)
  | .amXorD gd d a o c => some (0x7C000140 + encGuard gd + d * 0x8000 + a * 0x200 + o * 0x10 + c * 0x1)
  | .amMaxD gd d a o c => some (0x7C000180 + encGuard gd + d * 0x8000 + a * 0x200 + o * 0x10 + c * 0x1)
  | .amMinD gd d a o c => some (0x7C0001C0 + encGuard gd + d * 0x8000 + a * 0x200 + o * 0x10 + c * 0x1)
  | .scLd gd d a s w o => some (0x80000100 + encGuard gd + d * 0x8000 + a * 0x200 + s * 0x80 + w * 0x40 + o * 0x1)
  | .scSt gd d a s w o => some (0x84000100 + encGuard gd + d * 0x8000 + a * 0x200 + s * 0x80 + w * 0x40 + o * 0x1)
  | .scAccessIssue => none
  | .fenceAcq gd c => some (0x88000000 + encGuard gd + c * 0x1)
  | .fenceRel gd c => some (0x88000010 + encGuard gd + c * 0x1)
  | .fenceAr gd c => some (0x88000020 + encGuard gd + c * 0x1)
  | .ecRd gd d a => some (0x8C000000 + encGuard gd + d * 0x8000 + a * 0x200)
  | .ecCfg gd a b => some (0x8C000001 + encGuard gd + a * 0x200 + b * 0x8)
  | .ecOn gd a => some (0x8C000002 + encGuard gd + a * 0x200)
  | .ecOff gd a => some (0x8C000003 + encGuard gd + a * 0x200)
  | .sysEnd gd => some (0x90000000 + encGuard gd)
  | .yield gd => some (0x90000001 + encGuard gd)
  | .sysArg gd d a => some (0x90000002 + encGuard gd + d * 0x8000 + a * 0x200)
  | .sysAbort gd a => some (0x90000003 + encGuard gd + a * 0x200)
  | .trap gd i => some (0x94000000 + encGuard gd + i * 0x1)
  | .vesper gd i => some (0x98000000 + encGuard gd + i * 0x1)
  | .vadd gd d a b => some (0x50000000 + encGuard gd + d * 0x10000 + a * 0x800 + b * 0x40)
  | .vsub gd d a b => some (0x50000001 + encGuard gd + d * 0x10000 + a * 0x800 + b * 0x40)
  | .vmul gd d a b => some (0x50000002 + encGuard gd + d * 0x10000 + a * 0x800 + b * 0x40)
  | .vdiv gd d a b => some (0x50000003 + encGuard gd + d * 0x10000 + a * 0x800 + b * 0x40)
  | .vmin gd d a b => some (0x50000004 + encGuard gd + d * 0x10000 + a * 0x800 + b * 0x40)
  | .vmax gd d a b => some (0x50000005 + encGuard gd + d * 0x10000 + a * 0x800 + b * 0x40)
  | .vminp gd d a b => some (0x50000006 + encGuard gd + d * 0x10000 + a * 0x800 + b * 0x40)
  | .vmaxp gd d a b => some (0x50000007 + encGuard gd + d * 0x10000 + a * 0x800 + b * 0x40)
  | .viadd gd d a b s => some (0x54000000 + encGuard gd + d * 0x10000 + a * 0x800 + b * 0x40 + s * 0x20)
  | .visub gd d a b s => some (0x54000001 + encGuard gd + d * 0x10000 + a * 0x800 + b * 0x40 + s * 0x20)
  | .vimul gd d a b s => some (0x54000002 + encGuard gd + d * 0x10000 + a * 0x800 + b * 0x40 + s * 0x20)
  | .viand gd d a b => some (0x54000003 + encGuard gd + d * 0x10000 + a * 0x800 + b * 0x40)
  | .vior gd d a b => some (0x54000004 + encGuard gd + d * 0x10000 + a * 0x800 + b * 0x40)
  | .vixor gd d a b => some (0x54000005 + encGuard gd + d * 0x10000 + a * 0x800 + b * 0x40)
  | .vishl gd d a b => some (0x54000006 + encGuard gd + d * 0x10000 + a * 0x800 + b * 0x40)
  | .vishr gd d a b => some (0x54000007 + encGuard gd + d * 0x10000 + a * 0x800 + b * 0x40)
  | .visra gd d a b => some (0x54000008 + encGuard gd + d * 0x10000 + a * 0x800 + b * 0x40)
  | .vimin gd d a b => some (0x54000009 + encGuard gd + d * 0x10000 + a * 0x800 + b * 0x40)
  | .vimax gd d a b => some (0x5400000A + encGuard gd + d * 0x10000 + a * 0x800 + b * 0x40)
  | .vfma gd d a b c => some (0x58000000 + encGuard gd + d * 0x10000 + a * 0x800 + b * 0x40 + c * 0x2)
  | .vfms gd d a b c => some (0x58000001 + encGuard gd + d * 0x10000 + a * 0x800 + b * 0x40 + c * 0x2)
  | .vsel gd d a b c => some (0x88000000 + encGuard gd + d * 0x10000 + a * 0x800 + b * 0x40 + c * 0x2)
  | .vmov gd d a => some (0x5C000000 + encGuard gd + d * 0x10000 + a * 0x800)
  | .vneg gd d a => some (0x5C000002 + encGuard gd + d * 0x10000 + a * 0x800)
  | .vabs gd d a => some (0x5C000004 + encGuard gd + d * 0x10000 + a * 0x800)
  | .vexp2 gd d a => some (0x5C000006 + encGuard gd + d * 0x10000 + a * 0x800)
  | .vlog2 gd d a => some (0x5C000008 + encGuard gd + d * 0x10000 + a * 0x800)
  | .vrcp gd d a => some (0x5C00000A + encGuard gd + d * 0x10000 + a * 0x800)
  | .vrsqrt gd d a => some (0x5C00000C + encGuard gd + d * 0x10000 + a * 0x800)
  | .vsqrt gd d a => some (0x5C00000E + encGuard gd + d * 0x10000 + a * 0x800)
  | .vcvt gd d a r => some (0x5C000010 + encGuard gd + d * 0x10000 + a * 0x800 + r * 0x1)
  | .vqlg6 gd d a b => some (0x60000000 + encGuard gd + d * 0x10000 + a * 0x800 + b * 0x40)
  | .vqint8 gd d a b => some (0x60000001 + encGuard gd + d * 0x10000 + a * 0x800 + b * 0x40)
  | .vdq gd d a => some (0x60000002 + encGuard gd + d * 0x10000 + a * 0x800)
  | .vscl gd d a b => some (0x60000003 + encGuard gd + d * 0x10000 + a * 0x800 + b * 0x40)
  | .vperm gd d a b => some (0x64000000 + encGuard gd + d * 0x10000 + a * 0x800 + b * 0x40)
  | .vunpk4 gd d a => some (0x64000001 + encGuard gd + d * 0x10000 + a * 0x800)
  | .vtr8 gd d a => some (0x64000002 + encGuard gd + d * 0x10000 + a * 0x800)
  | .vrsum gd d a => some (0x68000000 + encGuard gd + d * 0x10000 + a * 0x800)
  | .vrmax gd d a => some (0x68000001 + encGuard gd + d * 0x10000 + a * 0x800)
  | .vrmin gd d a => some (0x68000002 + encGuard gd + d * 0x10000 + a * 0x800)
  | .vrmaxp gd d a => some (0x68000003 + encGuard gd + d * 0x10000 + a * 0x800)
  | .vrminp gd d a => some (0x68000004 + encGuard gd + d * 0x10000 + a * 0x800)
  | .virsum gd d a => some (0x68000005 + encGuard gd + d * 0x10000 + a * 0x800)
  | .vany gd p a => some (0x6C000000 + encGuard gd + p * 0x10000 + a * 0x800)
  | .vall gd p a => some (0x6C000001 + encGuard gd + p * 0x10000 + a * 0x800)
  | .vmrg gd d a b => some (0x70000000 + encGuard gd + d * 0x10000 + a * 0x800 + b * 0x40)
  | .vck gd d a => some (0x70000001 + encGuard gd + d * 0x10000 + a * 0x800)
  | .vcmpEq gd d a b => some (0x74000000 + encGuard gd + d * 0x10000 + a * 0x800 + b * 0x40)
  | .vcmpNe gd d a b => some (0x74000001 + encGuard gd + d * 0x10000 + a * 0x800 + b * 0x40)
  | .vcmpLt gd d a b => some (0x74000002 + encGuard gd + d * 0x10000 + a * 0x800 + b * 0x40)
  | .vcmpLe gd d a b => some (0x74000003 + encGuard gd + d * 0x10000 + a * 0x800 + b * 0x40)
  | .vcmpUn gd d a b => some (0x74000004 + encGuard gd + d * 0x10000 + a * 0x800 + b * 0x40)
  | .vsetq gd d a b => some (0x78000000 + encGuard gd + d * 0x10000 + a * 0x1000 + b * 0x100)
  | .vgetq gd d a b => some (0x78000001 + encGuard gd + d * 0x10000 + a * 0x1000 + b * 0x100)
  | .vadvq gd d a b => some (0x78000002 + encGuard gd + d * 0x10000 + a * 0x1000 + b * 0x100)
  | .vcntq gd d a => some (0x78000003 + encGuard gd + d * 0x10000 + a * 0x1000)
  | .vld gd q a h => some (0x7C000000 + encGuard gd + q * 0x10000 + a * 0x1000 + h * 0x10)
  | .vst gd q a h => some (0x7C000001 + encGuard gd + q * 0x10000 + a * 0x1000 + h * 0x10)
  | .vloop gd l a e => some (0x80000000 + encGuard gd + l * 0x100000 + a * 0x10000 + e * 0x1)
  | .vstg gd i => some (0x84000000 + encGuard gd + i * 0x1)
  | .mmMac a d e t => some (0x50000000 + a * 0x40000 + d * 0x8000 + e * 0x1000 + t * 0x400)
  | .mmMul a d e t => some (0x54000000 + a * 0x40000 + d * 0x8000 + e * 0x1000 + t * 0x400)
  | .mmZero a => some (0x58000000 + a * 0x40000)
  | .mmDrain a d f r => some (0x5C000000 + a * 0x40000 + d * 0x8000 + f * 0x800 + r * 0x400)
  | .mmSetd d s => some (0x60000000 + d * 0x40000 + s * 0x1)
  | .mmGetd d s => some (0x64000000 + d * 0x40000 + s * 0x1)
  | .mmAdv d => some (0x68000000 + d * 0x8000)
  | .mmLdacc a d => some (0x6C000000 + a * 0x40000 + d * 0x8000)
  | .mmMov a d => some (0x70000000 + a * 0x40000 + d * 0x8000)
  | .cp1d c a b => some (0x50000000 + c * 0x80000 + a * 0x8000 + b * 0x800)
  | .cp2d c a b => some (0x50000001 + c * 0x80000 + a * 0x8000 + b * 0x800)
  | .cp3d c a b => some (0x50000002 + c * 0x80000 + a * 0x8000 + b * 0x800)
  | .cpGat c a b => some (0x50000003 + c * 0x80000 + a * 0x8000 + b * 0x800)
  | .cpSct c a b => some (0x50000004 + c * 0x80000 + a * 0x8000 + b * 0x800)
  | .cpFill c a b => some (0x50000005 + c * 0x80000 + a * 0x8000 + b * 0x800)
  | .cpTol c a b => some (0x50000006 + c * 0x80000 + a * 0x8000 + b * 0x800)
  | .cpFrl c a b => some (0x50000007 + c * 0x80000 + a * 0x8000 + b * 0x800)
  | .cpRedSum c a b => some (0x50000008 + c * 0x80000 + a * 0x8000 + b * 0x800)
  | .cpRedMax c a b => some (0x50000009 + c * 0x80000 + a * 0x8000 + b * 0x800)
  | .cpRedMrg c a b => some (0x5000000A + c * 0x80000 + a * 0x8000 + b * 0x800)
  | .cpMm c a b => some (0x5000000B + c * 0x80000 + a * 0x8000 + b * 0x800)
  | .cpStat d k => some (0x54000000 + d * 0x20000 + k * 0x2000)
  | .cpAbort d k => some (0x54000001 + d * 0x20000 + k * 0x2000)
  | .cpBind n k => some (0x54000002 + n * 0x20000 + k * 0x2000)
  | .plSetup n a k => some (0x58000000 + n * 0x20000 + a * 0x2000 + k * 0x40)
  | .plFire n k => some (0x58000001 + n * 0x20000 + k * 0x40)
  | .plFree n k => some (0x58000002 + n * 0x20000 + k * 0x40)
  | .plStat d k => some (0x58000003 + d * 0x20000 + k * 0x40)
  | .plRedo n a k => some (0x58000004 + n * 0x20000 + a * 0x2000 + k * 0x40)
  | .plGeth d k => some (0x58000005 + d * 0x20000 + k * 0x40)
  | .plSeth a k => some (0x58000006 + a * 0x2000 + k * 0x40)
  | .nmStart n a => some (0x5C000000 + n * 0x20000 + a * 0x2000)
  | .nmFenceBank a => some (0x5C000001 + a * 0x2000)
  | .nmFenceChan a => some (0x5C000041 + a * 0x2000)
  | .nmRatio d a => some (0x5C000002 + d * 0x20000 + a * 0x2000)
  | .nmColl n a => some (0x5C000003 + n * 0x20000 + a * 0x2000)
  | .nmQbc n a => some (0x5C000004 + n * 0x20000 + a * 0x2000)
  | .nmWalk n a => some (0x5C000005 + n * 0x20000 + a * 0x2000)
  | .nmStat d a => some (0x5C000006 + d * 0x20000 + a * 0x2000)
  | .kvAlloc d a => some (0x60000000 + d * 0x20000 + a * 0x2000)
  | .kvFree d a => some (0x60000001 + d * 0x20000 + a * 0x2000)
  | .kvApp d a b => some (0x60000002 + d * 0x20000 + a * 0x2000 + b * 0x200)
  | .kvMap d a => some (0x60000003 + d * 0x20000 + a * 0x2000)
  | .kvShare d a => some (0x60000004 + d * 0x20000 + a * 0x2000)
  | .kvMove d a => some (0x60000005 + d * 0x20000 + a * 0x2000)
  | .kvStatLen d a => some (0x60000006 + d * 0x20000 + a * 0x2000)
  | .kvStatGen d a => some (0x60000046 + d * 0x20000 + a * 0x2000)
  | .kvStatFree d a => some (0x60000086 + d * 0x20000 + a * 0x2000)
  | .kvGen d a b => some (0x60000007 + d * 0x20000 + a * 0x2000 + b * 0x200)
  | .l2Lease d a b => some (0x64000000 + d * 0x20000 + a * 0x2000 + b * 0x200)
  | .l2Rel d a => some (0x64000001 + d * 0x20000 + a * 0x2000)
  | .l2Renew d a b => some (0x64000002 + d * 0x20000 + a * 0x2000 + b * 0x200)
  | .l2Stat d a => some (0x64000003 + d * 0x20000 + a * 0x2000)
  | .l2Dot n a => some (0x64000004 + n * 0x20000 + a * 0x2000)
  | .l2WbL1 n a b => some (0x64000005 + n * 0x20000 + a * 0x2000 + b * 0x200)
  | .l2WbL2 n a b => some (0x64000045 + n * 0x20000 + a * 0x2000 + b * 0x200)
  | .l2InvL1 n a b => some (0x64000006 + n * 0x20000 + a * 0x2000 + b * 0x200)
  | .l2InvL2 n a b => some (0x64000046 + n * 0x20000 + a * 0x2000 + b * 0x200)
  | .l2PfL2 a b => some (0x64000007 + a * 0x2000 + b * 0x200)
  | .l2PfL1 a b => some (0x64000047 + a * 0x2000 + b * 0x200)
  | .fenceArmSig n a b => some (0x68000000 + n * 0x20000 + a * 0x2000 + b * 0x200)
  | .fenceArmTrig n a b => some (0x68000040 + n * 0x20000 + a * 0x2000 + b * 0x200)
  | .fenceArmWr n a b => some (0x68000080 + n * 0x20000 + a * 0x2000 + b * 0x200)
  | .ldC d a s x o => some (0x6C000000 + d * 0x8000 + a * 0x200 + s * 0x80 + x * 0x40 + o * 0x1)
  | .stC d a s o => some (0x70000000 + d * 0x8000 + a * 0x200 + s * 0x80 + o * 0x1)
  | .bnop => none
  | .bact => none
  | .bpre => none
  | .bpra => none
  | .bref => none
  | .bqld => none
  | .bdot => none
  | .bemit => none
  | .bwbc => none
  | .bwacc => none
  | .bwr => none
  | .bwra => none
  | .bclr => none
  | .bscl => none
  | .bwact => none
  | .bwadv => none
  | .bloop => none
  | .bjmp => none
  | .bsync => none
  | .bend => none
  | .bmx => none
  | .resultLanding => none
  | .loadDataArrival => none
  | .storeBufferDrain => none
  | .instructionFetchFill => none
  | .interlockResultReady => none
  | .pageWalk => none
  | .semWaitService => none
  | .semSignalApply => none
  | .gbArrivalApply => none
  | .timelineMarkAdvance => none
  | .copyStart => none
  | .copyComplete => none
  | .copyChunkResend => none
  | .followOnArrival => none
  | .followOnStart => none
  | .followOnComplete => none
  | .matrixDrainComplete => none
  | .nmTableStart => none
  | .matinsPassStart => none
  | .matinsTableStop => none
  | .leaseExpiry => none
  | .xinvComplete => none
  | .planSetupComplete => none
  | .planTriggerDelivery => none
  | .planPartStart => none
  | .planPartComplete => none
  | .mergeNodeCompute => none
  | .chunkHopVerify => none
  | .chunkResend => none
  | .flitReceive => none
  | .laneFailure => none
  | .unplannedRequestTimeout => none
  | .launchPacket => none
  | .barrierAndPacket => none
  | .barrierOrPacket => none
  | .barrierEvaluation => none
  | .copyPacket => none
  | .signalStorePacket => none
  | .signalAddPacket => none
  | .signalTriggerPacket => none
  | .tableLoadPacket => none
  | .packetCompletion => none
  | .gangPlacement => none
  | .taskEnd => none
  | .preemptBoundExpiry => none
  | .preemptSave => none
  | .gangResumption => none
  | .midnightExpiry => none
  | .xinvWrite => none
  | .xresResume => none
  | .xresAbort => none
  | .hsplitWrite => none
  | .kvctlEnable => none
  | .kvctlDisable => none
  | .kvlostWrite => none
  | .pltrigWrite => none
  | .ptcfgWrite => none
  | .contextEntryWrite => none
  | .ctxabWrite => none
  | .queueEnable => none
  | .queueDisable => none
  | .qwrWrite => none
  | .pmreqWrite => none
  | .pmresWrite => none
  | .mnstKick => none
  | .ecownWrite => none
  | .ecHostValueWrite => none
  | .counterWrap => none
  | .atctlGo => none
  | .mctpRequest => none
  | .hostBarAccess => none
  | .registerWrite => none
  | .powerControlUpdate => none
  | .correctedError => none
  | .uncorrectableError => none
  | .coreSpareTakeover => none
  | .dawnStartup => none
  | .routeRecovery => none
  | .kvOperationComplete => none
  | .powerLoss => none

/-- The 64-bit word of a bank command with its operands (R78, R79, R298); none for any other instruction. -/
def encodeBank (i : Instr) (o : BankOps) : Option Nat :=
  match i with
  | .bnop => some (0x0 + o.w * 0x4000000000000)
  | .bact => some (0x400000000000000 + o.w * 0x4000000000000 + o.b * 0x100000000000 + o.r * 0x10000000)
  | .bpre => some (0x800000000000000 + o.w * 0x4000000000000 + o.b * 0x100000000000)
  | .bpra => some (0xC00000000000000 + o.w * 0x4000000000000)
  | .bref => some (0x1000000000000000 + o.w * 0x4000000000000 + o.b * 0x100000000000)
  | .bqld => some (0x1400000000000000 + o.w * 0x4000000000000 + o.q * 0x10000000)
  | .bdot => some (0x1800000000000000 + o.w * 0x4000000000000 + o.b * 0x100000000000 + o.r * 0x10000000 + o.col * 0x100000 + o.os * 0x10000 + o.sq * 0x10)
  | .bemit => some (0x1C00000000000000 + o.w * 0x4000000000000 + o.b * 0x100000000000 + o.col * 0x100000 + o.os * 0x10000 + o.sq * 0x10)
  | .bwbc => some (0x2000000000000000 + o.w * 0x4000000000000 + o.b * 0x100000000000)
  | .bwacc => some (0x2400000000000000 + o.w * 0x4000000000000 + o.b * 0x100000000000 + o.r * 0x10000000 + o.col * 0x100000 + o.os * 0x10000 + o.sq * 0x10)
  | .bwr => some (0x2800000000000000 + o.w * 0x4000000000000 + o.b * 0x100000000000 + o.r * 0x10000000 + o.col * 0x100000 + o.os * 0x10000 + o.sq * 0x10)
  | .bwra => some (0x2C00000000000000 + o.w * 0x4000000000000 + o.b * 0x100000000000 + o.r * 0x10000000 + o.os * 0x10000 + o.sq * 0x10)
  | .bclr => some (0x3000000000000000 + o.w * 0x4000000000000 + o.b * 0x100000000000 + o.all * 0x8000000)
  | .bscl => some (0x3400000000000000 + o.w * 0x4000000000000 + o.b * 0x100000000000 + o.r * 0x10000000 + o.col * 0x100000 + o.os * 0x10000 + o.sq * 0x10)
  | .bwact => some (0x3800000000000000 + o.w * 0x4000000000000 + o.b * 0x100000000000 + o.wk * 0x10000000)
  | .bwadv => some (0x3C00000000000000 + o.w * 0x4000000000000 + o.wk * 0x10000000)
  | .bloop => some (0x4000000000000000 + o.w * 0x4000000000000 + o.lp * 0x100000000000 + o.tgt * 0x10000000 + o.cnt * 0x100000)
  | .bjmp => some (0x4400000000000000 + o.w * 0x4000000000000 + o.tgt * 0x10000000)
  | .bsync => some (0x4800000000000000 + o.w * 0x4000000000000 + o.os * 0x10000 + o.sq * 0x10)
  | .bend => some (0x4C00000000000000 + o.w * 0x4000000000000)
  | .bmx => some (0x5000000000000000 + o.w * 0x4000000000000 + o.os * 0x10000 + o.sq * 0x10)
  | .nop => none
  | .add _ _ _ _ => none
  | .sub _ _ _ _ => none
  | .and _ _ _ _ => none
  | .or _ _ _ _ => none
  | .xor _ _ _ _ => none
  | .andn _ _ _ _ => none
  | .orn _ _ _ _ => none
  | .xnor _ _ _ _ => none
  | .sll _ _ _ _ => none
  | .srl _ _ _ _ => none
  | .sra _ _ _ _ => none
  | .ror _ _ _ _ => none
  | .min _ _ _ _ => none
  | .max _ _ _ _ => none
  | .minu _ _ _ _ => none
  | .maxu _ _ _ _ => none
  | .addi _ _ _ _ => none
  | .andi _ _ _ _ => none
  | .ori _ _ _ _ => none
  | .xori _ _ _ _ => none
  | .slli _ _ _ _ => none
  | .srli _ _ _ _ => none
  | .srai _ _ _ _ => none
  | .rori _ _ _ _ => none
  | .li _ _ _ => none
  | .lix _ _ _ => none
  | .cmp _ _ _ _ _ => none
  | .cmpi _ _ _ _ _ => none
  | .pand _ _ _ _ => none
  | .por _ _ _ _ => none
  | .pxor _ _ _ _ => none
  | .pandn _ _ _ _ => none
  | .pnot _ _ _ => none
  | .pmov _ _ _ => none
  | .pset _ _ => none
  | .pclr _ _ => none
  | .brp _ _ _ => none
  | .brpx _ _ _ => none
  | .br _ _ => none
  | .brL _ _ _ => none
  | .loop _ _ _ _ => none
  | .loopi _ _ _ _ => none
  | .csrr _ _ _ => none
  | .csrw _ _ _ => none
  | .semWait _ _ _ => none
  | .semSig _ _ _ => none
  | .semTry _ _ _ => none
  | .semRd _ _ _ => none
  | .gbArr _ _ => none
  | .gbWait _ _ => none
  | .gbSync _ _ => none
  | .fenceTlw _ _ _ _ => none
  | .mul _ _ _ _ => none
  | .mulh _ _ _ _ => none
  | .mulhu _ _ _ _ => none
  | .mulhsu _ _ _ _ => none
  | .div _ _ _ _ => none
  | .divu _ _ _ _ => none
  | .rem _ _ _ _ => none
  | .remu _ _ _ _ => none
  | .addw _ _ _ _ => none
  | .subw _ _ _ _ => none
  | .mulw _ _ _ _ => none
  | .sllw _ _ _ _ => none
  | .srlw _ _ _ _ => none
  | .sraw _ _ _ _ => none
  | .divw _ _ _ _ => none
  | .remw _ _ _ _ => none
  | .clz _ _ _ => none
  | .ctz _ _ _ => none
  | .popc _ _ _ => none
  | .brev _ _ _ => none
  | .sextb _ _ _ => none
  | .sexth _ _ _ => none
  | .sextw _ _ _ => none
  | .zextw _ _ _ => none
  | .sel _ _ _ _ => none
  | .ld _ _ _ _ _ _ => none
  | .st _ _ _ _ _ => none
  | .ldsp _ _ _ _ _ _ => none
  | .stsp _ _ _ _ _ => none
  | .ldAcq _ _ _ _ _ => none
  | .stRel _ _ _ _ _ => none
  | .amAddW _ _ _ _ _ => none
  | .amSwapW _ _ _ _ _ => none
  | .amCasW _ _ _ _ _ => none
  | .amAndW _ _ _ _ _ => none
  | .amOrW _ _ _ _ _ => none
  | .amXorW _ _ _ _ _ => none
  | .amMaxW _ _ _ _ _ => none
  | .amMinW _ _ _ _ _ => none
  | .amAddD _ _ _ _ _ => none
  | .amSwapD _ _ _ _ _ => none
  | .amCasD _ _ _ _ _ => none
  | .amAndD _ _ _ _ _ => none
  | .amOrD _ _ _ _ _ => none
  | .amXorD _ _ _ _ _ => none
  | .amMaxD _ _ _ _ _ => none
  | .amMinD _ _ _ _ _ => none
  | .scLd _ _ _ _ _ _ => none
  | .scSt _ _ _ _ _ _ => none
  | .scAccessIssue => none
  | .fenceAcq _ _ => none
  | .fenceRel _ _ => none
  | .fenceAr _ _ => none
  | .ecRd _ _ _ => none
  | .ecCfg _ _ _ => none
  | .ecOn _ _ => none
  | .ecOff _ _ => none
  | .sysEnd _ => none
  | .yield _ => none
  | .sysArg _ _ _ => none
  | .sysAbort _ _ => none
  | .trap _ _ => none
  | .vesper _ _ => none
  | .vadd _ _ _ _ => none
  | .vsub _ _ _ _ => none
  | .vmul _ _ _ _ => none
  | .vdiv _ _ _ _ => none
  | .vmin _ _ _ _ => none
  | .vmax _ _ _ _ => none
  | .vminp _ _ _ _ => none
  | .vmaxp _ _ _ _ => none
  | .viadd _ _ _ _ _ => none
  | .visub _ _ _ _ _ => none
  | .vimul _ _ _ _ _ => none
  | .viand _ _ _ _ => none
  | .vior _ _ _ _ => none
  | .vixor _ _ _ _ => none
  | .vishl _ _ _ _ => none
  | .vishr _ _ _ _ => none
  | .visra _ _ _ _ => none
  | .vimin _ _ _ _ => none
  | .vimax _ _ _ _ => none
  | .vfma _ _ _ _ _ => none
  | .vfms _ _ _ _ _ => none
  | .vsel _ _ _ _ _ => none
  | .vmov _ _ _ => none
  | .vneg _ _ _ => none
  | .vabs _ _ _ => none
  | .vexp2 _ _ _ => none
  | .vlog2 _ _ _ => none
  | .vrcp _ _ _ => none
  | .vrsqrt _ _ _ => none
  | .vsqrt _ _ _ => none
  | .vcvt _ _ _ _ => none
  | .vqlg6 _ _ _ _ => none
  | .vqint8 _ _ _ _ => none
  | .vdq _ _ _ => none
  | .vscl _ _ _ _ => none
  | .vperm _ _ _ _ => none
  | .vunpk4 _ _ _ => none
  | .vtr8 _ _ _ => none
  | .vrsum _ _ _ => none
  | .vrmax _ _ _ => none
  | .vrmin _ _ _ => none
  | .vrmaxp _ _ _ => none
  | .vrminp _ _ _ => none
  | .virsum _ _ _ => none
  | .vany _ _ _ => none
  | .vall _ _ _ => none
  | .vmrg _ _ _ _ => none
  | .vck _ _ _ => none
  | .vcmpEq _ _ _ _ => none
  | .vcmpNe _ _ _ _ => none
  | .vcmpLt _ _ _ _ => none
  | .vcmpLe _ _ _ _ => none
  | .vcmpUn _ _ _ _ => none
  | .vsetq _ _ _ _ => none
  | .vgetq _ _ _ _ => none
  | .vadvq _ _ _ _ => none
  | .vcntq _ _ _ => none
  | .vld _ _ _ _ => none
  | .vst _ _ _ _ => none
  | .vloop _ _ _ _ => none
  | .vstg _ _ => none
  | .mmMac _ _ _ _ => none
  | .mmMul _ _ _ _ => none
  | .mmZero _ => none
  | .mmDrain _ _ _ _ => none
  | .mmSetd _ _ => none
  | .mmGetd _ _ => none
  | .mmAdv _ => none
  | .mmLdacc _ _ => none
  | .mmMov _ _ => none
  | .cp1d _ _ _ => none
  | .cp2d _ _ _ => none
  | .cp3d _ _ _ => none
  | .cpGat _ _ _ => none
  | .cpSct _ _ _ => none
  | .cpFill _ _ _ => none
  | .cpTol _ _ _ => none
  | .cpFrl _ _ _ => none
  | .cpRedSum _ _ _ => none
  | .cpRedMax _ _ _ => none
  | .cpRedMrg _ _ _ => none
  | .cpMm _ _ _ => none
  | .cpStat _ _ => none
  | .cpAbort _ _ => none
  | .cpBind _ _ => none
  | .plSetup _ _ _ => none
  | .plFire _ _ => none
  | .plFree _ _ => none
  | .plStat _ _ => none
  | .plRedo _ _ _ => none
  | .plGeth _ _ => none
  | .plSeth _ _ => none
  | .nmStart _ _ => none
  | .nmFenceBank _ => none
  | .nmFenceChan _ => none
  | .nmRatio _ _ => none
  | .nmColl _ _ => none
  | .nmQbc _ _ => none
  | .nmWalk _ _ => none
  | .nmStat _ _ => none
  | .kvAlloc _ _ => none
  | .kvFree _ _ => none
  | .kvApp _ _ _ => none
  | .kvMap _ _ => none
  | .kvShare _ _ => none
  | .kvMove _ _ => none
  | .kvStatLen _ _ => none
  | .kvStatGen _ _ => none
  | .kvStatFree _ _ => none
  | .kvGen _ _ _ => none
  | .l2Lease _ _ _ => none
  | .l2Rel _ _ => none
  | .l2Renew _ _ _ => none
  | .l2Stat _ _ => none
  | .l2Dot _ _ => none
  | .l2WbL1 _ _ _ => none
  | .l2WbL2 _ _ _ => none
  | .l2InvL1 _ _ _ => none
  | .l2InvL2 _ _ _ => none
  | .l2PfL2 _ _ => none
  | .l2PfL1 _ _ => none
  | .fenceArmSig _ _ _ => none
  | .fenceArmTrig _ _ _ => none
  | .fenceArmWr _ _ _ => none
  | .ldC _ _ _ _ _ => none
  | .stC _ _ _ _ => none
  | .resultLanding => none
  | .loadDataArrival => none
  | .storeBufferDrain => none
  | .instructionFetchFill => none
  | .interlockResultReady => none
  | .pageWalk => none
  | .semWaitService => none
  | .semSignalApply => none
  | .gbArrivalApply => none
  | .timelineMarkAdvance => none
  | .copyStart => none
  | .copyComplete => none
  | .copyChunkResend => none
  | .followOnArrival => none
  | .followOnStart => none
  | .followOnComplete => none
  | .matrixDrainComplete => none
  | .nmTableStart => none
  | .matinsPassStart => none
  | .matinsTableStop => none
  | .leaseExpiry => none
  | .xinvComplete => none
  | .planSetupComplete => none
  | .planTriggerDelivery => none
  | .planPartStart => none
  | .planPartComplete => none
  | .mergeNodeCompute => none
  | .chunkHopVerify => none
  | .chunkResend => none
  | .flitReceive => none
  | .laneFailure => none
  | .unplannedRequestTimeout => none
  | .launchPacket => none
  | .barrierAndPacket => none
  | .barrierOrPacket => none
  | .barrierEvaluation => none
  | .copyPacket => none
  | .signalStorePacket => none
  | .signalAddPacket => none
  | .signalTriggerPacket => none
  | .tableLoadPacket => none
  | .packetCompletion => none
  | .gangPlacement => none
  | .taskEnd => none
  | .preemptBoundExpiry => none
  | .preemptSave => none
  | .gangResumption => none
  | .midnightExpiry => none
  | .xinvWrite => none
  | .xresResume => none
  | .xresAbort => none
  | .hsplitWrite => none
  | .kvctlEnable => none
  | .kvctlDisable => none
  | .kvlostWrite => none
  | .pltrigWrite => none
  | .ptcfgWrite => none
  | .contextEntryWrite => none
  | .ctxabWrite => none
  | .queueEnable => none
  | .queueDisable => none
  | .qwrWrite => none
  | .pmreqWrite => none
  | .pmresWrite => none
  | .mnstKick => none
  | .ecownWrite => none
  | .ecHostValueWrite => none
  | .counterWrap => none
  | .atctlGo => none
  | .mctpRequest => none
  | .hostBarAccess => none
  | .registerWrite => none
  | .powerControlUpdate => none
  | .correctedError => none
  | .uncorrectableError => none
  | .coreSpareTakeover => none
  | .dawnStartup => none
  | .routeRecovery => none
  | .kvOperationComplete => none
  | .powerLoss => none

/-- The instruction the decoder reads from a word of the opcode table (the four maps share words, so a 32-bit word is
read by the first of the maps S, V, M, C that assigns it; a 64-bit word is a bank command: log 8). -/
def decodeTableWord (nbits w : Nat) : Option Instr :=
  if nbits = 64 then (decodeBank w).toOption.map Prod.fst
  else (decode .s w).toOption.orElse fun _ => (decode .v w).toOption.orElse fun _ =>
    (decode .m w).toOption.orElse fun _ => (decode .c w).toOption

/-- The stream whose map `decodeTableWord` reads a 32-bit word by. -/
def tableStream (w : Nat) : StreamId :=
  if (decode .s w).isOk then .s else if (decode .v w).isOk then .v else if (decode .m w).isOk then .m else .c

end Sys2Proof
end

