-- ==== Sys2Proof/Machine/State.lean ====
section
/-!
DEFINITION. Sys2Proof/Machine/State.lean: the state of the machine as plain data: the scale-up domain, its packages,
dies, cores, tasks, streams and memory channels. Everything that exists many times is kept in a list of keyed entries in
rising order of key, where an absent key means the entry's default.
-/

namespace Sys2Proof.Machine

/-- Entries by number, rising, none equal to the default that an absent number stands for. -/
abbrev Tab (α : Type) := List (Nat × α)

/-! ### Streams -/

/-- What a result puts where when it lands (R91). -/
inductive Land where
  | none
  | regs (l : List (Nat × Word64))
  | pred (p : Nat) (v : Bool)
  | breg (b : Nat) (v : Word32)
  | qreg (q : Nat) (v : QWord)
  | dreg (d : Nat) (v : DWord)
  | dset (d : Nat) (v : DWord)
  | acc (a : Nat) (tile : List Word32)
  | spad (bytes : List (Nat × Byte))
  | stg (v : Nat) (preds : List (Nat × Bool))
  | mask (v : Nat) (preds : List (Nat × Bool))
  | hreg (k : Nat) (v : Word64)
  deriving DecidableEq, Repr

/-- What becomes of the bytes a load brings: a scalar register, scratchpad bytes in the
order of the addresses, or the old value of an atomic update (operation, register, size, operand, new value of a cas). -/
inductive LoadHow where
  | reg (r : Nat) (size : Nat) (sext : Bool)
  | spad (dst : List Nat)
  | atomic (op r size : Nat) (v new : Nat)
  deriving DecidableEq, Repr

/-- A release that a write to memory carries (R211): who made it, its scope code (R205), and the writes that happen before it,
by their numbers. -/
structure Rel where
  core : Nat
  st : StreamId
  sc : Nat
  view : List Nat
  deriving DecidableEq, Repr

/-- A write that a stream's accesses must see (R208, R211): its number, and the stream's first access that must. -/
structure Seen where
  n : Nat
  first : Nat := 0
  deriving DecidableEq, Repr

/-- A load that has not sampled memory: its physical bytes in the order of its value; its virtual address and the stream cycle,
pc and word of its instruction, for a fault record (R423); SO and UN pages (R209), acquire and release with the scope they name
(R212), an SC access (`hard`), and for an atomic the fences before it, newest first, each the access it follows and the scope (R213); what the
caches do with its lines (R245): L1 takes them, and L2 not (0), as usual (1), first to be evicted (2) or as clean copies (3). -/
structure LoadReq where
  addrs : List Nat
  how : LoadHow
  va : Nat := 0
  org : Nat × Nat × Nat := (0, 0, 0)
  so : Bool := false
  un : Bool := false
  acq : Bool := false
  rel : Bool := false
  sc : Nat := 0
  hard : Bool := false
  fen : List (Nat × Nat) := []
  remote : Bool := false
  fill : Bool := false
  l2 : Nat := 0
  deriving DecidableEq, Repr

/-- A result in flight (R91): due cycle, issue cycle, what lands, an unsampled load, what it still waits for (0 nothing,
3 data, 10 the interlocked unit), the flags it lands (R162), and whether it holds a shadow tile (R180). -/
structure Flight where
  due : Nat
  iss : Nat
  seq : Nat
  land : Land
  req : Option LoadReq := none
  wait : Nat := 0
  fl : Nat := 0
  shadow : Bool := false
  krow : Option Nat := none
  deriving DecidableEq, Repr

/-- A store-buffer entry (R123): physical bytes; SO and UN pages (R209); a release with its scope (R212); the fences
before it, as in a load request (R213); what the caches do with its lines (R245); its virtual address and the cycle, pc and word of its
instruction, for a fault record (R423). -/
structure SbEnt where
  seq : Nat
  cells : List (Nat × Byte)
  so : Bool
  rel : Bool
  un : Bool := false
  sc : Nat := 0
  fen : List (Nat × Nat) := []
  fill : Bool := false
  l2 : Nat := 0
  remote : Bool := false
  va : Nat := 0
  org : Nat × Nat × Nat := (0, 0, 0)
  deriving DecidableEq, Repr

/-- A translation kept in a TLB (R240): context, page number, page size as a power of two, the leaf entry (R238), and that its unit is
poisoned (R428). -/
structure TlbEnt where
  ctx : Nat
  vpn : Nat
  bits : Nat
  pte : Nat
  bad : Bool := false
  deriving DecidableEq, Repr

/-- A hardware loop counter (R105, R178): count, hidden start and end, active and vector marks, order of issue. -/
structure Loop where
  cnt : Word32 := 0
  start : Nat := 0
  stop : Nat := 0
  act : Bool := false
  vec : Bool := false
  ord : Nat := 0
  deriving DecidableEq, Repr

/-- An instruction that occupies several issue cycles (R158, R187): the next beat, the total, the cycles between reads,
whether its guard was true, what it read at issue, what its beats have gathered and the tile it builds. -/
structure Occ where
  ins : Instr
  beat : Nat := 0
  total : Nat := 1
  step : Nat := 1
  go : Bool := true
  qs : List QWord := []
  ds : List DWord := []
  addr : Nat := 0
  data : List (List Nat) := []
  tile : List Word32 := []
  fl : Nat := 0
  deriving DecidableEq, Repr

/-- How a stopped stream goes on (R101, R419): the access tries again, the next word issues, or it never does (`stop`: its
word has ended; `never`: it stands before its word). -/
inductive Resume where
  | retry | cont | stop | never
  deriving DecidableEq, Repr

/-- What a stream is doing (R101, R107, R416). -/
inductive Status where
  | idle | running | ended
  | stopped (seq : Nat) (how : Resume)
  deriving DecidableEq, Repr

/-- One stream of a task (R63, R90 to R109): registers, branch targets, loops and how many have started, flags, pc and cycle;
pending transfers and a skipped body; results in flight and the number of the next access; an occupancy; the freeze it is in,
whether its word has issued (`redo`) with the word's own phase, the page it waits for and what its walk answered; word, `frz` and
`frzw` with whether this freeze is counted (R434); instruction, status, store buffer, its release
fences, as in a load request, each as long as no later one is as wide (R213), the writes it must see and the releases its loads have read (R211), the wheel
with turn × 2^13 + hour of an SC access still to be performed (R226), micro-TLB, the translations that the
access under way has found (R176, R188), code region. -/
structure Stream where
  regs : List Word64 := []
  b : List Word32 := []
  lc : List Loop := []
  loops : Nat := 0
  fflags : Nat := 0
  pc : Nat := 0
  cyc : Nat := 0
  brs : List (Nat × Nat) := []
  skip : Option Nat := none
  flights : List Flight := []
  seq : Nat := 0
  occ : Option Occ := none
  frozen : Option Nat := none
  redo : Bool := false
  phase : Nat := 0
  miss : Option Nat := none
  walkRes : Option (Nat × Nat) := none
  word : Nat := 0
  frz : Nat := 0
  frzw : Nat := 0
  frzc : Bool := false
  held : Option Instr := none
  status : Status := .idle
  sbuf : List SbEnt := []
  fen : List (Nat × Nat) := []
  seen : List Seen := []
  heard : List (Nat × Rel) := []
  stamp : Option (Bool × Nat) := none
  utlb : List TlbEnt := []
  got : List TlbEnt := []
  regOff : Nat := 0
  regLen : Nat := 0
  deriving DecidableEq, Repr

/-! ### Tasks and cores -/

/-- A semaphore (R128): count, ceiling and the waiters, oldest first, each a stream number and its k. -/
structure Sem where
  cnt : Nat := 0
  ceil : Nat := 0
  waiters : List (Nat × Nat) := []
  deriving DecidableEq, Repr

/-- A semaphore instruction of this wall cycle that R134 orders after its signals: a wait, a `sem.try` or a `sem.rd` with the
number of its result in flight. -/
inductive SemAsk where
  | wait (st : StreamId) (n k : Nat)
  | try' (st : StreamId) (n p seq : Nat)
  | read (st : StreamId) (n r seq : Nat)
  deriving DecidableEq, Repr

/-- A predicate write on its way to another stream (R140): reader, predicate, value, landing wall cycle; its writer, and the
semaphores (n) and gang barriers (64 + n) of the releases that cover it (R141). -/
structure Prop' where
  reader : Nat
  p : Nat
  v : Bool
  wall : Nat
  writer : Nat := 0
  cov : List Nat := []
  deriving DecidableEq, Repr

/-- A timeline counter (R217): count, mark, and the numbers above the mark that are complete. -/
structure Tl where
  count : Nat := 0
  mark : Nat := 0
  done : List Nat := []
  deriving DecidableEq, Repr

/-- What an armed action does (R220). -/
inductive ArmKind where
  | sig (n k : Nat)
  | trig (v : Nat)
  | wr (pa v : Nat)
  deriving DecidableEq, Repr

/-- An armed action (R220): counter, threshold, kind; the pool keeps arming order. `late` says that the threshold was
reached at arming (R221), `seq` which accesses of the C stream come before it. One that has fired has its effect once those are
performed. -/
structure Arm where
  tl : Nat
  thr : Nat
  kind : ArmKind
  late : Bool := false
  seq : Nat := 0
  deriving DecidableEq, Repr

/-- A copy or a follow-on attachment (fn 11) in a channel's queue (R258 to R283): its number and counter, form, the
double-words of its block, offsets and tag increment as read at issue, the lease it names (R267), the C stream's accesses before
it, its progress point with the index of the iteration under way, the scratchpad pages it has written (R272), whether it has started (R260) and its walk is
over, the sends of its current chunk (R277), the wall cycle in which an attachment became ready (R200), and the bytes that later copies
of its channel have written, which it writes no more (R266). -/
structure Copy where
  num : Nat := 0
  tl : Nat := 0
  fn : Nat := 0
  blk : List Nat := []
  offs : Nat := 0
  inc : Nat := 0
  lid : Nat := 0
  seq : Nat := 0
  f : Nat := 0
  o : Nat := 0
  ix : Option Int := none
  pages : List Nat := []
  walked : Bool := false
  sends : Nat := 0
  ready : Option Nat := none
  begun : Bool := false
  later : List Nat := []
  deriving DecidableEq, Repr

/-- A copy channel (R258, R259, R280): bound counter, last number, halted, replayable fault outstanding, queue. -/
structure CopyCh where
  tl : Nat := 0
  last : Nat := 0
  hs : Bool := false
  pf : Option Nat := none
  q : List Copy := []
  deriving DecidableEq, Repr

/-- A lease (R248): context, base virtual address, size in MiB, the physical address of each of its 64 KiB pages, the
slice of each unit, the expiry tick, and its place in the order of the die's leases, which tells it from a later lease of its handle. -/
structure Lease where
  ctx : Nat
  base : Nat
  size : Nat
  frames : List Nat
  units : List Nat
  expiry : Nat
  id : Nat := 0
  deriving DecidableEq, Repr

/-- An `l2.dot` operation whose checks have passed (R253): its query, scale and output address, and for each slice the entries still to
start and the partial so far. -/
structure DotRun where
  q : List Nat
  c : Nat
  out : Nat
  todo : List (List Nat)
  part : List (List Nat)
  deriving DecidableEq, Repr

/-- An `l2.dot` operation accepted and not complete (R252): counter, number, control block address, the leases its context held
at issue by handle, what runs of it, and the record number of its outstanding fault. -/
structure LDot where
  tl : Nat
  num : Nat
  va : Nat
  held : List (Nat × Lease) := []
  seq : Nat := 0
  run : Option DotRun := none
  pf : Option Nat := none
  deriving DecidableEq, Repr

/-- An event counter (R435): value, enable, overflow, trap, event, owner kind and context, refused write; the events of
this wall cycle and the instructions of this wall cycle that change it (R439); a wrap whose record or interrupt is due (R437). -/
structure Ec where
  value : Nat := 0
  en : Bool := false
  ovf : Bool := false
  trap : Bool := false
  event : Nat := 0
  kind : Nat := 0
  ctx : Nat := 0
  rej : Bool := false
  acc : Nat := 0
  pend : List Nat := []
  wrapped : Bool := false
  deriving DecidableEq, Repr

/-- A follow-on command of the matrix queue (R199), known by its place in the order of arrival; whether it has asked for
lines or walks of its next group, and the address of a line that never comes; one that has failed writes nothing and is never complete
(`dead`). -/
structure Follow where
  id : Nat := 0
  num : Nat := 0
  numTl : Option Nat := none
  ch : Nat := 0
  mul : Bool
  acc : Nat
  tr : Nat
  da : DWord
  db : DWord
  ea : DWord := 0
  eb : DWord := 0
  running : Bool := false
  beat : Nat := 0
  endWall : Option Nat := none
  asked : Bool := false
  walking : Bool := false
  lost : Option Nat := none
  dead : Bool := false
  tile : List Word32 := []
  fl : Nat := 0
  deriving DecidableEq, Repr

/-- A near-memory operation accepted and not complete (R311): 0 start, 1 collect, 2 query broadcast, 3 walk fill; its
counter and number, its block, the channels it has not treated, the bytes it has moved, the C stream's accesses before it, its
outstanding fault. -/
structure NmOp where
  kind : Nat
  tl : Nat
  num : Nat
  blk : List Nat
  left : List Nat := []
  got : List Nat := []
  seq : Nat := 0
  pf : Option Nat := none
  deriving DecidableEq, Repr

/-- A task resident on a core (R389): what its launch gave it and its own registers; for the matrix engine the lines of its staging
buffer with the contents of those that are register windows, the micro-TLB of its load pipes (R240), the last wall cycle in which the M stream occupied the array (R199), and how many
follow-on commands have arrived. -/
structure Task where
  ctx : Nat := 0
  grid : Nat := 0
  gang : Nat := 0
  rank : Nat := 0
  gsize : Nat := 1
  part : Nat := 0
  image : Nat := 0
  lata : Nat := Config.latn
  spadBytes : Nat := 0
  cause : Nat := 0
  s : Stream := {}
  v : Stream := {}
  m : Stream := {}
  c : Stream := {}
  sems : List Sem := []
  semq : List SemAsk := []
  pnow : List Bool := []
  pview : List (List Bool) := []
  pprop : List Prop' := []
  bars : List Nat := []
  mine : List (Option Nat) := []
  tls : List Tl := []
  armed : List Arm := []
  fired : List Arm := []
  q : List QWord := []
  stg : Nat := 0
  qrot : Nat := 0
  tagsel : Nat := 0
  d : List DWord := []
  acc : List (List Word32) := []
  mmtl : Nat := 0
  staged : List Nat := []
  mwin : Tab Nat := []
  mtlb : List TlbEnt := []
  mmWall : Option Nat := none
  follow : List Follow := []
  nfollow : Nat := 0
  ch : List CopyCh := []
  h : List Word64 := []
  ldots : List LDot := []
  nms : List NmOp := []
  hsel : Nat := 0
  pkgHours : List Nat := []
  domHours : List Nat := []
  nmr : Nat := 0
  args : Nat := 0
  alen : Nat := 0
  save : Nat := 0
  queue : Nat := 0
  pidx : Nat := 0
  vesp : List (List Nat) := []
  halt : Option (Nat × Nat) := none
  start : Nat := 0
  deriving DecidableEq, Repr

/-- A saved task (R408 to R411): its core, the header's kind and vesper point, the task with what its scratchpad and tags
held, the channels held for it. -/
structure SavedTask where
  core : Nat
  kind : Nat
  n : Nat
  task : Task
  spad : List (Nat × Byte) := []
  seed : Nat := 0
  tags : Tab Nat := []
  chans : List Nat := []
  deriving DecidableEq, Repr

/-- A saved gang (R407): package, `taskid` without its rank, partition, queue, the barriers' counts, its tasks; asked to
resume. -/
structure Saved where
  pkg : Nat
  gang : Nat
  part : Nat
  queue : Nat
  bars : List (Nat × Nat × Nat × Nat) := []
  tasks : List SavedTask := []
  resume : Bool := false
  deriving DecidableEq, Repr

/-- A core (R14, R147): scratchpad bytes written since the seed was drawn, sequence tags, caches by their lines. -/
structure Core where
  spad : List (Nat × Byte) := []
  seed : Nat := 0
  tags : Tab Nat := []
  icache : List (Nat × Nat) := []
  l1 : List (Nat × Bool) := []
  tlb : List TlbEnt := []
  remote : Nat := 0
  ec : Tab Ec := []
  errs : List Nat := []
  failed : Bool := false
  out : Bool := false
  task : Option Task := none
  deriving DecidableEq, Repr

/-- A walk in the queue of a die (R241): context, virtual address. -/
structure Walk where
  ctx : Nat
  va : Nat
  deriving DecidableEq, Repr

/-- A physical gang barrier (R143, R144): owning gang (1 + its `taskid` without the rank), expected, arrived, phase. -/
structure GBar where
  owner : Nat := 0
  expected : Nat := 0
  next : Nat := 0
  arrived : Nat := 0
  phase : Nat := 0
  deriving DecidableEq, Repr

/-- A compute die (R14, R18): its TLB, walk queue and the walks its walkers are at, the lines of its sixteen L2 slices with a mark of
the dirty ones (R244), tile table, gang barriers, leases and how many there have been, counters, spare cores, copies of queue
packets. -/
structure Die where
  tlb : List TlbEnt := []
  l2 : List (Nat × Bool) := []
  walkq : List Walk := []
  walkers : List Walk := []
  tiles : Tab DWord := []
  gbars : Tab GBar := []
  leases : List (Nat × Lease) := []
  nlease : Nat := 0
  ec : Tab Ec := []
  spares : Nat := 16
  qcopies : List (Nat × Nat × Copy) := []
  deriving DecidableEq, Repr

/-! ### Memory channels (R288) -/

/-- The weights of a bank unit (R301, R302). -/
inductive Weight where
  | skip | replace | nan
  | scale (e1 e2 : Nat)
  deriving DecidableEq, Repr

/-- A merge slot (R288): running maximum, sum, status word, pending score, pending flags. -/
structure Slot where
  m : Nat := 0xFF800000
  s : Nat := 0
  st : Nat := 0
  pend : Option Nat := none
  pfl : Nat := 0
  deriving DecidableEq, Repr

/-- A bank with its bank unit (R288, R293): open row, cycle of its activation, cycle in which its precharge takes effect,
last access and refresh; page flags, valid tokens, dot accumulator, skip flag, accumulator vector, weights, registers. -/
structure Bank where
  row : Option Nat := none
  act : Option Nat := none
  pre : Option Nat := none
  acc : Option Nat := none
  ref : Option Nat := none
  nul : Bool := false
  abs : Bool := false
  stl : Bool := false
  lim : Nat := 4
  dot : Nat := 0x80000000
  sk : Bool := false
  a : Tab Nat := []
  w : Weight := .skip
  br : List (BitVec 256) := [0, 0, 0, 0]
  deriving DecidableEq, Repr

/-- A walk register (R288, R307). -/
structure WalkReg where
  ent : List Nat := []
  len : Nat := 0
  ptr : Nat := 0
  deriving DecidableEq, Repr

/-- Where a bank command's result goes when it lands (R291, R298). -/
inductive BLand where
  | dot (b v : Nat) | sk (b : Nat) (v : Bool) | acc (b : Nat) (l : List (Nat × Nat)) | weight (b : Nat) (w : Weight)
  | query (data scales : List Nat) | br (b i : Nat) (v : BitVec 256)
  | emit (j : Nat) (x : Option Nat) (f : Nat) | taken (j : Nat) | slot (j m s st : Nat)
  | out (i : Nat) (l : List Nat) | cursor (n : Nat) | page (b : Nat) (nul abs stl : Bool) (lim : Nat) | ptr (w n : Nat)
  | clear (b : Option Nat) | flush
  deriving DecidableEq, Repr

/-- A result of a bank command in flight (R291): due cycle, order of issue, ordering stream, bank (64: none). -/
structure BFlight where
  due : Nat
  seq : Nat
  os : Nat
  bank : Nat
  land : BLand
  deriving DecidableEq, Repr

/-- A numbered command not yet complete (R309): ordering stream, counter and number if bound, when its own effect is
complete, order of issue, bank. -/
structure BNum where
  os : Nat
  tl : Option Nat
  num : Nat
  due : Nat
  seq : Nat
  bank : Nat
  deriving DecidableEq, Repr

/-- A memory channel (R288, R296): table, state (0 none, 1 loaded, 2 running, 3 retired), held, and the rest of `mcst`; its
registers; the query buffer that `bqld` lands in all bank units alike; banks; results in flight; numbered commands; cycle,
cycle of the pass's word 0, cycle of the next word, the cycles before which frozen ones were inserted (R321); passes asked for; the start that runs it and the task's core; whether
the sequencer issues words now; the `taskid` of the task that started it; the banks as the simulated schedule holds them, and the
activation units drawn in the last cycles (R295). -/
structure Chan where
  table : List Nat := []
  state : Nat := 0
  held : Bool := false
  pass : Nat := 0
  widx : Nat := 0
  lres : Nat := 0
  lidx : Nat := 0
  late : Bool := false
  ovf : Bool := false
  thr : Bool := false
  qs : List (List Nat) := []
  wk : List WalkReg := []
  out : Tab Nat := []
  cur : Nat := 0
  ms : Tab Slot := []
  lp : List (Nat × Bool) := [(0, false), (0, false), (0, false), (0, false)]
  round : Nat := 0
  fmt : Nat := 0
  d : Nat := 0
  c : Nat := 0
  q : List Nat := []
  banks : Tab Bank := []
  flights : List BFlight := []
  nums : List BNum := []
  seq : Nat := 0
  cyc : Nat := 0
  base : Nat := 0
  next : Nat := 0
  iced : List Nat := []
  passes : Nat := 0
  jump : Option Nat := none
  live : Bool := false
  owner : Nat := 0
  mask : Nat := 0
  ctr : Nat := 0
  tl : Nat := 0
  num : Nat := 0
  errs : List Nat := []
  task : Nat := 0
  sim : Tab Bank := []
  drawn : List (Nat × Nat) := []
  deriving DecidableEq, Repr

/-! ### Key-value storage (R326 to R332) -/

/-- A map entry (R332): holder package, channel, frame, state (0 empty, 1 valid, 2 absent, 3 moving), fill, generations. -/
structure KvEnt where
  pkg : Nat := 0
  chan : Nat := 0
  frame : Nat := 0
  state : Nat := 0
  fill : Nat := 0
  wgen : Nat := 0
  mgen : Nat := 0
  deriving DecidableEq, Repr

/-- A sequence (R329): sink, window, holders, map area with the frames recorded at its creation, length, map generation,
entries. -/
structure KvSeq where
  sink : Nat
  win : Nat
  holders : List Nat
  area : Nat
  frames : List Nat
  n : Nat := 0
  gen : Nat := 0
  ents : Tab KvEnt := []
  deriving DecidableEq, Repr

/-- A `kv` operation sent and not replied (R334, R335): its instruction and operands, the core and task it came from, the
result in flight that waits for it, the C stream's accesses before it, its remote requests, the cycle, pc and word of its instruction;
the frames of a map area as translated at issue, none where it is refused (R339); the statuses of an append list so far and the homes
that have run dry (R341); its outstanding fault (R342). -/
structure KvOp where
  ins : Instr
  za : Nat
  zb : Nat
  blk : List Nat
  core : Nat
  task : Nat
  fseq : Nat
  seq : Nat
  remote : Nat := 0
  org : Nat × Nat × Nat := (0, 0, 0)
  frames : Option (List Nat) := none
  stats : List (Option Nat) := []
  dry : List Nat := []
  pf : Option Nat := none
  deriving DecidableEq, Repr

/-! ### Fabric and plans (R350 to R385) -/

/-- A fabric port (R350 to R354): state, data lanes in use, spare in use, the peer node (a package, or 8,192 + a switch ID)
with its port, events, checksum mismatches, failed replays in a row, sixty-fourths reserved, that the port has gone down, and that no
training has ended since the Dawn start-up. -/
structure Port where
  state : Nat := 0
  width : Nat := 0
  spu : Bool := false
  peer : Nat := 0
  pport : Nat := 0
  ev : Nat := 0
  ckf : Nat := 0
  replays : Nat := 0
  share : Nat := 0
  down : Bool := false
  fresh : Bool := false
  deriving DecidableEq, Repr

/-- A merge or reduce unit (R379): retired, faults charged, the ticks of the latest charges (R378). -/
structure Unit' where
  ret : Bool := false
  flt : Nat := 0
  times : List Nat := []
  deriving DecidableEq, Repr

/-- A trigger that waits for its part (R369): the numbered operation of a `pl.fire` (`taskid`, counter, number), and the C
stream's accesses before it (R370). -/
structure Trig where
  op : Option (Nat × Nat × Nat) := none
  seq : Nat := 0
  deriving DecidableEq, Repr

/-- A chunk that a drain has handed to a slot (R197, R361): its bytes, the drain's task and number. -/
structure SlotChunk where
  slot : Nat
  bytes : List Nat
  task : Nat
  tl : Option Nat
  num : Nat
  deriving DecidableEq, Repr

/-- A rank of a plan (R360, R369): its table entry, waiting triggers, parts completed, the trigger and the iterations not yet
sent of the part under way, slot chunks not taken, and those taken in the part under way with their iteration. -/
structure PRank where
  pkg : Nat
  core : Nat
  sbase : Nat
  dbase : Nat
  aword : Nat
  trigs : List Trig := []
  done : Nat := 0
  part : Option (Trig × List Nat) := none
  slots : List SlotChunk := []
  taken : List (Nat × List Nat) := []
  deriving DecidableEq, Repr

/-- A loop level of a plan (R359). -/
structure PLevel where
  bound : Nat
  sstride : Int
  dstride : Int
  pa : Int
  pb : Int
  pc : Int
  deriving DecidableEq, Repr

/-- A group of a round under way (R362, R376): round and number, verified unit inputs (2i for member i, 2k + 1 for the
output of node k), sends of each node's output, written, the failed chunks, the `pl.redo` operations that wait, and the verified result with
the places of the columns of it that have not been written (R371). -/
structure Grp where
  q : Nat
  g : Nat
  ins : Tab (List Nat) := []
  sends : Tab Nat := []
  written : Bool := false
  faults : List Nat := []
  redos : List (Nat × Nat × Nat × Nat) := []
  out : List Nat := []
  cols : List (List Nat) := []
  deriving DecidableEq, Repr

/-- A plan (R357 to R361): home, ID, generation, context, state (R383), status, its record, the frames recorded at set-up by
page number, the reserved ports, the set-up operation under way, chunk faults, groups under way. -/
structure Plan where
  home : Nat := 0
  id : Nat := 0
  gen : Nat := 0
  ctx : Nat := 0
  state : Nat := 1
  status : Nat := 0
  op : Nat := 0
  shape : Nat := 0
  acc : Bool := false
  skind : Nat := 0
  step : Bool := false
  tw : Bool := false
  fmt : Nat := 0
  d : Nat := 0
  len : Nat := 0
  tag : Nat := 0
  seq : Nat := 0
  mgen : Nat := 0
  bind : Bool := false
  levels : List PLevel := []
  ranks : List PRank := []
  frames : Tab Nat := []
  res : List (Nat × Nat) := []
  setup : Option (Nat × Nat × Nat × Nat) := none
  flt : Nat := 0
  grps : List Grp := []
  deriving DecidableEq, Repr

/-- A chunk in flight (R373): plan, round, group, what it carries (2i for member i, 2k + 1 for node k), payload, what travels
of it, send count, hop count, tick of its send, the points of its path (node, hop code) and the last that has verified it. -/
structure Chunk where
  plan : Nat
  q : Nat
  g : Nat
  item : Nat
  good : List Nat
  cur : List Nat
  sends : Nat := 1
  hops : Nat := 0
  tick : Nat := 0
  path : List (Nat × Nat) := []
  pos : Nat := 0
  deriving DecidableEq, Repr

/-! ### Queues, partitions, health and power (R386 to R446) -/

/-- A host queue (R392, R393): registers, the packet read and not taken with its index, the tick from which its head is ready, the packets
taken and not complete, the index up to which R403 has written the completion signals, and how often the queue has been disabled. Indexes
count on from 2^64 times that number, so that packets of before a disable that still run keep theirs; a packet read holds the queue's context
after its eight double-words. -/
structure Queue where
  base : Nat := 0
  en : Bool := false
  pri : Nat := 0
  part : Nat := 0
  lg : Nat := 0
  ctx : Nat := 0
  rd : Nat := 0
  wr : Nat := 0
  state : Nat := 0
  code : Nat := 0
  idx : Nat := 0
  head : Option (List Nat) := none
  hidx : Nat := 0
  ready : Option Nat := none
  opens : List (Nat × List Nat) := []
  swapped : Nat := 0
  epoch : Nat := 0
  deriving DecidableEq, Repr

/-- A grid started and not ended (R389, R397): queue, packet index, double-words, context, grid number, gangs placed, gangs
ended, the image's vesper entries and header words that the launch uses. -/
structure Grid where
  queue : Nat
  idx : Nat
  dws : List Nat
  ctx : Nat
  num : Nat
  next : Nat := 0
  ended : Nat := 0
  vesp : List (List Nat) := []
  deriving DecidableEq, Repr

/-- A partition's registers (R406, R413): pre-emption state, reason, tasks forced, bound, gang named, tick of the request;
period, tick at which the running timer reaches 0, what is left of a stopped one; the queue served last at each priority. -/
structure Part where
  pm : Nat := 0
  why : Nat := 0
  forced : Nat := 0
  bnd : Nat := 20
  gang : Nat := 0
  since : Nat := 0
  per : Nat := 2000000
  run : Option Nat := none
  rem : Nat := 0
  last : Tab Nat := []
  deriving DecidableEq, Repr

/-- The power registers (R440, R441) as of the last update: means of the last milliseconds in W, newest first, their mean over the window,
rails, whether avg exceeded cap, the throttle's two steps; the tick from which the next update is due. -/
structure Power where
  cap : Nat := 4400
  win : Nat := 100
  rsp : Nat := 10
  hist : List Nat := []
  avg : Nat := 0
  bind : Bool := false
  rails : List Nat := [0, 0, 0, 0]
  energy : Nat := 0
  mem : Nat := 0
  clk : Nat := 0
  due : Nat := 0
  deriving DecidableEq, Repr

/-- A package. `msix` holds the vectors raised since the Dawn start-up, whose own is 10 (R443, R444). -/
structure Pkg where
  hsplit : Tab Nat := []
  cpat : Tab Nat := []
  reach : List Nat := []
  ctxs : Tab (BitVec 128) := []
  kvEn : Bool := false
  pairs : Tab Nat := []
  seqs : List (Nat × KvSeq) := []
  kvOps : List (Nat × KvOp) := []
  kvNext : Nat := 0
  ports : Tab Port := []
  units : Tab Unit' := []
  plans : Tab Nat := []
  planGen : Tab Nat := []
  planFreed : List (Nat × Nat × Nat) := []
  plStale : Nat := 0
  plAge : Nat := 0
  plTovf : Nat := 0
  plCflt : Nat := 0
  ckinj : Nat := 0
  queues : Tab Queue := []
  grids : List Grid := []
  gridNo : Tab Nat := []
  parts : Tab Part := []
  domMap : Tab Nat := []
  xinv : Option Nat := none
  xinvOvf : Bool := false
  health : Nat := 0
  why : Nat := 0
  dusk : Nat := 0
  power : Power := {}
  on : Bool := true
  dstep : Nat := 5
  dfail : Nat := 0
  nonce : Nat := 0
  atBusy : Bool := false
  atDone : Bool := false
  report : List Nat := []
  hostRd : Nat := 0
  hostEp : Bool := false
  refused : Nat := 0
  mctp : Nat := 0
  ptMode : Nat := 0
  ptRej : Bool := false
  recSeq : Tab Nat := []
  msix : Nat := 1024
  fltWritten : Tab Nat := []
  fltLost : Tab Nat := []
  ec : Tab Ec := []
  deriving DecidableEq, Repr

/-- The agent that executes: a core's stream, or a channel's sequencer. -/
structure Cur where
  core : Nat := 0
  st : StreamId := .s
  chan : Nat := 0
  deriving DecidableEq, Repr

/-- A write to memory that some agents may not see yet (R207, R208): its number in the coherence order, the bytes it replaced, the
stream and access that made it, whether its page is UN, the releases it carries. -/
structure Old where
  n : Nat
  cells : List (Nat × Byte)
  core : Nat
  st : StreamId
  seq : Nat
  un : Bool := false
  rels : List Rel := []
  deriving DecidableEq, Repr

/-- A W1C bit that the hardware has set in this wall cycle (R10): `xinvst.ovf` and `ptcfg.rej` of a package, `rej` of a counter, whose
`ovf` is set only with the end of a wall cycle (R437). -/
inductive SetBit where
  | xinvOvf (pkg : Nat)
  | ptRej (pkg : Nat)
  | rej (e : EcRef)
  deriving DecidableEq, Repr

/-- Who moves next (log 1). -/
inductive Mover where
  | stream (core : Nat) (st : StreamId)
  | matrix (core : Nat)
  | event (i : Nat)
  | chan (c : Nat)
  | clock
  deriving DecidableEq, Repr

/-- The whole machine: memory with the writes that not every agent sees yet (R207) and the number of the last write; the units of
the domain; time; what executes and what is due; the place in the order of the wall cycle that has been
reached and the units that have moved in it (R134, R140, R150, R217, R309, R422), and the W1C bits set in this wall cycle (R10). -/
structure State where
  mem : List Host.Cell := []
  olds : List Old := []
  nwrite : Nat := 0
  poison : List ErrLoc := []
  cores : Tab Core := []
  dies : Tab Die := []
  pkgs : Tab Pkg := []
  chans : Tab Chan := []
  switches : Tab Port := []
  plans : Tab Plan := []
  nplan : Nat := 1
  chunks : List (Nat × Chunk) := []
  nchunk : Nat := 0
  saved : List Saved := []
  members : List Nat := [0]
  wall : Nat := 0
  tick : Nat := 0
  cur : Cur := {}
  arg : Args := {}
  bop : BankOps := {}
  sched : List Mover := []
  rank : Nat := 0
  moved : List Nat := []
  setBits : List SetBit := []
  agenda : List (Instr × Args) := []
  nfree : Nat := 0
  deriving DecidableEq, Repr

/-- Why the machine stops (a stuck state): no stream executes where no task is resident. Raised by every stream
instruction; safe: the spec has no such step. -/
inductive Fault where
  /-- A stream instruction was asked of a core that holds no task. Raised by `Ops.onStream`. Safe. -/
  | noTask
  deriving DecidableEq, Repr

/-- Why an instruction has no meaning here. -/
inductive Refusal where
  /-- An instruction that is not modelled. Raised by the arms of exec only. Safe. -/
  | notModelled (mnemonic : String)
  deriving DecidableEq, Repr

/-- The machine right after reset: the Dawn start-up has ended and nothing has been launched (R444, log 6). -/
def State.reset : State := {}

end Sys2Proof.Machine
end

