-- ==== Sys2Proof/Machine/Ops.lean ====
section
/-!
DEFINITION. Sys2Proof/Machine/Ops.lean: the named operations every meaning is made of: keyed entries, memory and
scratchpad, translation, streams and their results, freezes, and taking a fault with the return from it.
-/

namespace Sys2Proof.Machine

/-! ### Sorting -/

/-- An element put before the first one it may come before. -/
def insertBy {α : Type} (le : α → α → Bool) (a : α) : List α → List α
  | [] => [a]
  | b :: t => if le a b then a :: b :: t else b :: insertBy le a t

/-- A list in order; equal elements keep their order. -/
def sortBy {α : Type} (le : α → α → Bool) (l : List α) : List α := l.foldr (insertBy le) []

/-! ### Keyed entries -/

/-- The entry of a number, or the default. -/
def tabGet {α : Type} (d : α) : Tab α → Nat → α
  | [], _ => d
  | (k, v) :: t, n => if k = n then v else tabGet d t n

/-- The table with an entry put at number n. -/
def tabPut {α : Type} : Tab α → Nat → α → Tab α
  | [], n, v => [(n, v)]
  | (k, x) :: t, n, v => if n < k then (n, v) :: (k, x) :: t else if n = k then (n, v) :: t else (k, x) :: tabPut t n v

/-- The table with the entry of number n set; an entry equal to the default is not kept. -/
def tabSet {α : Type} [DecidableEq α] (d : α) (t : Tab α) (n : Nat) (v : α) : Tab α :=
  if v = d then t.filter fun e => e.1 ≠ n else tabPut t n v

/-- The core with a key (package × 4,096 + core number). -/
def State.core (s : State) (n : Nat) : Core := tabGet {} s.cores n
/-- The die with a key (package × 8 + die). -/
def State.die (s : State) (n : Nat) : Die := tabGet {} s.dies n
/-- The package with an ID. -/
def State.pkg (s : State) (n : Nat) : Pkg := tabGet {} s.pkgs n

/-- One core changed. -/
def State.modCore (s : State) (n : Nat) (f : Core → Core) : State := { s with cores := tabSet {} s.cores n (f (s.core n)) }
/-- One die changed. -/
def State.modDie (s : State) (n : Nat) (f : Die → Die) : State := { s with dies := tabSet {} s.dies n (f (s.die n)) }
/-- One package changed. -/
def State.modPkg (s : State) (n : Nat) (f : Pkg → Pkg) : State := { s with pkgs := tabSet {} s.pkgs n (f (s.pkg n)) }

/-- The package of a core key. -/
def pkgOf (core : Nat) : Nat := core / 4096
/-- The die key of a core key (512 cores a die, R16). -/
def dieOf (core : Nat) : Nat := core / 4096 * 8 + core % 4096 / 512

/-- An event appended to what is due. -/
def State.post (s : State) (i : Instr) (a : Args) : State := { s with agenda := s.agenda ++ [(i, a)] }

/-- An event appended unless the same one is due already. -/
def State.postOnce (s : State) (i : Instr) (a : Args) : State := if s.agenda.contains (i, a) then s else s.post i a

/-! ### Event counters (R433, R434) -/

/-- Events of a code, counted by the enabled counters of a block that name it; they enter the value with the wall cycle. -/
def bumpEc (code n : Nat) (t : Tab Ec) : Tab Ec :=
  t.map fun e => if e.2.en && e.2.event = code then (e.1, { e.2 with acc := e.2.acc + n }) else e

/-- Events of package scope. -/
def countPkg (pkg code n : Nat) (s : State) : State :=
  if (s.pkg pkg).ec.isEmpty then s else s.modPkg pkg fun p => { p with ec := bumpEc code n p.ec }

/-- Events of die scope: the counters of the die and of its package count them. -/
def countDie (die code n : Nat) (s : State) : State :=
  countPkg (die / 8) code n (if (s.die die).ec.isEmpty then s else s.modDie die fun d => { d with ec := bumpEc code n d.ec })

/-- Events of core scope: the counters of the core, its die and its package count them. -/
def countCore (core code n : Nat) (s : State) : State :=
  countDie (dieOf core) code n (if (s.core core).ec.isEmpty then s else s.modCore core fun c => { c with ec := bumpEc code n c.ec })

/-! ### Memory -/

/-- What a byte of memory that nothing has written reads as (log 2). -/
def Memory.unlisted : Byte := 0

/-- The byte at a location. -/
def Memory.get : List Host.Cell → Nat → Byte
  | [], _ => Memory.unlisted
  | (x, y) :: t, a => if x = a then y else Memory.get t a

/-- The memory with a byte listed at a location. -/
def Memory.put : List Host.Cell → Nat → Byte → List Host.Cell
  | [], a, b => [(a, b)]
  | (x, y) :: t, a, b => if a < x then (a, b) :: (x, y) :: t else if a = x then (a, b) :: t else (x, y) :: Memory.put t a b

/-- The memory with one byte set, in the canonical form. -/
def Memory.set (m : List Host.Cell) (a : Nat) (b : Byte) : List Host.Cell :=
  if b = Memory.unlisted then m.filter fun c => c.1 ≠ a else Memory.put m a b

/-- The canonical form: addresses strictly rising, no entry equal to what an unlisted address reads as. -/
def Memory.wf : List Host.Cell → Bool
  | [] => true
  | [(_, y)] => decide (y ≠ Memory.unlisted)
  | (x, y) :: (x', y') :: t => decide (x < x') && decide (y ≠ Memory.unlisted) && Memory.wf ((x', y') :: t)

/-- The size of local HBM addresses of a package (R233). -/
def hbmTop : Nat := 2 ^ 40

/-- The GiB of a stack's linear part (R234, R236). -/
def linGiB (s : State) (pkg stack : Nat) : Nat := tabGet 0 (s.pkg pkg).hsplit stack

/-- The channel within the stack and the channel-local offset of a stack offset o, with a linear part of l GiB (R234). -/
def place (l o : Nat) : Nat × Nat :=
  let i := (64 - l) * 2 ^ 30
  if o < i then (o / 256 % 32, o / 8192 * 256 + o % 256)
  else
    let o2 := o - i
    (o2 / (l * 2 ^ 25), (64 - l) * 2 ^ 25 + o2 % (l * 2 ^ 25))

/-- The device location of a local HBM address: stack, channel and channel-local offset of its package. -/
def hbmLoc (s : State) (pkg a : Nat) : Nat :=
  let stack := a / 2 ^ 36
  let p := place (linGiB s pkg stack) (a % 2 ^ 36)
  pkg * 2 ^ 45 + stack * 2 ^ 36 + p.1 * 2 ^ 31 + p.2

/-- A local HBM address lies in the linear part of its stack (R234). -/
def inLinear (s : State) (pkg a : Nat) : Bool := decide ((64 - linGiB s pkg (a / 2 ^ 36)) * 2 ^ 30 ≤ a % 2 ^ 36)

/-- What stands at a local address (R233). -/
inductive Region where
  | hbm | lease | spad (core off : Nat) | mmio (off : Nat) | dieMmio (die off : Nat) | hole
  deriving DecidableEq, Repr

/-- The local map (R233). -/
def regionOf (a : Nat) : Region :=
  if a < 0x10000000000 then .hbm
  else if a < 0x10400000000 then .lease
  else if a < 0x10480000000 then .spad ((a - 0x10400000000) / 2 ^ 19) (a % 2 ^ 19)
  else if a < 0x10800000000 then .hole
  else if a < 0x10801000000 then .mmio (a % 2 ^ 24)
  else if a < 0x10809000000 then .dieMmio ((a - 0x10801000000) / 2 ^ 24) (a % 2 ^ 24)
  else .hole

/-- A physical byte lies in a register window of its package (R233). -/
def isWindow (pa : Nat) : Bool := match regionOf (pa % 2 ^ 45) with | .mmio _ | .dieMmio _ _ => true | _ => false

/-! ### Scratchpads -/

/-- A byte of a scratchpad: the last written one, or a free byte (R149; log 3). -/
def Core.spadGet (c : Core) (a : Nat) : Byte :=
  match c.spad.find? (fun e => e.1 = a) with
  | some e => e.2
  | none => Config.freeByte c.seed a

/-- Scratchpad cells with one byte set, addresses rising. -/
def spadPut : List (Nat × Byte) → Nat → Byte → List (Nat × Byte)
  | [], a, b => [(a, b)]
  | (x, y) :: t, a, b => if a < x then (a, b) :: (x, y) :: t else if a = x then (a, b) :: t else (x, y) :: spadPut t a b

/-- A scratchpad with bytes written (R150). -/
def Core.spadWrite (c : Core) (l : List (Nat × Byte)) : Core := { c with spad := l.foldl (fun m e => spadPut m e.1 e.2) c.spad }

/-- n bytes of a scratchpad from a, as numbers. -/
def Core.spadBytes (c : Core) (a n : Nat) : List Nat := (List.range n).map fun i => (c.spadGet (a + i)).toNat

/-- The scratchpad bytes of the task on a core (R81); none without a task. -/
def spadLimit (c : Core) : Nat := match c.task with | some t => t.spadBytes | none => 0

/-! ### Physical bytes -/

/-- The byte at a physical address (R233): holes, device windows and lease windows hold none here. -/
def readByte (s : State) (pa : Nat) : Byte :=
  let pkg := pa / 2 ^ 45
  let a := pa % 2 ^ 45
  match regionOf a with
  | .hbm => Memory.get s.mem (hbmLoc s pkg a)
  | .spad n o =>
    let c := s.core (pkg * 4096 + n)
    if o < spadLimit c then c.spadGet o else 0
  | _ => 0

/-- One byte written at a physical address (R233). -/
def writeByte (s : State) (pa : Nat) (b : Byte) : State :=
  let pkg := pa / 2 ^ 45
  let a := pa % 2 ^ 45
  match regionOf a with
  | .hbm => { s with mem := Memory.set s.mem (hbmLoc s pkg a) b }
  | .spad n o =>
    if o < spadLimit (s.core (pkg * 4096 + n)) then s.modCore (pkg * 4096 + n) fun c => c.spadWrite [(o, b)] else s
  | _ => s

/-- Physical bytes written one after another. -/
def writeCells (s : State) (l : List (Nat × Byte)) : State := l.foldl (fun s e => writeByte s e.1 e.2) s

/-- n physical bytes from pa, as numbers. -/
def readBytes (s : State) (pa n : Nat) : List Nat := (List.range n).map fun i => (readByte s (pa + i)).toNat

/-- The cells of n little-endian bytes of v at pa. -/
def cellsOf (pa n v : Nat) : List (Nat × Byte) := (List.range n).map fun i => (pa + i, BitVec.ofNat 8 (v / 256 ^ i))

/-- The protected HBM column of a physical address (R427). -/
def hbmColumn (s : State) (pa : Nat) : Nat := hbmLoc s (pa / 2 ^ 45) (pa % 2 ^ 45) / 32

/-- A physical byte lies in a poisoned unit (R428). -/
def poisonedAt (s : State) (pa : Nat) : Bool :=
  let pkg := pa / 2 ^ 45
  match regionOf (pa % 2 ^ 45) with
  | .hbm => s.poison.any fun e => e = .hbm (hbmColumn s pa) || (match e with | .l2 d l => d / 8 = pkg && l = pa / 8 | .l1 _ l => l = pa / 8 | _ => false)
  | .spad n o => s.poison.any fun e => e = .spad (pkg * 4096 + n) (o / 8)
  | _ => false

/-- The location code of a poisoned physical byte (R425). -/
def lossPlace (s : State) (pa : Nat) : Nat :=
  match regionOf (pa % 2 ^ 45) with
  | .spad _ _ => 3
  | _ => if s.poison.any (fun e => match e with | .l1 _ l => l = pa / 8 | _ => false) then 1
    else if s.poison.any (fun e => match e with | .l2 d l => d / 8 = pa / 2 ^ 45 && l = pa / 8 | _ => false) then 4 else 5

/-- The poison left by a write of cells: a unit wholly covered is clear (R428). -/
def clearPoison (s : State) (l : List (Nat × Byte)) : State :=
  { s with poison := s.poison.filter fun e =>
      match e with
      | .hbm c => !((List.range 32).all fun i => l.any fun x => hbmColumn s x.1 = c ∧ hbmLoc s (x.1 / 2 ^ 45) (x.1 % 2 ^ 45) = c * 32 + i)
      | .l1 _ n | .l2 _ n => !((List.range 8).all fun i => l.any fun x => x.1 = n * 8 + i)
      | .spad k w => !((List.range 8).all fun i => l.any fun x => x.1 = k / 4096 * 2 ^ 45 + 0x10400000000 + k % 4096 * 2 ^ 19 + 8 * w + i)
      | _ => true }

/-- What a write that every agent sees at once does to older values of its bytes (R207, R208): no agent sees them any more. -/
def purgeOld (l : List (Nat × Byte)) (s : State) : State :=
  if s.olds.isEmpty then s else { s with olds := s.olds.map fun e => { e with cells := e.cells.filter fun c => !l.any fun x => x.1 = c.1 } }

/-- Bytes written to physical memory, with what that does to poison (R428), not to what other agents still see. -/
def putCells (s : State) (l : List (Nat × Byte)) : State :=
  writeCells (if s.poison.isEmpty then s else clearPoison s l) l

/-- Bytes written to physical memory for every agent at once (R208). -/
def storeCells (s : State) (l : List (Nat × Byte)) : State := purgeOld l (putCells s l)

/-! ### Translation (R237 to R241) -/

/-- A page found for an address: its leaf entry, the physical address, the page's size as a power of two. -/
structure Page where
  pte : Nat
  pa : Nat
  bits : Nat
  deriving DecidableEq, Repr

/-- A field of a page-table entry (R238). -/
def pteOrd (e : Nat) : Nat := fld e 61 60
/-- The cache field of a leaf (R238). -/
def pteCache (e : Nat) : Nat := fld e 59 58
/-- A leaf's write permission (R238). -/
def pteW (e : Nat) : Bool := fld e 57 57 = 1
/-- A leaf's bank-operand attribute (R238). -/
def pteBo (e : Nat) : Bool := fld e 56 56 = 1
/-- A leaf's compressed attribute (R238). -/
def pteCmp (e : Nat) : Bool := fld e 55 55 = 1
/-- A leaf's constant-fill attribute (R238). -/
def pteCf (e : Nat) : Bool := fld e 54 54 = 1

/-- The address of a level's index bits and their number (R237). -/
def levelBits (lvl : Nat) : Nat × Nat :=
  if lvl = 4 then (48, 256) else if lvl = 3 then (39, 512) else if lvl = 2 then (30, 512) else if lvl = 1 then (21, 512) else (16, 32)

/-- The lowest reason for which a leaf is refused (R239), none when it is good. -/
def leafReason (s : State) (e bits : Nat) : Option Nat :=
  if pteCf e then
    if fld e 53 46 ≠ 0 ∨ fld e 45 6 ≠ 0 then some 0x03 else if pteCmp e then some 0x06 else none
  else
    let frame := fld e 41 0 * 2 ^ 16
    let pkg := frame / 2 ^ 45
    let a := frame % 2 ^ 45
    if fld e 53 46 ≠ 0 ∨ fld e 45 42 ≠ 0 ∨ pteOrd e = 3 ∨ pteCache e = 3 ∨ frame % 2 ^ bits ≠ 0 then some 0x03
    else
      let conflict :=
        (pteBo e && (pteCache e != 2 || !(decide (regionOf a = .hbm) && inLinear s pkg a))) || (pteCmp e && pteBo e) ||
        (match regionOf a with
          | .mmio _ | .dieMmio _ _ => pteOrd e != 0 || pteCache e != 0
          | .spad _ _ => pteOrd e == 2 || pteCache e != 0
          | _ => false)
      if conflict then some 0x06
      else if regionOf a = .hole ∨ regionOf a = .lease ∨ ¬ s.members.contains pkg then some 0x07
      else none

/-- What a walk answers that reads a poisoned table entry (R428): no reason of R239, the access has a data-loss fault. -/
def poisonedEntry : Nat := 0x100

/-- The levels of a walk from a table at physical address t (R237, R239): the page, or the reason and the level of the entry that
fails; a table outside the HBM is a failing of the entry that points to it, and a root so placed fails at level 4 (R237). A leaf of
level 4 or 3 has no page size to be aligned to. -/
def walkGo (s : State) (pkg va : Nat) : Nat → Nat → Except (Nat × Nat) Page
  | 0, _ => .error (0x04, 0)
  | n + 1, t =>
    let lvl := n
    let ix := levelBits lvl
    if t / 2 ^ 45 ≠ pkg ∨ hbmTop ≤ t % 2 ^ 45 then .error (0x05, min 4 (lvl + 1))
    else if poisonedAt s (t + 8 * (va / 2 ^ ix.1 % ix.2)) then .error (poisonedEntry, lvl)
    else
      let e := ofBytes (readBytes s (t + 8 * (va / 2 ^ ix.1 % ix.2)) 8)
      if fld e 63 63 = 0 then .error (0x01, lvl)
      else if fld e 62 62 = 1 then
        match leafReason s e (if 3 ≤ lvl then 0 else ix.1) with
        | some 0x03 => .error (0x03, lvl)
        | r =>
          if 3 ≤ lvl then .error (0x04, lvl)
          else match r with
          | some x => .error (x, lvl)
          | none => .ok ⟨e, fld e 41 0 * 2 ^ 16 + va % 2 ^ ix.1, ix.1⟩
      else if fld e 61 46 ≠ 0 then .error (0x03, lvl)
      else if lvl = 0 then .error (0x04, lvl)
      else walkGo s pkg va n (fld e 45 0 * 2 ^ 12)

/-- The context's entry (R387). -/
def ctxEntry (s : State) (pkg ctx : Nat) : Nat := (tabGet 0 (s.pkg pkg).ctxs ctx).toNat

/-- A fresh walk of the page tables on a package (R237 to R239). DESIGN CHOICE (log 16): an address outside the virtual space, for which no
entry is read, reports level 4. -/
def walk (s : State) (pkg ctx va : Nat) : Except (Nat × Nat) Page :=
  if 2 ^ 56 ≤ va then .error (0x02, 4)
  else if fld (ctxEntry s pkg ctx) 127 127 = 0 then .error (0x01, 4)
  else walkGo s pkg va 5 (fld (ctxEntry s pkg ctx) 109 64 * 2 ^ 12)

/-- A TLB entry holds the translation of an address (R240). -/
def TlbEnt.hits (e : TlbEnt) (ctx va : Nat) : Bool := e.ctx = ctx && e.vpn = va / 2 ^ e.bits

/-- The page of a TLB entry for an address. -/
def TlbEnt.page (e : TlbEnt) (va : Nat) : Page := ⟨e.pte, fld e.pte 41 0 * 2 ^ 16 + va % 2 ^ e.bits, e.bits⟩

/-- What a TLB entry gives an address: a poisoned one has lost its data (R428). -/
def TlbEnt.look (e : TlbEnt) (va : Nat) : Except (Nat × Nat) Page := if e.bad then .error (poisonedEntry, 0) else .ok (e.page va)

/-- A translation put into a TLB of n entries: the oldest entry leaves a full one. -/
def tlbAdd (n : Nat) (l : List TlbEnt) (e : TlbEnt) : List TlbEnt := if l.contains e then l else (e :: l).take n

/-- The translation an engine or the fetch of a core finds (R240, R241): in its core's or its die's TLB, else by a walk. -/
def coreXlate (s : State) (core ctx va : Nat) : Except (Nat × Nat) Page :=
  match ((s.core core).tlb ++ (s.die (dieOf core)).tlb).find? (·.hits ctx va) with
  | some e => e.look va
  | none => walk s (pkgOf core) ctx va

/-- An engine or the fetch of a core waits for the walk of a page (R241): neither TLB holds it, and the walk has not been asked for, or is
queued or in progress. An address outside the virtual space is not walked. -/
def coreMisses (asked : Bool) (s : State) (core ctx va : Nat) : Bool :=
  decide (va < 2 ^ 56) && !(((s.core core).tlb ++ (s.die (dieOf core)).tlb).any (·.hits ctx va)) &&
    (!asked || (let w : Walk := { ctx := ctx, va := va / 2 ^ 16 * 2 ^ 16 }; (s.die (dieOf core)).walkq.contains w || (s.die (dieOf core)).walkers.contains w))

/-- Virtual bytes read for an agent of a package (record areas, packets, blocks): none where a page is missing. -/
def readVirt (s : State) (pkg ctx va n : Nat) : Option (List Nat) :=
  (List.range n).mapM fun i =>
    match walk s pkg ctx (va + i) with
    | .ok p =>
      if pteCf p.pte then some (fld (tabGet 0 (s.pkg pkg).cpat (fld p.pte 5 0)) (8 * ((va + i) % 8) + 7) (8 * ((va + i) % 8)))
      else some (readByte s p.pa).toNat
    | .error _ => none

/-- The physical cells of bytes at a virtual address, for an agent of a package; none where a page is missing or cannot
be written. -/
def virtCells (s : State) (pkg ctx va : Nat) (bytes : List Nat) : Option (List (Nat × Byte)) :=
  (bytes.zipIdx).mapM fun e =>
    match walk s pkg ctx (va + e.2) with
    | .ok p => if pteCf p.pte || !pteW p.pte || pteCmp p.pte then none else some (p.pa, BitVec.ofNat 8 e.1)
    | .error _ => none

/-! ### Tasks and streams -/

/-- A stream of a task. -/
def Task.str (t : Task) : StreamId → Stream
  | .s => t.s | .v => t.v | .m => t.m | .c => t.c

/-- A task with one of its streams set. -/
def Task.setStr (t : Task) (k : StreamId) (x : Stream) : Task :=
  match k with
  | .s => { t with s := x } | .v => { t with v := x } | .m => { t with m := x } | .c => { t with c := x }

/-- The executing task; an empty one where none is resident. -/
def State.task (s : State) : Task := ((s.core s.cur.core).task).getD {}

/-- The executing stream. -/
def State.str (s : State) : Stream := s.task.str s.cur.st

/-- The executing task changed. -/
def State.modTask (s : State) (f : Task → Task) : State :=
  s.modCore s.cur.core fun c => { c with task := c.task.map f }

/-- The executing stream changed. -/
def State.modStr (s : State) (f : Stream → Stream) : State :=
  s.modTask fun t => t.setStr s.cur.st (f (t.str s.cur.st))

/-- The executing core. -/
def State.curCore (s : State) : Core := s.core s.cur.core

/-- The state with a stream of a core as the executing one. -/
def State.at (s : State) (core : Nat) (st : StreamId) : State := { s with cur := { s.cur with core := core, st := st } }

/-- A task is resident on the executing core. -/
def State.resident (s : State) : Bool := (s.core s.cur.core).task.isSome

/-- The shape of every stream instruction's meaning: it needs a resident task, and then it has its effect. -/
def onStream (s : State) (f : State → State) : Host.Outcome State Fault Refusal :=
  if s.resident then .next (f s) else .fault .noTask

/-- The shape of every other step's meaning. -/
def onEvent (s : State) (f : State → State) : Host.Outcome State Fault Refusal := .next (f s)

/-! ### Freezes -/

/-- The stream cannot issue in this cycle, for a cause (R95): nothing has issued. -/
def freezeBefore (cause : Nat) (s : State) : State := s.modStr fun x => { x with frozen := some cause }

/-- The stream has issued its word and stays in its cycle, for a cause (R95); the word goes on when it ends. -/
def freezeAfter (cause : Nat) (s : State) : State := s.modStr fun x => { x with frozen := some cause, redo := true }

/-! ### Results -/

/-- The assumed latency of a class in cycles (R83, R89). -/
def Task.lat (t : Task) (c : Nat) : Nat := Config.latCycles (t.lata / 16 ^ c % 16)

/-- A class is interlocked: its native latency exceeds the assumed one (R99). -/
def Task.interlocked (t : Task) (c : Nat) : Bool := decide (t.lat c < Config.latCycles (Config.latn / 16 ^ c % 16))

/-- A result due in n cycles, ready (a fixed latency, R91). -/
def resultIn (n : Nat) (l : Land) (fl : Nat) (s : State) : State :=
  s.modStr fun x => { x with flights := x.flights ++ [{ due := x.cyc + n, iss := x.cyc, seq := x.seq, land := l, fl := fl }], seq := x.seq + 1 }

/-- A result of a class, `extra` cycles after its latency (R91, R98, R99): interlocked, it waits for its unit. -/
def resultAfter (extra cls : Nat) (l : Land) (fl : Nat) (s : State) : State :=
  let x := s.str
  let ilk := s.task.interlocked cls
  let s := s.modStr fun x => { x with flights := x.flights ++ [{ due := x.cyc + extra + s.task.lat cls, iss := x.cyc, seq := x.seq, land := l, fl := fl, wait := if ilk then 10 else 0 }], seq := x.seq + 1 }
  if ilk then s.post .interlockResultReady { unit := s.cur.core, st := s.cur.st, k := x.seq, v := s.wall + extra + Config.latCycles (Config.latn / 16 ^ cls % 16) } else s

/-- `land(dst, v, c)` of R89. -/
def result (cls : Nat) (l : Land) (fl : Nat) (s : State) : State := resultAfter 0 cls l fl s

/-! ### Registers -/

/-- A scalar register of a stream; number 0 reads as zero (R107). -/
def Stream.reg (x : Stream) (r : Nat) : Word64 := if r = 0 then 0 else x.regs.getD r 0

/-- A scalar register of a stream written; a write to number 0 is discarded (R63, R107). -/
def Stream.setReg (x : Stream) (r : Nat) (v : Word64) : Stream := if r = 0 then x else { x with regs := x.regs.set r v }

/-- A scalar register of the executing stream. -/
def State.reg (s : State) (r : Nat) : Word64 := s.str.reg r

/-! ### Predicates (R139 to R141) -/

/-- A predicate written in a landing wall cycle: the writer sees it at once, the others by R140. -/
def writePred (k p : Nat) (v : Bool) (wall : Nat) (t : Task) : Task :=
  if p = 0 ∨ 16 ≤ p then t
  else
    { t with
      pnow := t.pnow.set p v
      pview := t.pview.modify k fun l => l.set p v
      pprop := (t.pprop.filter fun e => !(e.reader = k && e.p = p)) ++
        ((List.range 4).filter (· ≠ k)).map fun j => { reader := j, p := p, v := v, wall := wall, writer := k } }

/-- What stream k reads of predicate p in a wall cycle, and the task after the reading (R140): writes four wall cycles
old are seen, later ones may be; a stream never goes back to an older write. -/
def readPred (k p wall choice : Nat) (t : Task) : Bool × Task :=
  if p = 0 then (true, t)
  else
    let mine := t.pprop.filter fun e => e.reader = k && e.p = p
    if mine.isEmpty then ((t.pview.getD k []).getD p false, t)
    else
    let forced := (mine.filter fun e => e.wall + 4 ≤ wall).length
    let n := forced + choice % (mine.length - forced + 1)
    match (mine.take n).getLast? with
    | none => ((t.pview.getD k []).getD p false, t)
    | some e =>
      (e.v, { t with
        pview := t.pview.modify k fun l => l.set p e.v
        pprop := (t.pprop.filter fun e => !(e.reader = k && e.p = p)) ++ mine.drop n })

/-- The release of a semaphore or barrier r by stream k covers the predicate writes that k has made or read (R135, R141). -/
def coverPreds (k r : Nat) (t : Task) : Task :=
  let unread (e : Prop') : Bool := t.pprop.any fun x => x.reader = k && x.p = e.p && x.wall = e.wall && x.writer = e.writer
  { t with pprop := t.pprop.map fun e => if e.reader = k ∨ unread e then e else { e with cov := r :: e.cov } }

/-- What stream k waits for of its predicates, in order: those up to the last that a release of r covers (R141). -/
def covered' (r : Nat) : List Prop' → List Prop' × List Prop'
  | [] => ([], [])
  | e :: l =>
    let x := covered' r l
    if e.cov.contains r ∨ !x.1.isEmpty then (e :: x.1, x.2) else ([], e :: x.2)

/-- An acquire of r by stream k reads every predicate write that a release of r covers, or a later one (R141). -/
def seePreds (k r : Nat) (t : Task) : Task :=
  (List.range 16).foldl (fun t p =>
    let mine := t.pprop.filter fun e => e.reader = k && e.p = p
    match (covered' r mine).1.getLast? with
    | none => t
    | some e =>
      { t with
        pview := t.pview.modify k fun l => l.set p e.v
        pprop := (t.pprop.filter fun e => !(e.reader = k && e.p = p)) ++ (covered' r mine).2 }) t

/-- The executing stream reads a predicate (R91, R140). -/
def readP (p : Nat) (s : State) : Bool × State :=
  let r := readPred s.cur.st.num p s.wall (Config.freeChoice s.nfree) s.task
  (r.1, if p = 0 then s else { s.modTask (fun _ => r.2) with nfree := s.nfree + 1 })

/-- A guard is read at issue; a word that has issued and is frozen in its cycle is not guarded again (R62, R94). -/
def guardRead (g : Guard) (s : State) : Bool × State :=
  if s.str.redo then (true, s)
  else
    let r := readP g.p s
    (r.1 != g.neg, r.2)

/-- An instruction under a guard: false, it takes its issue cycle and does nothing (R62). -/
def guarded (g : Guard) (f : State → State) (s : State) : State :=
  let r := guardRead g s
  if r.1 then f r.2 else countCore r.2.cur.core (5 + r.2.cur.st.num) 1 r.2

/-! ### Landing -/

/-- Poison of units that f names is clear (R428). -/
def unpoison (f : ErrLoc → Bool) (s : State) : State := if s.poison.isEmpty then s else { s with poison := s.poison.filter fun e => !f e }

/-- A register of another register file is written whole (R428). -/
def mendFile (f r : Nat) (s : State) : State := unpoison (fun e => e = .file s.cur.core f r) s

/-- What lands in the executing core when a result lands (R91, R162); what it writes whole loses its poison (R428). -/
def landOne (f : Flight) (s : State) : State :=
  let s := if f.fl = 0 then s else s.modStr fun x => { x with fflags := x.fflags ||| f.fl }
  match f.land with
  | .none => s
  | .regs l =>
    unpoison (fun e => match e with | .reg c k r => c = s.cur.core && k = s.cur.st && l.any (fun x => x.1 = r) | _ => false)
      (s.modStr fun x => l.foldl (fun x e => x.setReg e.1 e.2) x)
  | .pred p v => s.modTask (writePred s.cur.st.num p v s.wall)
  | .breg b v => s.modStr fun x => { x with b := x.b.set b v }
  | .qreg q v => mendFile 0 q (s.modTask fun t => { t with q := t.q.set q v })
  | .dreg d v => mendFile 2 d (s.modTask fun t => { t with d := t.d.set d v })
  | .dset d v =>
    let s := mendFile 2 d (s.modTask fun t => { t with d := t.d.set d v })
    if v.toNat / 2 ^ 254 = 2 then s.postOnce .loadDataArrival { unit := s.cur.core, st := .m, k := 1, n := d } else s
  | .acc a tile => s.modTask fun t => { t with acc := t.acc.set a tile }
  | .spad bytes =>
    unpoison (fun e => match e with | .spad c w => c = s.cur.core && (List.range 8).all (fun i => bytes.any fun x => x.1 = 8 * w + i) | _ => false)
      (s.modCore s.cur.core fun c => c.spadWrite bytes)
  | .stg v preds => s.modTask fun t => preds.foldl (fun t e => writePred s.cur.st.num e.1 e.2 s.wall t) { t with stg := v }
  | .mask v preds => s.modTask fun t => preds.foldl (fun t e => writePred s.cur.st.num e.1 e.2 s.wall t) { t with stg := t.stg / 256 * 256 + v }
  | .hreg k v => mendFile 1 k (s.modTask fun t => { t with h := t.h.set k v })

/-- A result lands in the stream's cycle: it is due, and it is not a load to register 0 whose data is still to come (R100). -/
def Flight.lands (f : Flight) (cyc : Nat) : Bool := decide (f.due ≤ cyc) && f.req.isNone

/-- The results due by the stream's cycle, in the order in which they land (R92): due cycle, then issue order. -/
def dueFlights (x : Stream) : List Flight :=
  sortBy (fun a b => a.due < b.due || (a.due = b.due && a.seq ≤ b.seq)) (x.flights.filter (·.lands x.cyc))

/-- The lowest cause among the due results that are not there yet (R96, R99, R100). -/
def lateCause (x : Stream) : Option Nat :=
  ((x.flights.filter fun f => f.due ≤ x.cyc && f.wait ≠ 0).map (·.wait)).min?

/-- Every due result of the executing stream lands (R91, R92). -/
def landDue (s : State) : State :=
  let x := s.str
  let l := dueFlights x
  if l.isEmpty then s
  else l.foldl (fun s f => landOne f s) (s.modStr fun x => { x with flights := x.flights.filter fun f => !f.lands x.cyc })

/-! ### Faults (R422 to R426) -/

/-- What a fault record says beside its context and number (R423). -/
structure Rec where
  cls : Nat
  reason : Nat := 0
  agent : Nat := 0
  flags : Nat := 0
  task : Nat := 0
  whn : Nat := 0
  pc : Nat := 0
  word : Nat := 0
  addr : Nat := 0
  i0 : Nat := 0
  i1 : Nat := 0
  i2 : Nat := 0
  deriving DecidableEq, Repr

/-- Bytes 4 to 63 of a fault record (R423). -/
def Rec.bytes (r : Rec) : List Nat :=
  [r.cls, r.reason, r.agent, r.flags] ++ toBytes 8 r.task ++ toBytes 8 r.whn ++ toBytes 4 r.pc ++ toBytes 4 r.word ++
  toBytes 8 r.addr ++ toBytes 8 r.i0 ++ toBytes 8 r.i1 ++ toBytes 8 r.i2

/-- The sequence number after one (R422): it skips 0. -/
def nextSeq (n : Nat) : Nat := if (n + 1) % 2 ^ 32 = 0 then 1 else (n + 1) % 2 ^ 32

/-- The number the next record of a context takes (R422). -/
def recSeq (s : State) (pkg ctx : Nat) : Nat := tabGet 1 (s.pkg pkg).recSeq ctx

/-- The record written to the context's ring, its interrupt raised and its writing counted (R422, R426); a record whose
store fails is lost and the context is aborted. `cause` of the task is set by the caller. -/
def writeRecord (pkg ctx : Nat) (r : Rec) (s : State) : State :=
  let e := ctxEntry s pkg ctx
  let part := fld e 126 124
  let seq := recSeq s pkg ctx
  let s' := s.modPkg pkg fun p => { p with recSeq := tabSet 1 p.recSeq ctx (nextSeq seq) }
  match virtCells s pkg ctx (fld e 55 0 + 64 * (seq % 256)) (toBytes 4 seq ++ r.bytes) with
  | some cells =>
    countPkg pkg 0xD6 1 ((storeCells s' cells).modPkg pkg fun p =>
      { p with msix := p.msix ||| 2 ^ part, fltWritten := tabSet 0 p.fltWritten part ((tabGet 0 p.fltWritten part + 1) % 2 ^ 32) })
  | none =>
    (s'.modPkg pkg fun p => { p with fltLost := tabSet 0 p.fltLost part ((tabGet 0 p.fltLost part + 1) % 2 ^ 32) }).post
      .ctxabWrite { unit := pkg, v := ctx + 2 ^ 31 }

/-- `cause` after a record (R426). -/
def causeOf (seq : Nat) (r : Rec) : Nat := seq * 2 ^ 32 + r.agent * 2 ^ 16 + r.reason * 2 ^ 8 + r.cls

/-- `taskid` (R389). -/
def Task.id (t : Task) : Nat := t.ctx * 2 ^ 48 + t.grid * 2 ^ 24 + t.gang * 2 ^ 9 + t.rank

/-- One task changed wherever it is, resident or saved, by its core and `taskid` (R222, R380); nothing where it has ended. -/
def State.modTaskId (core id : Nat) (f : Task → Task) (s : State) : State :=
  match (s.core core).task with
  | some t => if t.id = id then s.modCore core fun c => { c with task := some (f t) } else sav s
  | none => sav s
where
  /-- The task among the saved gangs. -/
  sav (s : State) : State :=
    { s with saved := s.saved.map fun g => { g with tasks := g.tasks.map fun x => if x.task.id = id then { x with task := f x.task } else x } }

/-- What a request of the executing stream that waits at the router is known by (R468): its kind j, a number k and what it names, below
2^256, beside its task. -/
def State.held (s : State) (j k x : Nat) : Args := { unit := s.cur.core, st := s.cur.st, j := j, k := k, n := x + s.task.id * 2 ^ 256 }

/-- A record about the executing task, written and put into `cause`. -/
def reportTask (r : Rec) (s : State) : State :=
  let s := if r.cls = 0x14 then countCore s.cur.core 0x4C 1 s else s
  let t := s.task
  let pkg := pkgOf s.cur.core
  let seq := recSeq s pkg t.ctx
  (writeRecord pkg t.ctx { r with task := t.id } s).modTask fun t => { t with cause := causeOf seq r }

/-- Taking a fault of the word that a stream executed in a cycle at a pc (`org`: cycle, pc, word). -/
def takeFaultOf (org : Nat × Nat × Nat) (r : Rec) (how : Resume) (s : State) : State :=
  let seq := recSeq s (pkgOf s.cur.core) s.task.ctx
  let replay : Nat := if how = .retry then 1 else 0
  (reportTask { r with agent := s.cur.st.num, flags := replay + (if replay = 1 then 0 else 4), whn := org.1, pc := org.2.1, word := org.2.2 } s).modStr
    fun x => { x with status := .stopped seq how, frozen := some (x.frozen.getD 0xE) }

/-- The cycle, pc and word of the word that the executing stream executes. -/
def State.org (s : State) : Nat × Nat × Nat := (s.str.cyc, s.str.pc, s.str.word)

/-- TAKING A FAULT: the executing stream stops with cause 0xE; the record says where (R101, R423). -/
def takeFault (r : Rec) (how : Resume) (s : State) : State := takeFaultOf s.org r how s

/-- A precise fault of the executing stream (R101). -/
def fault (cls reason addr : Nat) (s : State) : State := takeFault { cls := cls, reason := reason, addr := addr } .never s

/-- A fault that stops the executing stream after the issue cycle of its word: an access whose checks fail (R101). -/
def faultAfter (cls reason addr : Nat) (s : State) : State := (fault cls reason addr s).modStr fun x => { x with redo := true }

/-- A replayable translation fault of the executing stream (R243, R425): the access is retried on resumption. A walk that
read a poisoned entry is a data-loss fault instead (R428). -/
def xlateFault (reason level kind addr : Nat) (s : State) : State :=
  if reason = poisonedEntry then (takeFault { cls := 0x14, addr := addr, i0 := 5 } .never s).modStr fun x => { x with redo := true }
  else takeFault { cls := 0x0B, reason := reason, addr := addr, i0 := kind, i1 := level } .retry
    (s.modStr fun x => { x with redo := true })

/-- A task stop: all four streams stop after their current cycles (R94). `how` is how they go on. -/
def stopAll (seq : Nat) (how : Resume) (t : Task) : Task :=
  let stop (x : Stream) : Stream := if x.status = .running then { x with status := .stopped seq how, frozen := some (x.frozen.getD 0xE) } else x
  { t with s := stop t.s, v := stop t.v, m := stop t.m, c := stop t.c }

/-- A fault of another agent of the task that stops all four streams (R136, R199, R254). -/
def taskStop (r : Rec) (how : Resume) (s : State) : State :=
  let seq := recSeq s (pkgOf s.cur.core) s.task.ctx
  (reportTask { r with flags := r.flags ||| 2 } s).modTask (stopAll seq how)

/-- The illegal-instruction fault with a subcause (R59). -/
def illegal (c : Subcause) (s : State) : State := fault 0x01 c.code 0 s

/-- RETURN FROM A FAULT: a stopped stream goes on from where it stopped (R101, R243, R419). -/
def resumeStream (seq : Nat) (x : Stream) : Stream :=
  match x.status with
  | .stopped n .retry => if n = seq then { x with status := .running, frozen := none, frzc := false, frz := x.frozen.getD 0xE } else x
  | .stopped n .cont => if n = seq then { x with status := .running, frozen := none, frzc := false, frz := x.frozen.getD 0xE } else x
  | _ => x

/-- Every stream of a task that stopped with a record goes on (R243). -/
def resumeTask (seq : Nat) (t : Task) : Task :=
  { t with s := resumeStream seq t.s, v := resumeStream seq t.v, m := resumeStream seq t.m, c := resumeStream seq t.c }

/-! ### Translation of a stream's access -/

/-- What translating an access answers. -/
inductive Xl where
  | page (p : Page)
  | miss
  | bad (reason level : Nat)
  deriving DecidableEq, Repr

/-- What a TLB entry answers an access: a poisoned one has lost its data (R428). -/
def TlbEnt.found (e : TlbEnt) (va : Nat) : Xl := if e.bad then .bad poisonedEntry 0 else .page (e.page va)

/-- The executing access goes through the matrix engine's load pipes (R188, R240): any of the M stream's but a drain's. -/
def usesPipes (s : State) : Bool :=
  s.cur.st = .m && match s.str.held with | some (.mmDrain ..) => false | _ => true

/-- The micro-TLB of the executing access: its stream's, or the load pipes' (R240). -/
def State.utlb (s : State) : List TlbEnt := if usesPipes s then s.task.mtlb else s.str.utlb

/-- A translation kept in the micro-TLB of the executing access. -/
def keepUtlb (e : TlbEnt) (s : State) : State :=
  if usesPipes s then s.modTask fun t => { t with mtlb := tlbAdd 32 t.mtlb e } else s.modStr fun x => { x with utlb := tlbAdd 32 x.utlb e }

/-- The entry a stream, its core or its die holds for an address (R240). -/
def tlbLook (s : State) (va : Nat) : Option TlbEnt :=
  let ctx := s.task.ctx
  match s.utlb.find? (·.hits ctx va) with
  | some e => some e
  | none => match s.curCore.tlb.find? (·.hits ctx va) with
    | some e => some e
    | none => (s.die (dieOf s.cur.core)).tlb.find? (·.hits ctx va)

/-- Translating an address for the executing stream (R240, R241): a hit in the micro-TLB costs nothing; anything else
freezes with cause 0x2 first, and a walk that failed answers its reason to the access that waits for it. -/
def xlate (va : Nat) (s : State) : Xl :=
  if 2 ^ 56 ≤ va then .bad 0x02 4
  else match s.utlb.find? (·.hits s.task.ctx va) with
  | some e => e.found va
  | none =>
    if s.str.miss = some (va / 2 ^ 16) then
      match tlbLook s va with
      | some e => e.found va
      | none => match s.str.walkRes with
        | some (r, l) => .bad r l
        | none => .miss
    else .miss

/-- A walk queued on a die for a page of a context, unless it is queued or in progress or the queue of 2,048 is full (R241). -/
def queueWalk (die ctx va : Nat) (s : State) : State :=
  let w : Walk := { ctx := ctx, va := va / 2 ^ 16 * 2 ^ 16 }
  if (s.die die).walkq.contains w || (s.die die).walkers.contains w || decide (2048 ≤ (s.die die).walkq.length) then s
  else (s.modDie die fun x => { x with walkq := x.walkq ++ [w] }).post .pageWalk { unit := die }

/-- The walks of pages that an engine or the fetch of a core waits for are queued (R241); whether the queue had room for all. -/
def queueWalks (core ctx : Nat) (l : List Nat) (s : State) : Bool × State :=
  (decide ((s.die (dieOf core)).walkq.length + l.length ≤ 2048), l.foldl (fun s va => queueWalk (dieOf core) ctx va s) s)

/-- The stream waits for a translation: the walk is queued once for its page (R241). -/
def waitXlate (va : Nat) (s : State) : State :=
  let fresh := s.str.miss ≠ some (va / 2 ^ 16)
  let s := if fresh then countCore s.cur.core 0x44 1 (s.modStr fun x => { x with miss := some (va / 2 ^ 16), walkRes := none }) else s
  let s := if fresh && !(s.curCore.tlb.any (·.hits s.task.ctx va)) then countCore s.cur.core 0x45 1 s else s
  let s := if fresh && (tlbLook s va).isNone then countDie (dieOf s.cur.core) 0x84 1 s else s
  let s := freezeAfter 0x2 s
  match tlbLook s va with
  | some _ => s
  | none => queueWalk (dieOf s.cur.core) s.task.ctx va s

/-- A translation found: it is kept in the stream's and the core's TLBs (R240); a wait for this page is over. -/
def keepXlate (va : Nat) (s : State) : State :=
  match tlbLook s va with
  | none => s
  | some e =>
    let s := if s.curCore.tlb.contains e then s else s.modCore s.cur.core fun c => { c with tlb := tlbAdd 512 c.tlb e }
    (keepUtlb e s).modStr fun x =>
      if x.miss = some (va / 2 ^ 16) then { x with miss := none, walkRes := none } else x

/-- What a checked translation gives the access that asked for it: the page, or the state in which the stream waits or
has taken the fault (R124, R241, R243). -/
def withPage (kind va : Nat) (s : State) (f : Page → State → State) : State :=
  match xlate va s with
  | .page p => f p (keepXlate va s)
  | .miss => waitXlate va s
  | .bad r l => xlateFault r l kind va (s.modStr fun x => { x with miss := none, walkRes := none })

end Sys2Proof.Machine
end

