-- ==== Sys2Proof/Machine/Flags.lean ====
section
/-!
DEFINITION. Sys2Proof/Machine/Flags.lean: the sticky flags of a stream (R30) and the conditions of compares (R66, R119).
-/

namespace Sys2Proof.Machine

/-- `raise(flags)` of R56: ORs flags into the executing stream's `fflags`. -/
def raiseFlags (fl : Nat) (s : State) : State :=
  if fl = 0 then s else s.modStr fun x => { x with fflags := x.fflags ||| fl }

/-- A compare's condition on two 64-bit values (R66, R119). -/
def condHolds (c : Nat) (a b : Word64) : Bool :=
  match c with
  | 0 => a = b
  | 1 => a ≠ b
  | 2 => a.slt b
  | 3 => !a.slt b
  | 4 => a.ult b
  | 5 => !a.ult b
  | 6 => a &&& b ≠ 0
  | _ => a &&& b = 0

end Sys2Proof.Machine
end

