-- ==== Sys2Proof/Machine/Operands.lean ====
section
/-!
DEFINITION. Sys2Proof/Machine/Operands.lean: the operand forms of the stream words (R63 to R70): immediates, register
reads that meet poison, addresses, and the shapes in which the plain instructions read and land.
-/

namespace Sys2Proof.Machine

/-- `sext(v, n)` of R89: the low n bits sign-extended to 64. -/
def sext (n v : Nat) : Word64 := BitVec.ofInt 64 (toSigned n v)

/-- `zext(v, n)` of R89. -/
def zext (n v : Nat) : Word64 := BitVec.ofNat 64 (v % 2 ^ n)

/-- A precise data-loss fault (R428) at a place of R425. -/
def dataLoss (loc addr : Nat) (s : State) : State := takeFault { cls := 0x14, addr := addr, i0 := loc } .never s

/-- One of the executing stream's registers is poisoned (R428). -/
def regPoisoned (s : State) (r : Nat) : Bool := s.poison.contains (.reg s.cur.core s.cur.st r)

/-- An instruction reads scalar registers: a poisoned one raises the data-loss fault at that instruction (R428). -/
def reading (l : List Nat) (f : State → State) (s : State) : State :=
  if s.poison.isEmpty then f s
  else if l.any (regPoisoned s) then dataLoss 0 0 s
  else f s

/-- An instruction reads registers of another file of its core (`ErrLoc.file`): a poisoned one raises the data-loss fault (R428). -/
def readingFile (f : Nat) (l : List Nat) (g : State → State) (s : State) : State :=
  if s.poison.isEmpty then g s
  else if l.any fun r => s.poison.contains (.file s.cur.core f r) then dataLoss 0 0 s
  else g s

/-- `op xd, xa, xb`: two registers read, one landed with a class (R112). -/
def op2 (cls : Nat) (f : Word64 → Word64 → Word64) (d a b : Nat) : State → State :=
  reading [a, b] fun s => result cls (.regs [(d, f (s.reg a) (s.reg b))]) 0 s

/-- `op xd, xa`: one register read, one landed with a class (R113, R117). -/
def op1 (cls : Nat) (f : Word64 → Word64) (d a : Nat) : State → State :=
  reading [a] fun s => result cls (.regs [(d, f (s.reg a))]) 0 s

/-- A predicate landed with class cmp. -/
def landPred (p : Nat) (v : Bool) (s : State) : State := result 3 (.pred p v) 0 s

/-- A predicate combined from two predicates read at issue (R120). -/
def predOp (f : Bool → Bool → Bool) (d a b : Nat) (s : State) : State :=
  let x := readP a s
  let y := readP b x.2
  landPred d (f x.1 y.1) y.2

/-- The address of a format M access: base plus the scaled offset, modulo 2^64 (R122). -/
def addrM (s : State) (a sz off : Nat) : Nat := (s.reg a + sext 6 off * BitVec.ofNat 64 (2 ^ sz)).toNat

/-- The address of the executing word in its region. -/
def State.pc (s : State) : Nat := s.str.pc

/-- A branch or loop address: a word offset from the executing word, in 32 bits (R64, R102). -/
def wordTarget (s : State) (n off : Nat) : Nat := (((s.pc : Int) + 4 * toSigned n off) % 2 ^ 32).toNat

end Sys2Proof.Machine
end

