-- ==== Sys2Proof/Machine/View.lean ====
section
/-!
DEFINITION. Sys2Proof/Machine/View.lean: which writes an access to memory sees: scopes and their instances, releases and
acquires, what is performed where (R205 to R214). A write that has entered memory stays in `State.olds` with the bytes it
replaced until every agent sees it; a load may read such an older byte unless something makes its stream see the write.
-/

namespace Sys2Proof.Machine

/-! ### Scopes (R205, R206) -/

/-- Two tasks of one gang: `taskid` without the rank (R389). -/
def sameGang (s : State) (c d : Nat) : Bool :=
  match (s.core c).task, (s.core d).task with
  | some t, some u => t.id / 512 = u.id / 512
  | _, _ => false

/-- Two packages behind one first-tier switch: a switch to which both have a port. -/
def sameRack (s : State) (p q : Nat) : Bool :=
  p = q || (s.pkg p).ports.any fun e => decide (8192 ≤ e.2.peer) && (s.pkg q).ports.any fun f => f.2.peer = e.2.peer

/-- Stream l of core d lies in the instance of a scope that holds stream k of core c (R205). Bank and channel scope hold the
stream itself, beside the unit of each address (R206). -/
def inScope (s : State) (sc c : Nat) (k : StreamId) (d : Nat) (l : StreamId) : Bool :=
  match sc with
  | 0 => c = d && k = l
  | 1 => c = d
  | 2 => c = d || sameGang s c d
  | 3 => dieOf c = dieOf d
  | 4 => pkgOf c = pkgOf d
  | 5 => sameRack s (pkgOf c) (pkgOf d)
  | 6 | 7 => true
  | _ => c = d && k = l

/-- A release synchronises with an acquire of the executing stream at a scope (R206): each lies in the other's instance. -/
def syncs (s : State) (r : Rel) (sc : Nat) : Bool :=
  inScope s r.sc r.core r.st s.cur.core s.cur.st && inScope s sc s.cur.core s.cur.st r.core r.st

/-! ### What a stream sees -/

/-- The writes that access number q of a stream must see: those of its own earlier accesses, and those ordered before it. -/
def Stream.must (x : Stream) (q : Nat) : List Nat := (x.seen.filter fun e => e.first ≤ q).map (·.n)

/-- A byte of memory as an agent sees it that must see some writes and sees the first c of those still open, and the write it
reads if that one is still open (R208): going back from the newest, the older byte of every write it does not see. -/
def readSeen (s : State) (must : List Nat) (c a : Nat) : Byte × Option Old :=
  (s.olds.zipIdx).foldr (fun e r =>
    if r.2.isSome then r
    else match e.1.cells.find? fun x => x.1 = a with
      | none => r
      | some x => if e.2 < c || must.contains e.1.n then (r.1, some e.1) else (x.2, none)) (readByte s a, none)

/-- The stream's accesses from number q on see some writes. -/
def Stream.sees (x : Stream) (l : List Nat) (q : Nat) : Stream :=
  if l.isEmpty then x else { x with seen := x.seen ++ l.map fun n => { n := n, first := q } }

/-- Some writes are performed at a scope of the executing stream (R207): every stream of its instance sees them. -/
def perform (sc : Nat) (l : List Nat) (s : State) : State :=
  if l.isEmpty then s
  else { s with cores := s.cores.map fun (c : Nat × Core) => (c.1, { c.2 with task := c.2.task.map fun t =>
    let f (k : StreamId) (x : Stream) : Stream := if inScope s sc s.cur.core s.cur.st c.1 k then x.sees l 0 else x
    { t with s := f .s t.s, v := f .v t.v, m := f .m t.m, c := f .c t.c } }) }

/-- The writes that happen before access number q of the executing stream (R211). -/
def viewAt (q : Nat) (s : State) : List Nat := s.str.must q

/-- The executing stream's own open writes from accesses before number q. -/
def ownWrites (q : Nat) (s : State) : List Nat := (s.olds.filter fun e => e.core = s.cur.core && e.st = s.cur.st && decide (e.seq < q)).map (·.n)

/-- A fence-like release at a scope (R135, R145, R212): what happens before it is performed there. -/
def releaseAt (sc : Nat) (s : State) : State := perform sc (viewAt s.str.seq s) s

/-- A release that a load has read synchronises with it if it is an acquire that passes R206; else a later `fence.acq` may still
make it (R211, R213). `q` is the load's number. -/
def hear (r : LoadReq) (q : Nat) (l : List Rel) (s : State) : State :=
  let ok := l.filter fun e => r.acq && syncs s e r.sc
  s.modStr fun x =>
    let x := ok.foldl (fun x e => x.sees e.view (q + 1)) x
    if l.isEmpty then x else { x with heard := x.heard ++ l.map fun e => (q + 1, e) }

/-- `fence.acq` at a scope (R213): the releases that earlier loads have read synchronise if they pass R206. -/
def acquireHeard (sc : Nat) (s : State) : State :=
  let ok := s.str.heard.filter fun e => syncs s e.2 sc
  if ok.isEmpty then s else s.modStr fun x => ok.foldl (fun x e => x.sees e.2.view x.seq) x

/-! ### Writes that enter memory -/

/-- The releases that a new write of bytes carries on (R211): those of its stream's earlier writes there, or all for an atomic. -/
def heldRels (s : State) (l : List Nat) (atomic : Bool) : List Rel :=
  ((s.olds.filter fun e => e.cells.any fun c => l.contains c.1).flatMap (·.rels)).filter fun r => atomic || (r.core = s.cur.core && r.st = s.cur.st)

/-- The access that the last of some release fences follows. -/
def fenPos (fen : List (Nat × Nat)) : Nat := (fen.map Prod.fst).headD 0

/-- A release fence after access n at a scope among those before it (R213): one at least as wide stands for an earlier one. -/
def addFence (n sc : Nat) (fen : List (Nat × Nat)) : List (Nat × Nat) := (n, sc) :: fen.filter fun e => sc < e.2

/-- What release fences cover is performed at the scope of each (R213). -/
def performFen (fen : List (Nat × Nat)) (s : State) : State := fen.foldl (fun s e => perform e.2 (ownWrites e.1 s) s) s

/-- The releases of a write by access q of the executing stream (R211 to R213): its own at its scope, which covers no UN access of
its stream that no fence orders before it, and those of the release fences before it. -/
def relsOf (q : Nat) (rel : Bool) (sc : Nat) (fen : List (Nat × Nat)) (s : State) : List Rel :=
  let loose := (s.olds.filter fun e => e.core = s.cur.core && e.st = s.cur.st && e.un && decide (fenPos fen ≤ e.seq)).map (·.n)
  (if rel then [{ core := s.cur.core, st := s.cur.st, sc := sc, view := (viewAt q s).filter fun n => !loose.contains n }] else []) ++
  fen.map fun e => { core := s.cur.core, st := s.cur.st, sc := e.2, view := viewAt e.1 s }

/-- The bytes lie in HBM. -/
def inHbm (l : List (Nat × Byte)) : Bool := l.all fun c => regionOf (c.1 % 2 ^ 45) = .hbm

/-- A write of the executing stream enters memory (R207, R208): its stream sees it at once, the agents of no other scope need
to until it is performed there; an SO write is performed at system scope. `q` is its access's number. -/
def enterMem (q : Nat) (so un : Bool) (rels : List Rel) (l : List (Nat × Byte)) (s : State) : State :=
  if !inHbm l then storeCells s l
  else
    let n := s.nwrite + 1
    let e : Old := { n := n, cells := l.map fun c => (c.1, readByte s c.1), core := s.cur.core, st := s.cur.st, seq := q, un := un, rels := rels }
    let s := ({ putCells s l with olds := s.olds ++ [e], nwrite := n } : State).modStr fun x => x.sees [n] (q + 1)
    if so then perform 7 [n] s else s

/-- The oldest open writes are performed for every agent: how many is open (R207; log 7). -/
def ageOlds (s : State) : State :=
  if s.olds.isEmpty then s
  else
    let k := Config.freeChoice s.nfree % (s.olds.length + 1)
    let last := (s.olds.take k).foldl (fun m e => max m e.n) 0
    let str (x : Stream) : Stream := { x with seen := x.seen.filter fun e => last < e.n, heard := x.heard.filter fun e => e.2.view.any fun n => last < n }
    { s with
      olds := s.olds.drop k, nfree := s.nfree + 1
      cores := s.cores.map fun (c : Nat × Core) => (c.1, { c.2 with task := c.2.task.map fun t => { t with s := str t.s, v := str t.v, m := str t.m, c := str t.c } }) }

/-- A stream that begins, or begins again, sees every write that has entered memory (log 7). -/
def Stream.begins (x : Stream) (s : State) : Stream := x.sees (s.olds.map (·.n)) 0

end Sys2Proof.Machine
end

