-- ==== Sys2Proof/Machine/Cache.lean ====
section
/-!
DEFINITION. Sys2Proof/Machine/Cache.lean: the lines that L1 and the L2 slices hold (R235, R244, R245, R248). Values stand in memory
alone, because caches are invisible to the memory model (R244); a line held is its address and whether it is dirty.
-/

namespace Sys2Proof.Machine

/-! ### Homes (R18, R235, R248) -/

/-- The die to whose stack a physical HBM address belongs. -/
def homeDie (pa : Nat) : Nat := pa / 2 ^ 45 * 8 + pa % 2 ^ 45 / 2 ^ 37

/-- A lease that has not ended holds the line: its slice on the die (R248). -/
def leaseSlice (s : State) (pa : Nat) : Option Nat :=
  (s.die (homeDie pa)).leases.findSome? fun e =>
    if e.2.expiry ≤ s.tick then none
    else match e.2.frames.findIdx? (· = pa / 2 ^ 16 * 2 ^ 16) with
      | some i => e.2.units[i / 16]?
      | none => none

/-- The home slice of a line on its die: its lease's, else the hash ls(16d + (a div 128) mod 16) (R235). -/
def homeSlice (s : State) (pa : Nat) : Nat := (leaseSlice s pa).getD (pa / 128 % 16)

/-- Lines that a slice of 4 MiB holds beside those that leases pin: 1 MiB less for each unit leased (R244, R248). -/
def sliceRoom (s : State) (die slice : Nat) : Nat :=
  32768 - 8192 * (((s.die die).leases.filter fun e => s.tick < e.2.expiry).flatMap fun e => e.2.units.filter (· = slice)).length

/-! ### L2 -/

/-- L2 holds a line. -/
def l2Has (s : State) (pa : Nat) : Bool := (s.die (homeDie pa)).l2.any fun l => l.1 = pa / 128

/-- The lines left when a slice holds more than its room: the oldest that no lease pins leaves (log 5). -/
def l2Trim (s : State) (die slice : Nat) (l : List (Nat × Bool)) : List (Nat × Bool) :=
  let mine := l.filter fun e => homeSlice s (e.1 * 128) = slice && (leaseSlice s (e.1 * 128)).isNone
  if mine.length ≤ sliceRoom s die slice then l
  else match mine.getLast? with
    | some e => l.erase e
    | none => l

/-- Poison of a line of a home slice: written back it goes to the line's columns (`wb`), and with the line it leaves L2 (`gone`) (R428). -/
def carryPoison (wb gone : Bool) (line : Nat) (s : State) : State :=
  let mine (e : ErrLoc) : Bool := match e with | .l2 _ w => w / 16 = line | _ => false
  if !s.poison.any mine then s
  else { s with poison := (s.poison.filter fun e => !(gone && mine e)) ++
    (if wb then (s.poison.filterMap fun e => match e with | .l2 _ w => if w / 16 = line then some (ErrLoc.hbm (hbmColumn s (8 * w))) else none | _ => none).dedup else []) }

/-- A line comes into its home slice, or is used there (R235, R244): `pol` as in `LoadReq.l2`; a line that is a clean copy is never
dirty (R229). Lines that are not HBM have no home. Its hit or miss and a write-back are counted (R434). -/
def l2Touch (pa pol : Nat) (dirty : Bool) (s : State) : State :=
  if pol = 0 ∨ regionOf (pa % 2 ^ 45) ≠ .hbm then s
  else
    let d := homeDie pa
    let l := (s.die d).l2
    let line := (pa / 128, (dirty && pol != 3) || l.contains (pa / 128, true))
    let rest := l.filter fun e => e.1 ≠ pa / 128
    let l' := if pol = 2 ∧ (leaseSlice s pa).isNone then rest ++ [line] else line :: rest
    let kept := l2Trim s d (homeSlice s pa) l'
    let gone := l'.filter fun e => !kept.contains e
    let s := countDie d 0x82 (gone.filter (·.2)).length (countDie d (if l2Has s pa then 0x80 else 0x81) 1 s)
    (gone.foldl (fun s e => carryPoison e.2 true e.1 s) s).modDie d fun x => { x with l2 := kept }

/-! ### L1 -/

/-- A line is present in a core's L1. -/
def l1Has (s : State) (pa : Nat) : Bool := s.curCore.l1.any fun l => l.1 = pa / 128

/-- A dirty line of the executing core's L1 is written back to its home slice, with its poison (R428, R434). -/
def l1Back (line : Nat) (s : State) : State :=
  let s := if s.poison.isEmpty then s else { s with poison := s.poison.map fun e => match e with
    | .l1 c w => if c = s.cur.core ∧ w / 16 = line then .l2 (homeDie (8 * w)) w else e
    | e => e }
  l2Touch (line * 128) 1 true (countCore s.cur.core 0x42 1 s)

/-- A line comes into the executing core's L1 of 6,144 lines (R244), or is used there; a dirty line that leaves is written back to
its home slice (R434). -/
def l1Fill (pa : Nat) (dirty : Bool) (s : State) : State :=
  let l := (pa / 128, dirty || s.curCore.l1.contains (pa / 128, true)) :: s.curCore.l1.filter fun l => l.1 ≠ pa / 128
  let s := s.modCore s.cur.core fun c => { c with l1 := l.take 6144 }
  match l[6144]? with
  | some (n, true) => l1Back n s
  | _ => s

/-! ### Policy (R245) -/

/-- L1 takes the lines of a page for a hint (0 default, 1 allocate, 2 streaming): WB pages that are neither SO nor bank operands. -/
def fillsL1 (pte hint : Nat) : Bool := pteCache pte = 1 && pteOrd pte ≠ 0 && !pteBo pte && hint ≠ 2

/-- What L2 does with the lines of a page for a hint (R245): the coding of `LoadReq.l2`. -/
def fillsL2 (pte hint : Nat) : Nat := if pteCache pte = 0 then 0 else if pteBo pte then 3 else if hint = 2 then 2 else 1

/-- An access has gone through the caches: its line, where they take it (R235, R244, R245). -/
def cached (l1 : Bool) (l2 pa : Nat) (dirty : Bool) (s : State) : State :=
  if l1 then l1Fill pa dirty (l2Touch pa l2 false s) else l2Touch pa l2 dirty s

end Sys2Proof.Machine
end

