-- ==== Sys2Proof/Machine/Channel.lean ====
section
/-!
DEFINITION. Sys2Proof/Machine/Channel.lean: a memory channel as its accesses meet it: banks and their timings, what a running table does
next, and which external accesses the channel serves beside it (R24, R293, R295).
-/

namespace Sys2Proof.Machine

/-! ### Channels -/

/-- The channel with a key (package × 512 + channel). -/
def State.chan (s : State) (n : Nat) : Chan := tabGet {} s.chans n

/-- One channel changed. -/
def State.modChan (s : State) (n : Nat) (f : Chan → Chan) : State := { s with chans := tabSet {} s.chans n (f (s.chan n)) }

/-- The executing channel. -/
def State.curChan (s : State) : Chan := s.chan s.cur.chan

/-- The executing channel changed. -/
def State.modCh' (s : State) (f : Chan → Chan) : State := s.modChan s.cur.chan f

/-- The die a channel is attached to (R18). -/
def dieOfChan (key : Nat) : Nat := key / 512 * 8 + key % 512 / 64

/-- The device location of a channel-local offset (R234). -/
def chanLoc (key off : Nat) : Nat := key / 512 * 2 ^ 45 + key % 512 / 32 * 2 ^ 36 + key % 32 * 2 ^ 31 + off

/-- The channel-local offset of a byte of a bank's row (R287). -/
def bankOff (b row o : Nat) : Nat := row * 65536 + b * 1024 + o

/-- A bank of a channel. -/
def Chan.bank (c : Chan) (b : Nat) : Bank := tabGet {} c.banks b

/-- A bank of a channel changed. -/
def Chan.modBank (c : Chan) (b : Nat) (f : Bank → Bank) : Chan := { c with banks := tabSet {} c.banks b (f (c.bank b)) }

/-- Every bank of a channel changed. -/
def Chan.modBanks (c : Chan) (f : Bank → Bank) : Chan := (List.range 64).foldl (fun c b => c.modBank b f) c

/-- A merge slot of a channel. -/
def Chan.slot (c : Chan) (j : Nat) : Slot := tabGet {} c.ms j

/-- A merge slot changed. -/
def Chan.modSlot (c : Chan) (j : Nat) (f : Slot → Slot) : Chan := { c with ms := tabSet {} c.ms j (f (c.slot j)) }

/-- A walk register. -/
def Chan.walkReg (c : Chan) (w : Nat) : WalkReg := c.wk.getD w {}

/-- A walk register changed. -/
def Chan.modWalk (c : Chan) (w : Nat) (f : WalkReg → WalkReg) : Chan :=
  { c with wk := ((c.wk ++ List.replicate (16 - c.wk.length) ({} : WalkReg)).modify w f) }

/-! ### DRAM timings (R293) -/

/-- The row a bank holds open at a cycle. -/
def Bank.openAt (b : Bank) (k : Nat) : Option Nat :=
  match b.row, b.pre with
  | some r, some p => if k < p then some r else none
  | some r, none => some r
  | none, _ => none

/-- An activation at a cycle: ignored with a row open, within 12 cycles of a precharge or 160 of a refresh. -/
def Bank.activate (b : Bank) (k row : Nat) : Bank :=
  let soon (x : Option Nat) (n : Nat) : Bool := match x with | some p => decide (k < p + n) | none => false
  if (b.openAt k).isSome || soon b.pre 12 || soon b.ref 160 then b else { b with row := some row, act := some k, pre := none }

/-- A precharge at a cycle: it takes effect 28 cycles after the activation at the earliest. -/
def Bank.precharge (b : Bank) (k : Nat) : Bank :=
  if (b.openAt k).isSome && b.pre.isNone then { b with pre := some (max k (match b.act with | some a => a + 28 | none => 0)) } else b

/-- An access at a cycle reaches the open row: opened 12 cycles ago, the row it names, 2 cycles after the last access. -/
def Bank.reached (b : Bank) (k row : Nat) : Option Nat :=
  match b.openAt k with
  | none => none
  | some r =>
    let late (x : Option Nat) (n : Nat) : Bool := match x with | some p => decide (p + n ≤ k) | none => true
    if late b.act 12 && late b.acc 2 && (row = 0x8000 || row = r) then some r else none

/-- The timers of a bank that the channel has closed and refreshed itself (R290). -/
def Bank.close (b : Bank) : Bank := { b with row := none, act := none, pre := none, acc := none, ref := none }

/-! ### What the table does next (R290, R295) -/

/-- What `bloop` does to its counter (R308): the counter after it, and whether it goes to the target. -/
def loopCount (l : Nat × Bool) (cnt : Nat) : (Nat × Bool) × Bool :=
  let n := if l.2 then l.1 else cnt
  if 1 < n then ((n - 1, true), true) else ((n, false), false)

/-- The words that a running table issues in the next `lim` cycles, with how many cycles ahead: a short pass ends with a gap. -/
def aheadWords (table : List (Instr × BankOps)) (lim : Nat) : Nat → Nat → Nat → Nat → List (Nat × Bool) → List (Nat × Instr × BankOps)
  | 0, _, _, _, _ => []
  | n + 1, at', len, idx, lp =>
    if lim ≤ at' then []
    else match table[idx]? with
      | none => []
      | some (i, o) =>
        let d := 1 + o.w
        (at', i, o) :: match i with
          | .bloop =>
            let r := loopCount (lp.getD o.lp (0, false)) o.cnt
            aheadWords table lim n (at' + d) (len + d) (if r.2 then o.tgt else idx + 1) (lp.set o.lp r.1)
          | .bjmp => aheadWords table lim n (at' + d) (len + d) o.tgt lp
          | .bend => aheadWords table lim n (at' + d + if len + d ≤ 3120 then 200 else 0) 0 0 (List.replicate 4 (0, false))
          | _ => aheadWords table lim n (at' + d) (len + d) (idx + 1) lp

/-- The decoded table. -/
def Chan.words (c : Chan) : List (Instr × BankOps) := c.table.filterMap fun w => match decodeBank w with | .ok x => some x | .error _ => none

/-- What the running table of a channel issues in the next `lim` cycles. -/
def Chan.ahead (c : Chan) (lim : Nat) : List (Nat × Instr × BankOps) := aheadWords c.words lim lim 0 (c.next - c.base) c.widx c.lp

/-- A word reaches a bank (R295). -/
def reachesBank (b : Nat) (i : Instr) (o : BankOps) : Bool :=
  match i with
  | .bact | .bpre | .bref | .bdot | .bwacc | .bscl | .bwr | .bwra | .bwact => o.b = b
  | .bpra => true
  | _ => false

/-- The activation units of a word (R295). -/
def unitsOfWord (i : Instr) : Nat := match i with | .bact | .bwact => 1 | .bref => 2 | _ => 0

/-- A bank as the simulated schedule holds it, which takes every walk entry as a row (R294, R295). -/
def Chan.simBank (c : Chan) (b : Nat) : Bank := tabGet {} c.sim b

/-- A bank of the simulated schedule changed. -/
def Chan.modSim (c : Chan) (b : Nat) (f : Bank → Bank) : Chan := { c with sim := tabSet {} c.sim b (f (c.simBank b)) }

/-- What an issued word does to the banks of the simulated schedule (R295). -/
def Chan.simWord (c : Chan) (i : Instr) (o : BankOps) : Chan :=
  match i with
  | .bact | .bwact => c.modSim o.b fun x => x.activate c.cyc 0
  | .bpre => c.modSim o.b fun x => x.precharge c.cyc
  | .bpra => (List.range 64).foldl (fun c b => c.modSim b fun x => x.precharge c.cyc) c
  | .bref => c.modSim o.b fun x => { x with ref := some c.cyc }
  | _ => c

/-- Activation units drawn in a cycle; those that no window of 64 cycles holds any more are forgotten (R295). -/
def Chan.draw (c : Chan) (k n : Nat) : Chan :=
  if n = 0 then c else { c with drawn := (c.drawn.filter fun e => k < e.1 + 64) ++ [(k, n)] }

/-- An external access leaves every window of 64 cycles that holds it within the budget of 16 units (R295); `less` are withheld. -/
def Chan.room (c : Chan) (less : Nat) : Bool :=
  let l := c.drawn ++ (c.ahead 64).map fun e => (c.next + e.1, unitsOfWord e.2.1)
  (List.range 64).all fun i => decide (((l.filter fun e => e.1 ≤ c.next + i ∧ c.next + i ≤ e.1 + 63).map Prod.snd).sum + 1 + less ≤ 16)

/-- The sequencer replays its table. -/
def Chan.replays (c : Chan) : Bool := c.state = 2 && c.live && !c.held

/-- A channel serves an external access to a bank (R295, R321): no table runs there, or the simulated schedule holds the bank precharged
and untouched for 64 cycles and the window has a unit left; `less` units are withheld. -/
def Chan.serves (c : Chan) (b less : Nat) : Bool :=
  !c.replays || (((c.simBank b).openAt c.next).isNone && !((c.ahead 64).any fun e => reachesBank b e.2.1 e.2.2) && c.room less)

/-- The channel and the bank of a physical HBM byte. -/
def chanBank (s : State) (pa : Nat) : Nat × Nat :=
  let loc := hbmLoc s (pa / 2 ^ 45) (pa % 2 ^ 45)
  (loc / 2 ^ 45 * 512 + loc % 2 ^ 45 / 2 ^ 36 * 32 + loc / 2 ^ 31 % 32, loc % 2 ^ 31 / 1024 % 64)

/-- An access to a physical byte goes to a channel that replays a table (R295): its home slice does not hold its line. -/
def meetsTable (s : State) (pa : Nat) : Bool :=
  regionOf (pa % 2 ^ 45) = .hbm && (s.chan (chanBank s pa).1).replays && !l2Has s pa

/-- An access to a physical byte waits for its channel (R295), which does not serve it now. How many units the throttle withholds is
open (log 4). -/
def chanBusy (s : State) (pa : Nat) : Bool :=
  meetsTable s pa &&
    (let k := chanBank s pa
     !((s.chan k.1).serves k.2 (if 0 < (s.pkg (k.1 / 512)).power.mem then Config.freeChoice s.nfree % 16 else 0)))

/-- Accesses that the channels serve draw an activation unit at each bank they reach (R24, R295). -/
def drawUnits (l : List Nat) (s : State) : State :=
  (((l.filter (meetsTable s)).map (chanBank s)).dedup).foldl (fun s k => s.modChan k.1 fun c => c.draw c.next 1) s

/-- An access to physical bytes once their channels serve it (R295); else `wait`. -/
def whenServed (l : List Nat) (wait f : State → State) (s : State) : State :=
  if s.chans.isEmpty then f s
  else if l.any (chanBusy s) then wait { s with nfree := s.nfree + 1 } else f (drawUnits l s)

end Sys2Proof.Machine
end

