-- ==== Sys2Proof/Machine/Plans.lean ====
section
/-!
DEFINITION. Sys2Proof/Machine/Plans.lean: the plan tables: what a plan's record gives, slots, numbers that wait for parts, the
end of a plan and its staleness (R217, R357 to R372).
-/

namespace Sys2Proof.Machine

/-! ### Numbers (R217) -/

/-- The mark after the completed numbers above it (R217). -/
def Tl.settleGo : Nat → Tl → Tl
  | 0, t => t
  | n + 1, t => if t.done.contains (t.mark + 1) then settleGo n { t with mark := t.mark + 1, done := t.done.filter (· ≠ t.mark + 1) } else t

/-- An operation of a counter completes (R217). -/
def Tl.complete (t : Tl) (n : Nat) : Tl := Tl.settleGo (t.done.length + 1) { t with done := if t.mark < n then n :: t.done else t.done }

/-- An operation of the executing task completes on its counter (R217). -/
def completeNum (tl n : Nat) (s : State) : State := s.modTask fun t => { t with tls := t.tls.modify tl fun c => c.complete n }

/-- An operation completes on a counter of a task of a core: its `taskid`, counter and number. A task that has ended has no
counter (R222, R380). -/
def completeOp (core : Nat) (op : Nat × Nat × Nat) (s : State) : State :=
  s.modTaskId core op.1 fun t => { t with tls := t.tls.modify op.2.1 fun c => c.complete op.2.2 }

/-- A counter that stops at 65,535. -/
def sat (n : Nat) : Nat := min (n + 1) 65535

/-! ### Plans (R357) -/

/-- A plan of the domain. -/
def State.plan (s : State) (n : Nat) : Plan := tabGet {} s.plans n

/-- One plan changed. -/
def State.modPlan (s : State) (n : Nat) (f : Plan → Plan) : State := { s with plans := tabSet {} s.plans n (f (s.plan n)) }

/-- One rank of a plan changed. -/
def State.modRank (s : State) (n j : Nat) (f : PRank → PRank) : State := s.modPlan n fun p => { p with ranks := p.ranks.modify j f }

/-- The plan that an ID and generation name in a package's table (R357); none where they are not current. -/
def planAt (s : State) (pkg id gen : Nat) : Option Nat :=
  let n := tabGet 0 (s.pkg pkg).plans id
  if n ≠ 0 ∧ (s.plan n).gen = gen then some n else none

/-- A rank that does not exist. -/
def noRank : PRank := { pkg := 0, core := 0, sbase := 0, dbase := 0, aword := 0 }

/-- A rank's entry. -/
def Plan.rank (p : Plan) (j : Nat) : PRank := p.ranks.getD j noRank

/-- The core key of a rank. -/
def PRank.key (r : PRank) : Nat := r.pkg * 4096 + r.core

/-- The rank of a core (R357). -/
def Plan.rankOf (p : Plan) (core : Nat) : Option Nat :=
  let i := p.ranks.findIdx fun r => r.key = core
  if i < p.ranks.length then some i else none

/-- The packages whose tables hold a plan (R357). -/
def Plan.pkgs (p : Plan) : List Nat := (p.home :: p.ranks.map (·.pkg)).dedup

/-- The levels a round iterates in full (R361). -/
def Plan.inner (p : Plan) : Nat := if p.step then p.levels.length - 1 else p.levels.length

/-- The iterations of a round (R361). -/
def Plan.iters (p : Plan) : Nat := ((p.levels.take p.inner).map (·.bound)).prod

/-- The rounds after which the transfers repeat (R361). -/
def Plan.period (p : Plan) : Nat := if p.step then (p.levels.getLast?.map (·.bound)).getD 1 else 1

/-- The index vector of iteration `it` of round q (R361). -/
def Plan.index (p : Plan) (q it : Nat) : List Nat :=
  (List.range p.levels.length).map fun l =>
    let b := (p.levels.map (·.bound)).getD l 1
    if p.step ∧ l + 1 = p.levels.length then q % b else it / ((p.levels.take l).map (·.bound)).prod % b

/-- A sum over the levels (R361). -/
def Plan.overLevels (p : Plan) (q it : Nat) (f : PLevel → Nat → Int) : Int :=
  ((p.levels.zip (p.index q it)).map fun e => f e.1 e.2).sum

/-- The peer of a transfer (R361). -/
def Plan.peer (p : Plan) (q j it : Nat) : Nat :=
  (p.overLevels q it (fun l i => l.pa * j + l.pb * i + l.pc) % p.ranks.length).toNat

/-- The source address of a transfer (R361). -/
def Plan.src (p : Plan) (q j it : Nat) : Int := (p.rank j).sbase + p.overLevels q it fun l i => i * l.sstride

/-- The destination address of a transfer (R361). -/
def Plan.dst (p : Plan) (q j it : Nat) : Int := (p.rank (p.peer q j it)).dbase + p.overLevels q it fun l i => i * l.dstride

/-- The transfers of a round, by source rank and then iteration (R362). -/
def Plan.transfers (p : Plan) : List (Nat × Nat) :=
  (List.range p.ranks.length).flatMap fun j => (List.range p.iters).map fun it => (j, it)

/-- Two transfers of a round form one group (R362). -/
def Plan.sameGroup (p : Plan) (q : Nat) (x y : Nat × Nat) : Bool :=
  x = y || (p.op ≠ 0 && p.peer q x.1 x.2 = p.peer q y.1 y.2 && p.dst q x.1 x.2 = p.dst q y.1 y.2)

/-- A group's members in order (R362). -/
def Plan.members (p : Plan) (q g : Nat) : List (Nat × Nat) :=
  p.transfers.filter (p.sameGroup q (g / p.iters, g % p.iters))

/-- The group of a transfer, named by its first member (R362). -/
def Plan.groupOf (p : Plan) (q : Nat) (x : Nat × Nat) : Nat :=
  let f := (p.transfers.find? (p.sameGroup q x)).getD x
  f.1 * p.iters + f.2

/-- The groups of a round that write to a rank (R369). -/
def Plan.groupsTo (p : Plan) (q j : Nat) : List Nat :=
  ((p.transfers.filter fun x => p.peer q x.1 x.2 = j).map (p.groupOf q)).dedup

/-- A group under way, or the empty one. -/
def Plan.grp (p : Plan) (q g : Nat) : Grp := (p.grps.find? fun x => x.q = q && x.g = g).getD { q := q, g := g }

/-- A group changed. -/
def Plan.setGrp (p : Plan) (x : Grp) : Plan := { p with grps := x :: p.grps.filter fun y => !(y.q = x.q && y.g = x.g) }

/-- The physical address of a virtual address that the record names, by the frames of set-up (R360). -/
def Plan.pa (p : Plan) (va : Nat) : Nat := tabGet 0 p.frames (va / 2 ^ 16) + va % 2 ^ 16

/-! ### Slots (R197, R361) -/

/-- Why a drain of n bytes in a format cannot go to a slot (R197, R384): none when it can. -/
def slotReason (s : State) (id gen slot n fmt : Nat) : Option Nat :=
  match planAt s (pkgOf s.cur.core) id gen with
  | none => some 0x03
  | some k =>
    let p := s.plan k
    if p.ctx = s.task.ctx ∧ p.skind = 1 ∧ (p.rankOf s.cur.core).isSome ∧ slot < p.iters ∧ n = p.len ∧ (p.op = 1 ∨ p.op = 2 → fmt = p.fmt) then none
    else some 0x03

/-- A drained tile handed to its slot (R197); to a plan that has ended it is discarded and the drain is complete (R368). -/
def handSlot (id gen slot : Nat) (bytes : List Nat) (tl : Option Nat) (num : Nat) (s : State) : State :=
  match planAt s (pkgOf s.cur.core) id gen with
  | none => s.post .matrixDrainComplete { unit := s.cur.core, k := (tl.map (· + 1)).getD 0, n := num, v := s.task.id }
  | some k => match (s.plan k).rankOf s.cur.core with
    | none => s
    | some j => (s.modRank k j fun r => { r with slots := r.slots ++ [{ slot := slot, bytes := bytes, task := s.task.id, tl := tl, num := num }] }).post
        .planPartStart { unit := pkgOf s.cur.core, k := k, j := j }

/-! ### The end of a plan (R368), staleness (R372) -/

/-- Chunks or triggers dropped for an ID that is not current, or for a stale or failed plan (R379). -/
def countStale (pkg : Nat) (s : State) : State := countPkg pkg 0xC7 1 (s.modPkg pkg fun p => { p with plStale := sat p.plStale })

/-- A trigger dropped: its numbered operation is complete at once (R382). -/
def dropTrig (core : Nat) (t : Trig) (s : State) : State := match t.op with | some op => completeOp core op s | none => s

/-- Every waiting trigger of a plan dropped and counted (R369, R372). -/
def dropTrigs (k : Nat) (s : State) : State :=
  ((s.plan k).ranks.foldl (fun s r => r.trigs.foldl (fun s t => countStale r.pkg (dropTrig r.key t s)) s) s).modPlan k fun p =>
    { p with ranks := p.ranks.map fun r => { r with trigs := [] } }

/-- A port of a node: of a package, or of a switch. -/
def State.portOf (s : State) (e : Nat × Nat) : Port :=
  if e.1 < 8192 then tabGet {} (s.pkg e.1).ports e.2 else tabGet {} s.switches ((e.1 - 8192) * 256 + e.2 % 256)

/-- A port of a node changed. -/
def State.modPortOf (s : State) (e : Nat × Nat) (f : Port → Port) : State :=
  if e.1 < 8192 then s.modPkg e.1 fun p => { p with ports := tabSet {} p.ports e.2 (f (s.portOf e)) }
  else { s with switches := tabSet {} s.switches ((e.1 - 8192) * 256 + e.2 % 256) (f (s.portOf e)) }

/-- A reservation on a port changed by one share (R354). -/
def moveShare (up : Bool) (e : Nat × Nat) (s : State) : State :=
  s.modPortOf e fun p => { p with share := if up then p.share + 1 else p.share - 1 }

/-- The bytes that a released plan leaves undefined (R368): those that the groups write which a started part sends to or waits for. -/
def Plan.openBytes (p : Plan) : List Nat :=
  (p.ranks.zipIdx).flatMap fun e => if e.1.part.isNone then [] else
    let q := e.1.done
    ((((List.range p.iters).map fun it => p.groupOf q (e.2, it)) ++ p.groupsTo q e.2).dedup).flatMap fun g =>
      (List.range p.len).map fun i => p.pa ((p.dst q (g / p.iters) (g % p.iters)).toNat + i)

/-- The end of a plan (R368): numbers waiting on it are complete, its reservations return, its ID leaves every table, the bytes that its
started parts write hold free values (log 3). Chunks in flight are dropped and counted where they come next (R367, R379). -/
def endPlan (k : Nat) (s : State) : State :=
  let p := s.plan k
  let s := p.ranks.foldl (fun s r =>
    let s := r.trigs.foldl (fun s t => dropTrig r.key t s) s
    let s := match r.part with | some e => dropTrig r.key e.1 s | none => s
    r.slots.foldl (fun s c => match c.tl with | some tl => completeOp r.key (c.task, tl, c.num) s | none => s) s) s
  let s := match p.setup with | some op => completeOp op.1 op.2 s | none => s
  let s := (p.grps.flatMap (·.redos)).foldl (fun s op => completeOp op.1 op.2 s) s
  let s := p.res.foldl (fun s e => moveShare false e s) s
  let s := p.pkgs.foldl (fun s g => s.modPkg g fun x =>
    { x with plans := tabSet 0 x.plans p.id 0, planFreed := (p.id, p.gen, s.tick) :: x.planFreed }) s
  let s := if p.openBytes.isEmpty then s else
    { storeCells s (p.openBytes.map fun a => (a, Config.freeByte s.nfree a)) with nfree := s.nfree + 1 }
  { s with plans := tabSet {} s.plans k {} }

/-- A sequence's map generation has moved: the ready plans bound to it at another become stale (R372). -/
def stalePlans (seq gen : Nat) (s : State) : State :=
  s.plans.foldl (fun s e =>
    if e.2.bind ∧ e.2.seq = seq ∧ e.2.mgen ≠ gen ∧ e.2.state = 2 then
      dropTrigs e.1 (s.modPlan e.1 fun p => { p with state := 4, status := 0x07 })
    else s) s

end Sys2Proof.Machine
end

