-- ==== Sys2Proof/Machine/Control.lean ====
section
/-!
DEFINITION. Sys2Proof/Machine/Control.lean: branch targets, branches with their three delay slots, hardware loops, and
what ends a stream cycle: the next fetch address (R102 to R106, R159, R178).
-/

namespace Sys2Proof.Machine

/-- `brp` (R102): a word offset from its own address, with latency 1. -/
def execBrp (gd : Guard) (d o : Nat) (s : State) : Host.Outcome State Fault Refusal :=
  onStream s (guarded gd fun s => resultIn 1 (.breg d (BitVec.ofNat 32 (wordTarget s 18 o))) 0 s)

/-- `brpx` (R102): the low 32 bits of a register, with latency 1. -/
def execBrpx (gd : Guard) (d a : Nat) (s : State) : Host.Outcome State Fault Refusal :=
  onStream s (guarded gd (reading [a] fun s => resultIn 1 (.breg d ((s.reg a).setWidth 32)) 0 s))

/-- A transfer to a target after three delay slots (R103): it is taken at the end of the fourth word from here, this one
counted. -/
def branchTo (target : Nat) (s : State) : State := s.modStr fun x => { x with brs := x.brs ++ [(4, target)] }

/-- The target a b register holds, read at issue (R103). -/
def bTarget (s : State) (b : Nat) : Nat := (s.str.b.getD b 0).toNat

/-- `br` (R103). -/
def execBr (gd : Guard) (b : Nat) (s : State) : Host.Outcome State Fault Refusal :=
  onStream s (guarded gd fun s => branchTo (bTarget s b) s)

/-- `br.l` (R104): as `br`, landing the address after the delay slots. -/
def execBrL (gd : Guard) (b d : Nat) (s : State) : Host.Outcome State Fault Refusal :=
  onStream s (guarded gd fun s =>
    branchTo (bTarget s b) (result 0 (.regs [(d, BitVec.ofNat 64 (s.pc + 16))]) 0 s))

/-- What a loop instruction does to its counter (R105, R178): a count of 0 skips the body. -/
def startLoop (k : Nat) (n : Word32) (e : Nat) (vec : Bool) (s : State) : State :=
  let a := s.pc
  s.modStr fun x =>
    if n = 0 then
      { x with lc := x.lc.modify k fun l => { l with cnt := 0, act := false, vec := vec }, skip := some ((a + 4 * e + 4) % 2 ^ 32) }
    else
      { x with
        lc := x.lc.set k { cnt := n, start := (a + 4) % 2 ^ 32, stop := (a + 4 * e) % 2 ^ 32, act := true, vec := vec, ord := x.loops + 1 }
        loops := x.loops + 1 }

/-- `loop` (R105): its count is the low 32 bits of a register. -/
def execLoop (gd : Guard) (k a e : Nat) (s : State) : Host.Outcome State Fault Refusal :=
  onStream s (guarded gd (reading [a] fun s => startLoop k ((s.reg a).setWidth 32) e false s))

/-- `loopi` (R105): its count is in the word. -/
def execLoopi (gd : Guard) (k n e : Nat) (s : State) : Host.Outcome State Fault Refusal :=
  onStream s (guarded gd fun s => startLoop k (BitVec.ofNat 32 n) e false s)

/-- `vloop` (R178): as `loop`, marking its counter as a vector loop. -/
def execVloop (gd : Guard) (k a e : Nat) (s : State) : Host.Outcome State Fault Refusal :=
  onStream s (guarded gd (reading [a] fun s => startLoop k ((s.reg a).setWidth 32) e true s))

/-- The stage predicates a mask puts into p(pbase) on: p0 and p16 upward are dropped (R177, R178). -/
def stagePreds (pbase n mask : Nat) : List (Nat × Bool) :=
  ((List.range n).map fun k => (pbase + k, decide (mask / 2 ^ k % 2 = 1))).filter fun e => 1 ≤ e.1 ∧ e.1 ≤ 15

/-- The repeat of a vector loop whose count is now n (R178): the window turns, and the shifted mask, which alone of `stg` changes,
and the stage predicates land for the next word. DESIGN CHOICE (log 23): `stg` or `qrot` that a `csrw` in the end word has written is what
the repeat starts from, and over a `vstg` in the end word the repeat's mask and predicates win. -/
def vloopRepeat (n : Nat) (s : State) : State :=
  let t := s.task
  let st := min (fld t.stg 11 8) 8
  let mask := (2 * fld t.stg 7 0 + (if st ≤ n then 1 else 0)) % 2 ^ st
  resultIn 1 (.mask mask (stagePreds (fld t.stg 15 12) st mask)) 0 (s.modTask fun t => { t with qrot := (t.qrot + 15) % 16 })

/-- The loop test at an address (R106): the counters whose body ends there, the most recent first. The next address if
one repeats, the counters after it, and the count of a vector counter that repeats. -/
def loopTest (pc : Nat) (lc : List Loop) : Option Nat × List Loop × Option Nat :=
  let at' (k : Nat) : Bool := let l := lc.getD k {}; l.act && l.stop = pc
  let order := if (lc.getD 0 {}).ord < (lc.getD 1 {}).ord then [1, 0] else [0, 1]
  (order.filter at').foldl (fun r k =>
    if r.1.isSome then r
    else
      let l := r.2.1.getD k {}
      if 1 < l.cnt.toNat then
        (some l.start, r.2.1.set k { l with cnt := l.cnt - 1 }, if l.vec then some (l.cnt.toNat - 1) else none)
      else (none, r.2.1.set k { l with cnt := 0, act := false }, none)) (none, lc, none)

/-- The end of a word's last cycle: a due transfer, a skipped body, a repeated loop or the next word (R103, R106, R159). -/
def nextPc (s : State) : State :=
  let x := s.str
  let brs := x.brs.map fun e => (e.1 - 1, e.2)
  let rest := brs.filter fun e => e.1 ≠ 0
  match (brs.filter fun e => e.1 = 0).head? with
  | some e => s.modStr fun x => { x with pc := e.2, brs := rest, skip := none }
  | none =>
    match x.skip with
    | some a => s.modStr fun x => { x with pc := a, brs := rest, skip := none }
    | none =>
      let r := loopTest x.pc x.lc
      let s := match r.2.2 with | some n => vloopRepeat n s | none => s
      s.modStr fun x => { x with pc := r.1.getD ((x.pc + 4) % 2 ^ 32), brs := rest, lc := r.2.1 }

/-- The word has ended in this cycle: what a stream does when its cycle is over (R90, R94, R101). A frozen stream stays
in its cycle; a stopped one too, unless its word has done its work; an occupancy under way keeps its word. -/
def endCycle (was : Option Nat) (s : State) : State :=
  let x := s.str
  let stays := match x.status with
    | .running => x.frozen.isSome
    | .stopped _ .cont => false
    | .stopped _ .stop => false
    | .stopped _ _ => true
    | .idle => true
    | .ended => false
  let first := match x.frozen with | some c => some (was.getD c) | none => none
  if stays then s.modStr fun x => { x with frozen := first }
  else
    let s := match x.occ with
      | some _ => s
      | none => nextPc s
    s.modStr fun x => { x with cyc := x.cyc + 1, redo := false, phase := 0, got := if x.occ.isSome then x.got else [], frozen := first, frzc := false, frz := if first.isSome then x.frz else was.getD x.frz }

end Sys2Proof.Machine
end

