-- ==== Sys2Proof/Machine/Sync.lean ====
section
/-!
DEFINITION. Sys2Proof/Machine/Sync.lean: semaphores, gang barriers and waits on timeline counters (R128 to R138, R143 to
R146, R219).
-/

namespace Sys2Proof.Machine

/-! ### What a release covers -/

/-- A stream's earlier accesses are performed: its stores have left the buffer and its due loads have sampled (R135,
R207). Loads due later and operations that go on after issue are not covered. -/
def covered (x : Stream) : Bool := x.sbuf.isEmpty && x.flights.all fun f => f.req.isNone || !(f.due ≤ x.cyc)

/-- Every earlier load of the stream has sampled memory. -/
def loadsDone (x : Stream) : Bool := x.flights.all fun f => f.req.isNone

/-- A release: the stream stays in its cycle with cause 0x9 until what it covers is performed (R131, R144); then the release is
applied, by the event e or by the stream's next turn. -/
def afterCovered (e : Instr) (f : State → State) (s : State) : State :=
  if covered s.str then f s else (freezeAfter 0x9 s).postOnce e { unit := s.cur.core, st := s.cur.st }

/-! ### Semaphores -/

/-- A semaphore of the executing task. -/
def State.sem (s : State) (n : Nat) : Sem := s.task.sems.getD n {}

/-- One semaphore changed. -/
def State.modSem (s : State) (n : Nat) (f : Sem → Sem) : State :=
  s.modTask fun t => { t with sems := t.sems.modify n f }

/-- A semaphore fault (R130, R131, R425). -/
def semFault (n reason k : Nat) (s : State) : State :=
  let m := s.sem n
  takeFault { cls := 0x0C, reason := reason, i0 := n, i1 := m.cnt + k * 2 ^ 16 + m.ceil * 2 ^ 32 } .never s

/-- The wait or try of stream k has succeeded: count taken, queue left, and what the signals cover is visible (R130, R132, R135,
R141). -/
def semTake (n k st : Nat) (s : State) : State :=
  (s.modSem n fun m => { m with cnt := m.cnt - k, waiters := m.waiters.filter fun w => w.1 ≠ st }).modTask (seePreds st n)

/-- A semaphore instruction of this wall cycle that is served at its end (R134). -/
def semAsk (a : SemAsk) (s : State) : State := s.modTask fun t => { t with semq := t.semq ++ [a] }

/-- `sem.wait semN, k` (R130): it waits from its issue on, and the end of its wall cycle serves it first (R134). -/
def semWait (n k : Nat) (s : State) : State :=
  if s.str.redo then freezeAfter 0x6 s
  else if (s.sem n).ceil < k then semFault n 0x02 k s
  else freezeAfter 0x6 (semAsk (.wait s.cur.st n k) s)

/-- `sem.wait` (R130). -/
def execSemWait (gd : Guard) (n k : Nat) (s : State) : Host.Outcome State Fault Refusal := onStream s (guarded gd (semWait n k))

/-- The addition of a signal once its coverage is met (R131): a release of what its stream has made and read (R135). -/
def semAdd (n k : Nat) (s : State) : State :=
  if (s.sem n).ceil < (s.sem n).cnt + k then semFault n 0x01 k s
  else
    let s := (releaseAt 1 s).modTask (coverPreds s.cur.st.num n)
    countCore s.cur.core 0x49 1 (s.modSem n fun m => { m with cnt := m.cnt + k })

/-- `sem.sig` (R131, R135). -/
def execSemSig (gd : Guard) (n k : Nat) (s : State) : Host.Outcome State Fault Refusal :=
  onStream s (guarded gd (afterCovered .semSignalApply (semAdd n k)))

/-- `sem.try` (R132): what it lands is decided with the other changes of its wall cycle (R134). -/
def semTry (n p : Nat) (s : State) : State := semAsk (.try' s.cur.st n p s.str.seq) (landPred p false s)

/-- `sem.try` (R132). -/
def execSemTry (gd : Guard) (n p : Nat) (s : State) : Host.Outcome State Fault Refusal := onStream s (guarded gd (semTry n p))

/-- `sem.rd` (R133): the count, sampled after every change of its wall cycle, with class csr. -/
def semRead (n r : Nat) (s : State) : State := semAsk (.read s.cur.st n r s.str.seq) (result 14 (.regs [(r, 0)]) 0 s)

/-- `sem.rd` (R133). -/
def execSemRd (gd : Guard) (n r : Nat) (s : State) : Host.Outcome State Fault Refusal := onStream s (guarded gd (semRead n r))

/-- A result in flight gets the value that the end of the wall cycle gives it. -/
def setLand (seq : Nat) (l : Land) (s : State) : State :=
  s.modStr fun x => { x with flights := x.flights.map fun f => if f.seq = seq then { f with land := l } else f }

/-! ### Gang barriers -/

/-- The physical barrier that a task's gang names gbN (R143). -/
def State.gbar (s : State) (i : Nat) : GBar := tabGet {} (s.die (dieOf s.cur.core)).gbars i

/-- A physical barrier changed. -/
def State.modGbar (s : State) (i : Nat) (f : GBar → GBar) : State :=
  s.modDie (dieOf s.cur.core) fun d => { d with gbars := tabSet {} d.gbars i (f (tabGet {} d.gbars i)) }

/-- A phase ends when everyone expected has arrived (R144, R146). -/
def GBar.settle (b : GBar) : GBar :=
  if b.owner ≠ 0 ∧ b.arrived = b.expected then { b with arrived := 0, phase := b.phase + 1, expected := b.expected - b.next, next := 0 } else b

/-- The phase of the task's most recent arrival at gbN. -/
def State.mine (s : State) (n : Nat) : Option Nat := (s.task.mine.getD n none)

/-- The arrival of `gb.arr` and `gb.sync` (R144, R145): a release at gang scope. -/
def gbArrive (n : Nat) (s : State) : State :=
  let i := s.task.bars.getD n 0
  let s := (releaseAt 2 s).modTask (coverPreds s.cur.st.num (64 + n))
  let ph := (s.gbar i).phase
  (s.modGbar i fun b => { b with arrived := b.arrived + 1 }.settle).modTask fun t => { t with mine := t.mine.set n (some ph) }

/-- A barrier fault (R144). -/
def gbFault (reason : Nat) : State → State := fault 0x0D reason 0

/-- An arrival: before its issue it is checked that the barrier is the gang's and that this phase has no arrival of the task yet
(R144). -/
def gbArr (n : Nat) (f : State → State) (s : State) : State :=
  if s.task.bars.length ≤ n then gbFault 0x01 s
  else if !s.str.redo && s.mine n = some (s.gbar (s.task.bars.getD n 0)).phase then gbFault 0x02 s
  else afterCovered .gbArrivalApply (fun s => f (gbArrive n s)) s

/-- The phase that a wait at gbN waits for, as its issue found it: a frozen one keeps it as 2 more in `phase` (R144). -/
def State.awaited (s : State) (n : Nat) : Option Nat := if s.str.redo && decide (2 ≤ s.str.phase) then some (s.str.phase - 2) else s.mine n

/-- The wait of `gb.wait` and `gb.sync` (R144): an acquire when the phase is over. -/
def gbWait (n : Nat) (s : State) : State :=
  if s.task.bars.length ≤ n then gbFault 0x01 s
  else match s.awaited n with
    | none => s
    | some ph =>
      if ph < (s.gbar (s.task.bars.getD n 0)).phase then s.modTask (seePreds s.cur.st.num (64 + n))
      else freezeAfter 0x7 (s.modStr fun x => { x with phase := ph + 2 })

/-- `gb.arr` (R144). -/
def execGbArr (gd : Guard) (n : Nat) (s : State) : Host.Outcome State Fault Refusal := onStream s (guarded gd (gbArr n id))

/-- `gb.wait` (R144). -/
def execGbWait (gd : Guard) (n : Nat) (s : State) : Host.Outcome State Fault Refusal := onStream s (guarded gd (gbWait n))

/-- `gb.sync` (R144): the arrival, then the wait; frozen after its arrival (`phase` not 0) it only waits. -/
def gbSync (n : Nat) (s : State) : State :=
  if s.str.redo && s.str.phase != 0 then gbWait n s
  else gbArr n (fun s => gbWait n (s.modStr fun x => { x with phase := 1 })) s

/-- `gb.sync` (R144). -/
def execGbSync (gd : Guard) (n : Nat) (s : State) : Host.Outcome State Fault Refusal := onStream s (guarded gd (gbSync n))

/-! ### Timeline waits -/

/-- A counter of the executing task. -/
def State.tl (s : State) (n : Nat) : Tl := s.task.tls.getD n {}

/-- `fence.tlw` (R219): the acquire when the counter has reached the number. -/
def fenceTlw (n r : Nat) (s : State) : State :=
  if (s.reg r).toNat ≤ (s.tl n).mark then s else freezeAfter 0x9 s

/-- `fence.tlw` (R219): an operation is complete only when its effects are performed at system scope, so every scope is
met when the mark is. -/
def execFenceTlw (gd : Guard) (n _sc r : Nat) (s : State) : Host.Outcome State Fault Refusal :=
  onStream s (guarded gd (reading [r] (fenceTlw n r)))

end Sys2Proof.Machine
end

