-- ==== Sys2Proof/Machine/Mem.lean ====
section
/-!
DEFINITION. Sys2Proof/Machine/Mem.lean: loads, stores, scratchpad accesses, acquire and release forms, fences, atomics
and sequentially consistent accesses (R122 to R127, R205 to R227). A load or an atomic that is not answered at once stays
in flight unsampled until LOAD_DATA_ARRIVAL; a store stays in the store buffer until STORE_BUFFER_DRAIN.
-/

namespace Sys2Proof.Machine

/-! ### Which earlier accesses hold an access back -/

/-- Two sets of bytes meet. -/
def meets (a : List Nat) (b : List Nat) : Bool := a.any fun x => b.contains x

/-- A load is an atomic's. -/
def LoadReq.isAtomic (r : LoadReq) : Bool := match r.how with | .atomic _ _ _ _ _ => true | _ => false

/-- The bytes of a store-buffer entry. -/
def SbEnt.addrs (e : SbEnt) : List Nat := e.cells.map Prod.fst

/-- An access to a UN page that no fence before access `fen` orders is not covered by a release (R209, R211). -/
def loose (un : Bool) (seq fen : Nat) : Bool := un && decide (fen ≤ seq)

/-- An unsampled load or atomic g, issued before number n, orders an access of these bytes after itself (R208, R209, R211): it is
an acquire, before every access that follows (R212; DEDUCED, log 7: those to UN pages too, by R232's table); both are SO; or they meet. -/
def holdsBack (n : Nat) (addrs : List Nat) (so : Bool) (g : Flight) : Bool :=
  decide (g.seq < n) && match g.req with
    | none => false
    | some r => r.acq || (so && r.so) || meets r.addrs addrs

/-- An earlier access in flight that a release at number n covers, `fen` being the access its stream's last fence follows (R211). -/
def coveredLoad (n fen : Nat) (g : Flight) : Bool :=
  decide (g.seq < n) && match g.req with | none => false | some r => !loose r.un g.seq fen

/-- A load may sample memory now (R208, R209, R212, R213): no earlier load or atomic holds it back; an SO access waits for SO
stores, an atomic for stores to its bytes and for what a `fence.rel` before it covers, a release for what it covers. -/
def maySample (x : Stream) (f : Flight) (r : LoadReq) : Bool :=
  !(x.flights.any (holdsBack f.seq r.addrs r.so)) &&
  !(x.sbuf.any fun e => decide (e.seq < f.seq) && ((r.so && e.so) || (r.rel && !loose e.un e.seq (fenPos r.fen)) || (r.isAtomic && (meets r.addrs e.addrs || decide (e.seq < fenPos r.fen))))) &&
  !(r.rel && x.flights.any (coveredLoad f.seq (fenPos r.fen))) &&
  !(r.isAtomic && x.flights.any fun g => decide (g.seq < fenPos r.fen) && g.req.isSome)

/-- A store-buffer entry may leave now (R208, R209, R212, R213): no earlier store to its bytes and no earlier SO store before an SO
one, no earlier load or atomic holding it back, a release after what it covers, and everything after what a `fence.rel` before
it covers. -/
def mayDrain (x : Stream) (e : SbEnt) : Bool :=
  !(x.sbuf.any fun d => decide (d.seq < e.seq) && (meets d.addrs e.addrs || (d.so && e.so) || (e.rel && !loose d.un d.seq (fenPos e.fen)) || decide (d.seq < fenPos e.fen))) &&
  !(x.flights.any (holdsBack e.seq e.addrs e.so)) &&
  !(e.rel && x.flights.any (coveredLoad e.seq (fenPos e.fen))) &&
  !(x.flights.any fun g => decide (g.seq < fenPos e.fen) && g.req.isSome)

/-- The byte an earlier store of the stream forwards to access number q (R123, R208), unless an atomic stands between. -/
def forwarded (x : Stream) (q a : Nat) : Option Byte :=
  let at' := x.flights.foldl (fun n f => match f.req with
    | some r => if r.isAtomic && r.addrs.contains a && decide (f.seq < q) then max n (f.seq + 1) else n
    | none => n) 0
  (x.sbuf.filter fun e => decide (at' ≤ e.seq ∧ e.seq < q)).foldl (fun r e => match e.cells.find? (fun c => c.1 = a) with
    | some c => some c.2
    | none => r) none

/-- A byte that access number q of the executing stream reads, seeing the first c of the open writes, and the open write it reads
(R208, R211). -/
def seenByte (s : State) (q c a : Nat) : Byte × Option Old :=
  match forwarded s.str q a with
  | some b => (b, none)
  | none => readSeen s (s.str.must q) c a

/-- How many of the open writes a read sees that nothing makes it see: open (R208; log 7). -/
def openCut (s : State) : Nat := if s.olds.isEmpty then 0 else Config.freeChoice s.nfree % (s.olds.length + 1)

/-- What a read by access number q has made the stream see: the writes read, and the releases that they carry (R208, R211). -/
def heardBytes (q : Nat) (r : LoadReq) (l : List (Byte × Option Old)) (s : State) : State :=
  if s.olds.isEmpty then s
  else
    let w := (l.filterMap Prod.snd).dedup
    hear r q (w.flatMap (·.rels)).dedup ({ s.modStr fun x => x.sees (w.map (·.n)) (q + 1) with nfree := s.nfree + 1 })

/-! ### Page checks of a scalar access (R124, R216) -/

/-- What a load page answers: a compressed page faults, a constant-fill page reads its pattern. -/
def patternBytes (s : State) (pte a n : Nat) : List Nat :=
  let pat := tabGet 0 (s.pkg (pkgOf s.cur.core)).cpat (fld pte 5 0)
  (List.range n).map fun i => pat / 256 ^ ((a + i) % 8) % 256

/-- The fault a store or an atomic takes from its page (R124): constant-write, protection, format. -/
def storePageFault (pte : Nat) : Option Nat :=
  if pteCf pte then some 0x0A else if !pteW pte then some 0x09 else if pteCmp pte then some 0x03 else none

/-- The access goes to another package (R355). -/
def isRemote (s : State) (pa : Nat) : Bool := decide (pa / 2 ^ 45 ≠ pkgOf s.cur.core)

/-- A route to the package of a physical address is up (R468). -/
def reachable (s : State) (pkg pa : Nat) : Bool := pa / 2 ^ 45 = pkg || (s.pkg pkg).reach.contains (pa / 2 ^ 45)

/-- The place of a remote request (R355): a 65th request freezes with cause 0x5, before its issue or, on a retry, after
it; otherwise it counts as outstanding. -/
def remotePlace (pa : Nat) (f : State → State) (s : State) : State :=
  if isRemote s pa then
    if 64 ≤ s.curCore.remote then s.modStr fun x => { x with frozen := some 0x5 }
    else f (countCore s.cur.core 0x46 1 (s.modCore s.cur.core fun c => { c with remote := c.remote + 1 }))
  else f s

/-! ### Loads -/

/-- The value bytes put into a register (R123): extended from their size. -/
def extend (size : Nat) (sx : Bool) (v : Nat) : Word64 := if sx then sext (8 * size) v else zext (8 * size) v

/-- What an atomic writes (R215): none for a cas that fails. -/
def atomicNew (op size old v new : Nat) : Option Nat :=
  let w := 8 * size
  let lt := toSigned w old < toSigned w v
  match op with
  | 0 => some ((old + v) % 2 ^ w)
  | 1 => some v
  | 2 => if old = v then some new else none
  | 3 => some (old &&& v)
  | 4 => some (old ||| v)
  | 5 => some (old ^^^ v)
  | 6 => some (if lt then v else old)
  | _ => some (if lt then old else v)

/-- What the bytes of a load become when they are there. -/
def LoadHow.land (h : LoadHow) (bytes : List Nat) : Land :=
  match h with
  | .reg r n sx => .regs [(r, extend n sx (ofBytes bytes))]
  | .spad dst => .spad (dst.zip (bytes.map (BitVec.ofNat 8)))
  | .atomic _ r n _ _ => .regs [(r, extend n false (ofBytes bytes))]

/-- The load's answer arrives (R93): memory is sampled; an atomic reads the newest value and updates it in the same step (R215). -/
def sample (q : Nat) (r : LoadReq) (s : State) : Land × State :=
  let cut := if r.isAtomic then s.olds.length else openCut s
  let l := r.addrs.map (seenByte s q cut)
  let bytes := l.map fun b => b.1.toNat
  let s := heardBytes q r l s
  match r.how with
  | .atomic op _ n v new =>
    let w' := (atomicNew op n (ofBytes bytes) v new).isSome
    let s' := match atomicNew op n (ofBytes bytes) v new with
      | some w => enterMem q r.so r.un (relsOf q r.rel r.sc r.fen s ++ heldRels s r.addrs true) ((r.addrs.zip (toBytes n w)).map fun e => (e.1, BitVec.ofNat 8 e.2))
          (performFen r.fen s)
      | none => s
    (r.how.land bytes, match r.addrs.head? with | some a => cached r.fill r.l2 a w' s' | none => s')
  | h => (h.land bytes, match r.addrs.head? with | some a => cached r.fill r.l2 a false s | none => s)

/-- A package with a lower ID may still issue an access of the domain wheel in the hour of a stamp (R227): the hour is not over. -/
def hourOpen (s : State) (k : Nat) : Bool :=
  s.tick / 32768 * 2 ^ 13 + s.tick % 32768 / 4 = k && s.members.any (· < pkgOf s.cur.core)

/-- The executing stream's SC access is the next in the order of its wheel (R227): no SC access of the wheel with an earlier stamp
(turn, hour, package, core) is still to be performed, or to be issued. -/
def scTurn (s : State) : Bool :=
  match s.str.stamp with
  | none => true
  | some (dom, k) => !(dom && hourOpen s k) && !(s.cores.any fun c => (c.1 ≠ s.cur.core && (dom || pkgOf c.1 = pkgOf s.cur.core)) && match c.2.task with
    | some t => (match t.s.status with | .stopped _ .never => false | _ => true) &&
      (match t.s.stamp with | some (d, k') => d = dom && (decide (k' < k) || (k' = k && decide (c.1 < s.cur.core))) | none => false)
    | none => false)

/-- An ordinary load to register 0, which never waits for its data (R100). -/
def LoadReq.discards (r : LoadReq) : Bool := !r.acq && match r.how with | .reg 0 _ _ => true | _ => false

/-- What a load brings is there at its issue (R99, R100). -/
def landLoad (cls : Nat) (r : LoadReq) (l : Land) (s : State) : State :=
  if r.discards then resultIn (s.task.lat cls) l 0 s else result cls l 0 s

/-- A load issued (R100, R355): answered at once on an L1 hit that nothing holds back, else in flight with its data late; a hit makes no
remote request. -/
def issueLoad (cls : Nat) (r : LoadReq) (s : State) : State :=
  let x := s.str
  let due := x.cyc + s.task.lat cls
  let r := { r with org := s.org }
  let hit := r.fill && !r.isAtomic && (r.addrs.head?.map fun a => l1Has s a).getD false
  let r := if hit then { r with remote := false } else r
  let f : Flight := { due := due, iss := x.cyc, seq := x.seq, land := .none, req := some r, wait := if r.discards then 0 else 3 }
  let plain := match r.how with | .reg _ _ _ => true | _ => false
  let count (s : State) : State := if r.isAtomic then countCore s.cur.core 0x48 1 s else if r.fill then countCore s.cur.core (if hit then 0x40 else 0x41) 1 s else s
  if plain && hit && maySample x f r && (!r.hard || scTurn s) && !(r.addrs.any (poisonedAt s)) then
    let o := sample x.seq r (count s)
    landLoad cls r o.1 (if r.hard then o.2.modStr fun x => { x with stamp := none } else o.2)
  else
    let go (s : State) : State :=
      ((count s).modStr fun x => { x with flights := x.flights ++ [f], seq := x.seq + 1 }).post .loadDataArrival { unit := s.cur.core, st := s.cur.st, k := x.seq }
    if hit then go s else remotePlace (r.addrs.headD 0) go s

/-- The kind of an access towards ordering, caches and remoteness, from its page and its cache hint. -/
def loadReq (s : State) (p : Page) (va hint : Nat) (how : LoadHow) (addrs : List Nat) : LoadReq :=
  { va := va, addrs := addrs, how := how, so := pteOrd p.pte = 0, un := pteOrd p.pte = 2, fen := s.str.fen
    remote := isRemote s p.pa, fill := fillsL1 p.pte hint, l2 := fillsL2 p.pte hint }

/-- n physical bytes from an address on. -/
def bytesFrom (pa n : Nat) : List Nat := (List.range n).map (pa + ·)

/-- A load of 2^sz bytes at a virtual address into a register (R122 to R124); `sync` gives what it carries: acquire, its scope,
fence-like. -/
def loadAt (cls d a sz : Nat) (sx : Bool) (sync : LoadReq → LoadReq) (s : State) : State :=
  if a % 2 ^ sz ≠ 0 then fault 0x02 0 a s
  else withPage 0 a s fun p s =>
    if pteCmp p.pte then fault 0x03 0 a s
    else
      let r := sync (loadReq s p a 0 (.reg d (2 ^ sz) sx) (bytesFrom p.pa (2 ^ sz)))
      if pteCf p.pte then landLoad cls r (.regs [(d, extend (2 ^ sz) sx (ofBytes (patternBytes s p.pte a (2 ^ sz))))]) (s.modStr fun x => { x with stamp := none })
      else issueLoad cls r s

/-- `ld` (R123). -/
def execLd (gd : Guard) (d a sz x o : Nat) (s : State) : Host.Outcome State Fault Refusal :=
  onStream s (guarded gd (reading [a] fun s => loadAt 4 d (addrM s a sz o) sz (x = 1) id s))

/-- C-stream `ld` (R127). -/
def execLdC (d a sz x o : Nat) (s : State) : Host.Outcome State Fault Refusal :=
  onStream s (reading [a] fun s => loadAt 4 d (addrM s a sz o) sz (x = 1) id s)

/-- `ld.acq` (R126, R212): zero-extended, an acquire at its scope. -/
def execLdAcq (gd : Guard) (d a sz c : Nat) (s : State) : Host.Outcome State Fault Refusal :=
  onStream s (guarded gd (reading [a] fun s => loadAt 4 d (s.reg a).toNat sz false ({ · with acq := true, sc := c }) s))

/-! ### Stores -/

/-- The store-buffer entry that a store may merge into (R214): the last one with bytes of its aligned double-word, where nothing
issued since would see the difference: no fence, no release, no SO page, no load or atomic of these bytes in flight. -/
def mergeInto (x : Stream) (e : SbEnt) : Option SbEnt :=
  match (x.sbuf.filter fun d => d.addrs.any fun a => e.addrs.any fun b => a / 8 = b / 8).getLast? with
  | none => none
  | some d =>
    if (d.addrs ++ e.addrs).any (fun a => a / 8 ≠ d.addrs.headD 0 / 8) || d.so || d.remote || d.fen ≠ e.fen || x.sbuf.any (fun g => decide (d.seq < g.seq) && g.rel) ||
      x.flights.any (fun f => decide (d.seq < f.seq) && match f.req with | some r => r.rel || r.acq || meets r.addrs (d.addrs ++ e.addrs) | none => false)
    then none else some d

/-- The scope at which what a release or fence covers is performed for other streams: none where it names a bank or channel
(R205, R213). -/
def fenceScope (sc : Nat) : Nat := if 8 ≤ sc then 0 else sc

/-- Two stores merged (R214): the newer bytes, the strongest ordering, the widest scope named. -/
def SbEnt.merge (d e : SbEnt) : SbEnt :=
  { e with cells := (d.cells.filter fun c => !e.addrs.contains c.1) ++ e.cells, rel := d.rel || e.rel
           sc := if d.rel && (fenceScope e.sc ≤ fenceScope d.sc || !e.rel) then d.sc else e.sc }

/-- A store enters the store buffer at its issue (R123): by itself, or merged into an earlier one (R214; which, is open). -/
def pushStore (e : SbEnt) (s : State) : State :=
  let e := { e with seq := s.str.seq, fen := s.str.fen, org := s.org }
  let own (s : State) : State :=
    (s.modStr fun x => { x with sbuf := x.sbuf ++ [e], seq := x.seq + 1 }).post .storeBufferDrain { unit := s.cur.core, st := s.cur.st }
  match mergeInto s.str e with
  | none => own s
  | some d =>
    let s' := { s with nfree := s.nfree + 1 }
    if Config.freeChoice s.nfree % 2 = 0 then own s'
    else s'.modStr fun x => { x with sbuf := (x.sbuf.erase d) ++ [d.merge e], seq := x.seq + 1 }

/-- What a store to a page is in the store buffer. -/
def storeEnt (s : State) (p : Page) (va hint : Nat) (cells : List (Nat × Byte)) : SbEnt :=
  { seq := 0, cells := cells, so := pteOrd p.pte = 0, rel := false, un := pteOrd p.pte = 2, fill := fillsL1 p.pte hint
    l2 := fillsL2 p.pte hint, remote := isRemote s p.pa, va := va }

/-- A store of the low 2^sz bytes of v at a virtual address (R122 to R124); a full buffer freezes it before its issue. `sync` gives
what it carries: a release with its scope. -/
def storeAt (a sz : Nat) (v : Word64) (sync : SbEnt → SbEnt) (s : State) : State :=
  if 16 ≤ s.str.sbuf.length then freezeBefore 0x4 s
  else if a % 2 ^ sz ≠ 0 then fault 0x02 0 a s
  else withPage 1 a s fun p s =>
    match storePageFault p.pte with
    | some c => fault c 0 a s
    | none => remotePlace p.pa (pushStore (sync (storeEnt s p a 0 (cellsOf p.pa (2 ^ sz) v.toNat)))) s

/-- `st` (R123). -/
def execSt (gd : Guard) (d a sz o : Nat) (s : State) : Host.Outcome State Fault Refusal :=
  onStream s (guarded gd (reading [d, a] fun s => storeAt (addrM s a sz o) sz (s.reg d) id s))

/-- C-stream `st` (R127). -/
def execStC (d a sz o : Nat) (s : State) : Host.Outcome State Fault Refusal :=
  onStream s (reading [d, a] fun s => storeAt (addrM s a sz o) sz (s.reg d) id s)

/-- `st.rel` (R126, R212): a store that is a release at its scope. -/
def execStRel (gd : Guard) (d a sz c : Nat) (s : State) : Host.Outcome State Fault Refusal :=
  onStream s (guarded gd (reading [d, a] fun s => storeAt (s.reg a).toNat sz (s.reg d) ({ · with rel := true, sc := c }) s))

/-! ### Scratchpad forms -/

/-- One of the scratchpad bytes is poisoned (R428). -/
def spadPoisoned (s : State) (a n : Nat) : Bool := (List.range n).any fun i => s.poison.contains (.spad s.cur.core ((a + i) / 8))

/-- `ldsp` (R125). -/
def ldspAt (d a sz : Nat) (sx : Bool) (s : State) : State :=
  if a % 2 ^ sz ≠ 0 then fault 0x02 0 a s
  else if s.task.spadBytes < a + 2 ^ sz then fault 0x07 0 a s
  else if spadPoisoned s a (2 ^ sz) then dataLoss 3 a s
  else result 5 (.regs [(d, extend (2 ^ sz) sx (ofBytes (s.curCore.spadBytes a (2 ^ sz))))]) 0 s

/-- `ldsp` (R125). -/
def execLdsp (gd : Guard) (d a sz x o : Nat) (s : State) : Host.Outcome State Fault Refusal :=
  onStream s (guarded gd (reading [a] fun s => ldspAt d (addrM s a sz o) sz (x = 1) s))

/-- `stsp` (R125): it writes in the cycle after its issue. -/
def stspAt (a sz : Nat) (v : Word64) (s : State) : State :=
  if a % 2 ^ sz ≠ 0 then fault 0x02 0 a s
  else if s.task.spadBytes < a + 2 ^ sz then fault 0x07 0 a s
  else resultIn 1 (.spad (cellsOf a (2 ^ sz) v.toNat)) 0 s

/-- `stsp` (R125). -/
def execStsp (gd : Guard) (d a sz o : Nat) (s : State) : Host.Outcome State Fault Refusal :=
  onStream s (guarded gd (reading [d, a] fun s => stspAt (addrM s a sz o) sz (s.reg d) s))

/-! ### Fences (R213) -/

/-- A fence at stream scope has no effect beyond its issue cycle. -/
def fenceAt (sc : Nat) (f : State → State) (s : State) : State := if sc = 0 then s else f s

/-- `fence.acq` (R213): the stream waits until its earlier loads are performed; the releases they have read then synchronise with it
at the fence's scope. -/
def fenceAcq (sc : Nat) (s : State) : State := if loadsDone s.str then acquireHeard sc s else freezeAfter 0x9 s

/-- `fence.acq` (R213). -/
def execFenceAcq (gd : Guard) (sc : Nat) (s : State) : Host.Outcome State Fault Refusal := onStream s (guarded gd (fenceAt sc (fenceAcq sc)))

/-- `fence.rel` (R213): later stores wait for everything earlier, and the first that leaves performs it at the scope. -/
def fenceRel (sc : Nat) (s : State) : State := s.modStr fun x => { x with fen := addFence x.seq (fenceScope sc) x.fen }

/-- `fence.rel` (R213). -/
def execFenceRel (gd : Guard) (sc : Nat) (s : State) : Host.Outcome State Fault Refusal := onStream s (guarded gd (fenceAt sc (fenceRel sc)))

/-- `fence.ar` (R213): the stream waits until every earlier access is performed at the scope. -/
def fenceAr (sc : Nat) (s : State) : State :=
  if loadsDone s.str && s.str.sbuf.isEmpty then perform (fenceScope sc) (ownWrites s.str.seq s) (fenceRel sc (acquireHeard sc s)) else freezeAfter 0x9 s

/-- `fence.ar` (R213). -/
def execFenceAr (gd : Guard) (sc : Nat) (s : State) : Host.Outcome State Fault Refusal := onStream s (guarded gd (fenceAt sc (fenceAr sc)))

/-! ### Atomics (R215, R216) -/

/-- An atomic update of 2^sz bytes: order o (1 acquire, 2 release, 3 both) at scope c. -/
def atomic (op sz d a o c : Nat) (s : State) : State :=
  let n := 2 ^ sz
  let va := (s.reg a).toNat
  let v := (s.reg d).toNat % 2 ^ (8 * n)
  let new := (s.reg (d + 1)).toNat % 2 ^ (8 * n)
  if va % n ≠ 0 then fault 0x02 0 va s
  else withPage 2 va s fun p s =>
    match storePageFault p.pte with
    | some e => fault e 0 va s
    | none => issueLoad 15 { loadReq s p va 0 (.atomic op d n v new) (bytesFrom p.pa n) with
        acq := o = 1 ∨ o = 3, rel := o = 2 ∨ o = 3, sc := c } s

/-- The shape of an atomic's meaning: its registers are read at issue; a cas reads the register after xd as well. -/
def amExec (op sz : Nat) (gd : Guard) (d a o c : Nat) (s : State) : Host.Outcome State Fault Refusal :=
  onStream s (guarded gd (reading (if op = 2 then [d, d + 1, a] else [d, a]) (atomic op sz d a o c)))

/-- `am.add.w` (R215). -/
def execAmAddW (gd : Guard) (d a o c : Nat) (s : State) : Host.Outcome State Fault Refusal := amExec 0 2 gd d a o c s

/-- `am.swap.w` (R215). -/
def execAmSwapW (gd : Guard) (d a o c : Nat) (s : State) : Host.Outcome State Fault Refusal := amExec 1 2 gd d a o c s

/-- `am.cas.w` (R215). -/
def execAmCasW (gd : Guard) (d a o c : Nat) (s : State) : Host.Outcome State Fault Refusal := amExec 2 2 gd d a o c s

/-- `am.and.w` (R215). -/
def execAmAndW (gd : Guard) (d a o c : Nat) (s : State) : Host.Outcome State Fault Refusal := amExec 3 2 gd d a o c s

/-- `am.or.w` (R215). -/
def execAmOrW (gd : Guard) (d a o c : Nat) (s : State) : Host.Outcome State Fault Refusal := amExec 4 2 gd d a o c s

/-- `am.xor.w` (R215). -/
def execAmXorW (gd : Guard) (d a o c : Nat) (s : State) : Host.Outcome State Fault Refusal := amExec 5 2 gd d a o c s

/-- `am.max.w` (R215). -/
def execAmMaxW (gd : Guard) (d a o c : Nat) (s : State) : Host.Outcome State Fault Refusal := amExec 6 2 gd d a o c s

/-- `am.min.w` (R215). -/
def execAmMinW (gd : Guard) (d a o c : Nat) (s : State) : Host.Outcome State Fault Refusal := amExec 7 2 gd d a o c s

/-- `am.add.d` (R215). -/
def execAmAddD (gd : Guard) (d a o c : Nat) (s : State) : Host.Outcome State Fault Refusal := amExec 0 3 gd d a o c s

/-- `am.swap.d` (R215). -/
def execAmSwapD (gd : Guard) (d a o c : Nat) (s : State) : Host.Outcome State Fault Refusal := amExec 1 3 gd d a o c s

/-- `am.cas.d` (R215). -/
def execAmCasD (gd : Guard) (d a o c : Nat) (s : State) : Host.Outcome State Fault Refusal := amExec 2 3 gd d a o c s

/-- `am.and.d` (R215). -/
def execAmAndD (gd : Guard) (d a o c : Nat) (s : State) : Host.Outcome State Fault Refusal := amExec 3 3 gd d a o c s

/-- `am.or.d` (R215). -/
def execAmOrD (gd : Guard) (d a o c : Nat) (s : State) : Host.Outcome State Fault Refusal := amExec 4 3 gd d a o c s

/-- `am.xor.d` (R215). -/
def execAmXorD (gd : Guard) (d a o c : Nat) (s : State) : Host.Outcome State Fault Refusal := amExec 5 3 gd d a o c s

/-- `am.max.d` (R215). -/
def execAmMaxD (gd : Guard) (d a o c : Nat) (s : State) : Host.Outcome State Fault Refusal := amExec 6 3 gd d a o c s

/-- `am.min.d` (R215). -/
def execAmMinD (gd : Guard) (d a o c : Nat) (s : State) : Host.Outcome State Fault Refusal := amExec 7 3 gd d a o c s

/-! ### Sequentially consistent accesses (R223 to R227) -/

/-- The turn of a wheel at a tick (R223). -/
def turnOf (dom : Bool) (tick : Nat) : Nat := if dom then tick / 32768 else tick / 1024

/-- The hour of a tick on a wheel (R223). -/
def hourOf (dom : Bool) (tick : Nat) : Nat := if dom then tick % 32768 / 4 else tick % 1024

/-- The scope of a wheel's order (R223). -/
def wheelScope (dom : Bool) : Nat := if dom then 6 else 4

/-- The hours the task holds on a wheel (R224). -/
def Task.hours (t : Task) (dom : Bool) : List Nat := if dom then t.domHours else t.pkgHours

/-- An SC access may issue now (R226): an owned hour, and every earlier access performed. -/
def scReady (s : State) (dom : Bool) : Bool :=
  (s.task.hours dom).contains (hourOf dom s.tick) && loadsDone s.str && s.str.sbuf.isEmpty

/-- An SC access issues (R226): stamped with turn and hour; what happens before it is performed at the wheel's scope. -/
def scIssue (dom : Bool) (s : State) : State :=
  perform (wheelScope dom) (viewAt s.str.seq s)
    ((countCore s.cur.core 0x47 1 s).modStr fun x => { x with stamp := some (dom, turnOf dom s.tick * 2 ^ 13 + hourOf dom s.tick) })

/-- An SC access (R226): without hours it faults; it waits before its issue for an hour or for its earlier accesses. -/
def scAccess (dom : Bool) (f : State → State) (s : State) : State :=
  if s.str.redo then f s
  else if (s.task.hours dom).isEmpty then fault 0x0F 0x01 0 s
  else if scReady s dom then f (scIssue dom s)
  else
    (freezeBefore (if (s.task.hours dom).contains (hourOf dom s.tick) then 0x9 else 0x8) s).postOnce .scAccessIssue { unit := s.cur.core }

/-- `sc.ld` (R226): zero-extended, with class ato; later accesses come after it. -/
def execScLd (gd : Guard) (d a sz x o : Nat) (s : State) : Host.Outcome State Fault Refusal :=
  onStream s (guarded gd (reading [a] fun s => scAccess (x = 1)
    (loadAt 15 d (addrM s a (2 + sz) o) (2 + sz) false ({ · with acq := true, hard := true, sc := wheelScope (x = 1) })) s))

/-- A physical address of plain bytes that a stream of the executing core reaches: HBM or a scratchpad, on its own package or
one that routes reach. -/
def plainAt (s : State) (pa : Nat) : Bool :=
  reachable s (pkgOf s.cur.core) pa && (match regionOf (pa % 2 ^ 45) with | .hbm | .spad _ _ => true | _ => false)

/-- An SC store is performed before anything later, in the order of its wheel: at its issue, or, where that takes longer, with the
stream frozen until its turn has come and its store has left (R226, R227). -/
def scStoreAt (a sz : Nat) (v : Word64) (s : State) : State :=
  let done (s : State) : State := s.modStr fun x => { x with stamp := none }
  if s.str.redo && s.str.phase = 1 then (if s.str.sbuf.isEmpty then done s else freezeAfter 0x9 s)
  else if a % 2 ^ sz ≠ 0 then fault 0x02 0 a s
  else withPage 1 a s fun p s =>
    match storePageFault p.pte with
    | some c => fault c 0 a s
    | none =>
      let cells := cellsOf p.pa (2 ^ sz) v.toNat
      if !scTurn s then freezeAfter 0x9 s
      else if 64 ≤ s.curCore.remote && isRemote s p.pa then s.modStr fun x => { x with frozen := some 0x5 }
      else if plainAt s p.pa then
        whenServed [p.pa] (freezeAfter 0x9) (fun s => done (cached (fillsL1 p.pte 0) (fillsL2 p.pte 0) p.pa true (storeCells s cells))) s
      else remotePlace p.pa (fun s => freezeAfter 0x9 ((pushStore { storeEnt s p a 0 cells with so := true } s).modStr fun x => { x with phase := 1 })) s

/-- `sc.st` (R226). -/
def execScSt (gd : Guard) (d a sz x o : Nat) (s : State) : Host.Outcome State Fault Refusal :=
  onStream s (guarded gd (reading [d, a] fun s => scAccess (x = 1) (scStoreAt (addrM s a (2 + sz) o) (2 + sz) (s.reg d)) s))

end Sys2Proof.Machine
end

