-- ==== Sys2Proof/Machine/Vector.lean ====
section
/-!
DEFINITION. Sys2Proof/Machine/Vector.lean: stream registers, beats, checks and the vector instructions (R147 to R178). One
shape runs every instruction: at issue it reads its descriptors and checks them; then each of its issue cycles does one
beat, which reads its elements from the scratchpad in that cycle and lands its results a class latency later.
-/

namespace Sys2Proof.Machine

/-! ### Stream registers (R153 to R155) -/

/-- The fields of a stream register (R153). -/
structure Qd where
  rsv : Nat
  ti : Nat
  tc : Bool
  tag : Nat
  lane : Nat
  sstride : Int
  sbase : Nat
  geom : Nat
  fmt : Nat
  count : Nat
  stride : Int
  base : Nat
  deriving DecidableEq, Repr

/-- A stream register read by its layout (R153). -/
def qFields (q : QWord) : Qd :=
  let w := q.toNat
  { rsv := fld w 127 106, ti := fld w 105 105, tc := fld w 104 104 = 1, tag := fld w 103 88, lane := fld w 87 84
    sstride := toSigned 8 (fld w 83 76), sbase := fld w 75 57, geom := fld w 56 55, fmt := fld w 54 51
    count := fld w 50 35, stride := toSigned 16 (fld w 34 19), base := fld w 18 0 }

/-- The physical register of a logical number under the window (R155). -/
def physQ (qrot q : Nat) : Nat := if q < 16 then q else 16 + (q - 16 + qrot) % 16

/-- A stream register by its logical number. -/
def State.qreg (s : State) (q : Nat) : QWord := s.task.q.getD (physQ s.task.qrot q) 0

/-- The element format of a descriptor. FP32 stands for a reserved code: the checks refuse it, and under a false guard, where none is
made, R158 leaves the byte count of such an operand open (DESIGN CHOICE, log 35). -/
def Qd.ef (q : Qd) : EFmt := (efmtOf q.fmt).getD .fp32

/-- Bytes of one element of a format of at least 8 bits. -/
def EFmt.bytes (f : EFmt) : Nat := f.bits / 8

/-- A packed format has no byte address of its own for an element (R154). -/
def EFmt.packed (f : EFmt) : Bool := f = .int4 || f = .lg6p

/-- The bytes of a stream's elements (R32, R35). -/
def Qd.nbytes (q : Qd) : Nat := (q.count * q.ef.bits + 7) / 8

/-- The address of the first byte of element i (R154). -/
def Qd.addr (q : Qd) (i : Nat) : Int :=
  if q.ef.packed then q.base + (i * q.ef.bits / 8 : Nat) else q.base + i * q.stride * q.ef.bytes

/-- The block size of a geometry. -/
def geomSize (g : Nat) : Nat := if g = 1 then 16 else 32

/-- The address of block k's scale word (R154). -/
def Qd.scaleAddr (q : Qd) (k : Nat) : Int := q.sbase + 4 * k * q.sstride

/-- Blocks of a block-scaled stream. -/
def Qd.blocks (q : Qd) : Nat := q.count / (geomSize q.geom * geomSize q.geom)

/-! ### Elements -/

/-- n scratchpad bytes as a number. -/
def spadNum (c : Core) (a : Int) (n : Nat) : Nat := ofBytes (c.spadBytes a.toNat n)

/-- The code of element i (R154). -/
def Qd.get (q : Qd) (c : Core) (i : Nat) : Nat :=
  match q.ef with
  | .int4 => (c.spadGet (q.base + i / 2)).toNat / 16 ^ (i % 2) % 16
  | .lg6p => spadNum c (q.base + 3 * (i / 4)) 3 / 64 ^ (i % 4) % 64
  | f => spadNum c (q.addr i) f.bytes

/-- An LG6 code as it is written: every zero is 0b000000 (R34). -/
def lg6Code (c : Nat) : Nat := if c % 32 = 0 then 0 else c % 64

/-- Codes of consecutive elements from i as bytes with their addresses: a group of four packed codes fills three bytes
(R35), an LG6B code leaves bits 7:6 zero. -/
def Qd.put (q : Qd) (i : Nat) (codes : List Nat) : List (Nat × Byte) :=
  match q.ef with
  | .lg6p =>
    ((codes.zipIdx).foldl (fun acc e => acc + lg6Code e.1 * 64 ^ e.2) 0 |> toBytes (codes.length * 3 / 4)).zipIdx.map
      fun e => (q.base + i * 3 / 4 + e.2, BitVec.ofNat 8 e.1)
  | .lg6b => (codes.zipIdx).map fun e => ((q.addr (i + e.2)).toNat, BitVec.ofNat 8 (lg6Code e.1))
  | f => (codes.zipIdx).flatMap fun e => cellsOf (q.addr (i + e.2)).toNat f.bytes e.1

/-- Bits 19:0 of a scale word (R38). -/
def Qd.scale (q : Qd) (c : Core) (k : Nat) : Nat := spadNum c (q.scaleAddr k) 4 % 2 ^ 20

/-! ### Checks (R154, R160) -/

/-- The rules of one operand in the order of reasons 0x01, 0x02, 0x03, 0x06, 0x05 (R154, R160). -/
def Qd.reason (q : Qd) (one geo : Bool) : Option Nat :=
  let g := geomSize q.geom
  if q.rsv ≠ 0 then some 0x01
  else if 8 ≤ q.lane then some 0x02
  else if q.geom = 3 ∨ (geo ∧ q.geom = 0) ∨ (q.geom ≠ 0 ∧ (q.stride ≠ 1 ∨ q.count % (g * g) ≠ 0)) then some 0x03
  else if q.stride ≠ 1 ∧ (one ∨ q.ef.packed) then some 0x06
  else if (q.ef = .int4 ∧ q.count % 2 ≠ 0) ∨ (q.ef = .lg6p ∧ q.count % 4 ≠ 0) then some 0x05
  else none

/-- The first misaligned address of an operand (R154). -/
def Qd.misaligned (q : Qd) : Option Nat :=
  if (q.stride = 1 ∧ q.base % 64 ≠ 0) ∨ (q.stride ≠ 1 ∧ q.base % q.ef.bytes ≠ 0) then some q.base
  else if q.geom ≠ 0 ∧ q.sbase % 4 ≠ 0 then some q.sbase
  else none

/-- n bytes from an address lie in scratchpad bytes 0 to lim − 1. -/
def inSpad (lim : Nat) (a : Int) (n : Nat) : Bool := decide (0 ≤ a ∧ a + n ≤ lim)

/-- The first element or scale word outside the scratchpad bytes of the task (R149, R154): its address. -/
def Qd.outside (q : Qd) (lim : Nat) : Option Nat :=
  let n := max 1 q.ef.bytes
  let n' := if q.ef.packed then 1 else n
  let last := if q.ef.packed then (q.base + q.nbytes - 1 : Int) else q.addr (q.count - 1)
  if q.count = 0 then none
  else
    let ends := inSpad lim (q.addr 0) n' && inSpad lim last n'
    let elem := if ends then none else
      (List.range q.count).find? fun i => !inSpad lim (q.addr i) (if q.ef.packed then (if q.ef = .lg6p then (i % 4 * 6 + 6 + 7) / 8 - i % 4 * 6 / 8 else 1) else n)
    match elem with
    | some i => some ((q.addr i) % 2 ^ 64).toNat
    | none =>
      if q.geom = 0 then none
      else ((List.range q.blocks).find? fun k => !inSpad lim (q.scaleAddr k) 4).map fun k => ((q.scaleAddr k) % 2 ^ 64).toNat

/-- A failed check: class, reason, address. -/
abbrev VBad := Nat × Nat × Nat

/-- What an instruction asks of its operands, in the order qd, qa, qb, qc: the formats it accepts, which operands need
stride 1, which need a block geometry, its count relations. -/
structure VAsk where
  ok : List EFmt → Bool
  one : List Bool := []
  geo : List Bool := []
  rel : List Qd → Option Nat := fun _ => none

/-- The tag of a scratchpad page (R151). -/
def Core.tag (c : Core) (p : Nat) : Nat := tabGet 0 c.tags p

/-- The checks of R160, steps 1 to 5, in order: the first that fails; bounds are checked only for a work count n other than 0 (R158).
DESIGN CHOICE (log 35): the address of a scratchpad operand's alignment, bounds or schedule fault is its byte offset in the
scratchpad. -/
def vChecks (ask : VAsk) (c : Core) (lim n : Nat) (ops : List Qd) : Option VBad :=
  if ops.any (fun q => (efmtOf q.fmt).isNone) || !(ask.ok (ops.map Qd.ef)) then some (0x03, 0, 0)
  else match (ops.zipIdx).findSome? fun e => e.1.reason (ask.one.getD e.2 false) (ask.geo.getD e.2 false) with
  | some r => some (0x04, r, 0)
  | none => match ask.rel ops with
    | some r => some (0x04, r, 0)
    | none => match ops.findSome? Qd.misaligned with
      | some a => some (0x02, 0, a)
      | none => match (if n = 0 then none else ops.findSome? (Qd.outside · lim)) with
        | some a => some (0x07, 0, a)
        | none => (ops.find? fun q => q.tc && q.tag ≠ c.tag (q.base / 2048)).map fun q => (0x08, 0, q.base)

/-! ### Beats (R157, R158) -/

/-- Two operands' pairs, cwL and cw((L + 1) mod 8) for a lane code L, share a lane (R157). A lane code above 7, which only a false guard leaves
unchecked, names a cwL that does not exist and a second lane that does (DESIGN CHOICE, log 35). -/
def lanesMeet (a b : Nat) : Bool := a = b || (a + 1) % 8 = b || (b + 1) % 8 = a || (a + 1) % 8 = (b + 1) % 8

/-- Two distinct operand registers of an instruction use lane pairs that share a lane (R157). -/
def collides : List (Nat × Nat) → Bool
  | [] => false
  | e :: t => t.any (fun f => e.1 != f.1 && lanesMeet e.2 f.2) || collides t

/-- Elements a beat takes, by step 1 of R157. -/
def beatElems (ops : List Qd) : Nat :=
  if ops.any fun q => q.stride ≠ 0 && q.stride ≠ 1 then 8
  else if ops.any fun q => (efmtOf q.fmt).isSome && q.ef.bits = 32 then 32 else 64

/-- The beats of an instruction (R157): items a beat takes, issue cycles, cycles from one beat to the next. -/
def beatPlan (bytes clash : Bool) (ops : List Qd) (n : Nat) : Nat × Nat × Nat :=
  if bytes then
    let e := if clash then 64 else 128
    (e, max 1 ((n + e - 1) / e), 1)
  else
    let e := beatElems ops
    let b := max 1 ((n + e - 1) / e)
    if clash then (e, 2 * b, 2) else (e, b, 1)

/-- What one beat over items lo to hi − 1 gives: bytes to land, flags, and what it gathers for later beats. -/
structure VOut where
  bytes : List (Nat × Byte) := []
  fl : Nat := 0
  data : List (List Nat) := []

/-- One vector instruction: its stream registers in the order qd, qa, qb, qc, its latency class, whether it counts bytes,
its work count, what it asks, what a beat does with the scratchpad and what it has gathered, which scratchpad bytes it
reads in a beat, and what it does after its last beat. -/
structure VSpec where
  regs : List Nat
  cls : Nat
  bytes : Bool := false
  n : List Qd → Nat
  ask : VAsk
  beat : Core → List Qd → Nat → Nat → List (List Nat) → VOut
  reads : List Qd → Nat → Nat → List Nat := fun _ _ _ => []
  fin : List Qd → List (List Nat) → State → State := fun _ _ s => s

/-- The first aligned 64-byte granule among those that hold some scratchpad bytes with an uncorrectable error (R150, R161). -/
def badGranule (s : State) (bytes : List Nat) : Option Nat :=
  if s.poison.isEmpty then none else ((bytes.map (· / 64)).dedup.map (64 * ·)).find? fun g => spadPoisoned s g 64

/-- The scratchpad bytes that hold a part of element i (R35, R154): two where a packed code crosses a byte. -/
def Qd.elemBytes (q : Qd) (i : Nat) : List Nat :=
  let n := if q.ef.packed then ((i + 1) * q.ef.bits + 7) / 8 - i * q.ef.bits / 8 else q.ef.bytes
  (List.range n).map fun b => (q.addr i).toNat + b

/-- The scratchpad bytes a beat reads: elements lo to hi − 1 of the sources (element 0 where the stride is 0). -/
def srcBytes (src : List Qd) (lo hi : Nat) : List Nat :=
  src.flatMap fun q => (List.range (hi - lo)).flatMap fun i => q.elemBytes (lo + i)

/-- One issue cycle of a vector instruction under way: beat o.beat, then the next cycle or the end (R158, R161). -/
def vCycle (sp : VSpec) (o : Occ) (s : State) : State :=
  let ops := o.qs.map qFields
  let n := sp.n ops
  let plan := beatPlan sp.bytes (o.step = 2 || (sp.bytes && o.addr = 1)) ops n
  let j := o.beat / o.step
  let lo := j * plan.1
  let hi := min n (lo + plan.1)
  let next (o : Occ) (s : State) : State :=
    if o.beat + 1 < o.total then s.modStr fun x => { x with occ := some { o with beat := o.beat + 1 } }
    else (if o.go then sp.fin ops o.data s else s).modStr fun x => { x with occ := none }
  if !o.go || o.beat % o.step ≠ 0 then next o s
  else match badGranule s (sp.reads ops lo hi) with
  | some g => dataLoss 3 g s
  | none =>
    let out := sp.beat s.curCore ops lo hi o.data
    let s := if out.bytes.isEmpty && out.fl = 0 then s else result sp.cls (.spad out.bytes) out.fl s
    let s := countCore s.cur.core 0x30 1 (if o.addr = 1 then countCore s.cur.core 0x31 1 s else s)
    next { o with data := out.data } s

/-- The registers of a vector instruction as they stand at its issue. -/
def vRegs (sp : VSpec) (s : State) : List QWord := sp.regs.map s.qreg

/-- The issue of a vector instruction (R157 to R160): a false guard occupies the same cycles and does nothing. -/
def vIssue (sp : VSpec) (go : Bool) (s : State) : State :=
  let qs := vRegs sp s
  let ops := qs.map qFields
  let clash := collides ((sp.regs.map (physQ s.task.qrot)).zip (ops.map (·.lane)))
  let n := sp.n ops
  let plan := beatPlan sp.bytes clash ops n
  let o : Occ := { ins := s.str.held.getD .nop, total := if n = 0 then 1 else plan.2.1, step := plan.2.2, go := go, qs := qs, addr := if clash then 1 else 0 }
  if !go then vCycle sp o (countCore s.cur.core 0x06 1 s)
  else readingFile 0 (sp.regs.map (physQ s.task.qrot)) (fun s => match vChecks sp.ask s.curCore s.task.spadBytes n ops with
    | some b => fault b.1 b.2.1 b.2.2 s
    | none => vCycle sp o s) s

/-- A cycle of a vector instruction: its first, or the next of an occupancy under way. -/
def vRun (sp : VSpec) (gd : Guard) (s : State) : State :=
  match s.str.occ with
  | some o => vCycle sp o s
  | none =>
    let r := guardRead gd s
    vIssue sp r.1 r.2

/-! ### Element-wise shape (R164) -/

/-- Sources shorter than the work count: reason 0x04 (R164). -/
def shortSource (ops : List Qd) : Option Nat :=
  match ops with
  | d :: src => if src.any fun q => q.count < d.count then some 0x04 else none
  | [] => none

/-- An element-wise instruction: `op` maps the formats and the source codes to the destination's code and flags. -/
def elemwise (regs : List Nat) (cls : Nat) (ok : List EFmt → Bool) (op : List EFmt → List Nat → Nat × Nat) : VSpec :=
  { regs := regs, cls := cls
    n := fun ops => (ops.headD (qFields 0)).count
    ask := { ok := ok, rel := shortSource }
    reads := fun ops lo hi => srcBytes ops.tail lo hi
    beat := fun c ops lo hi _ =>
      let d := ops.headD (qFields 0)
      let r := (List.range (hi - lo)).map fun i => op (ops.map Qd.ef) (ops.tail.map fun q => q.get c (lo + i))
      { bytes := d.put lo (r.map Prod.fst), fl := foldFlags r } }

/-- Every operand is floating point. -/
def allFloat (l : List EFmt) : Bool := l.all EFmt.isFloat
/-- Every operand is an integer format other than INT4 (R32). -/
def allInt (l : List EFmt) : Bool := l.all fun f => f.isInt && f != .int4

/-- The float layout of the destination. -/
def dstF (fs : List EFmt) : Fmt := ((fs.headD .fp32).flt).getD fp32
/-- The datum of source k. -/
def srcV (fs : List EFmt) (xs : List Nat) (k : Nat) : FVal := (fs.getD (k + 1) .fp32).val (xs.getD k 0)
/-- The whole number of source k. -/
def srcI (fs : List EFmt) (xs : List Nat) (k : Nat) : Int := (fs.getD (k + 1) .int32).int (xs.getD k 0)

/-- A float operation on two data, rounded once (R165). -/
def floatOp (f : FVal → FVal → FVal) (fs : List EFmt) (xs : List Nat) : Nat × Nat :=
  pack (dstF fs) false (f (srcV fs xs 0) (srcV fs xs 1))

/-- Minimum and maximum across formats (R165): the selected element is converted to the destination. -/
def minmaxOp (big prop : Bool) (fs : List EFmt) (xs : List Nat) : Nat × Nat :=
  let a := srcV fs xs 0
  let b := srcV fs xs 1
  let d := fs.headD .fp32
  let take (k : Nat) : Nat × Nat :=
    if fs.getD (k + 1) .fp32 = d then (xs.getD k 0, 0) else cvt (fs.getD (k + 1) .fp32) d false (xs.getD k 0)
  if a.isSnan || b.isSnan then (qnan (dstF fs), flNV)
  else if a.isNan && b.isNan then (qnan (dstF fs), 0)
  else if a.isNan then (if prop then (qnan (dstF fs), 0) else take 1)
  else if b.isNan then (if prop then (qnan (dstF fs), 0) else take 0)
  else if a.isZero && b.isZero then take (if a.isNeg = big then 1 else 0)
  else if big then take (if ltV a b then 1 else 0)
  else take (if ltV b a then 1 else 0)

/-- An integer operation wrapped, or clamped under `.sat`, to the destination (R167). -/
def intOp (f : Nat → Int → Int → Int) (sat : Bool) (fs : List EFmt) (xs : List Nat) : Nat × Nat :=
  let d := fs.headD .int32
  let v := f d.bits (srcI fs xs 0) (srcI fs xs 1)
  (ofSigned d.bits (if sat then clampInt d.lo d.hi v else v), 0)

/-- A bitwise operation on the two's complement forms (R167). -/
def bitOp (f : Nat → Nat → Nat) (w : Nat) (a b : Int) : Int := (f (ofSigned w a) (ofSigned w b) : Nat)

/-- A comparison's truth and its NV (R169): k is 0 eq, 1 ne, 2 lt, 3 le, 4 un. -/
def cmpOp (k : Nat) (fs : List EFmt) (xs : List Nat) : Nat × Nat :=
  if (fs.getD 1 .fp32).isInt then
    let a := srcI fs xs 0
    let b := srcI fs xs 1
    let r : Bool := match k with | 0 => a = b | 1 => a ≠ b | 2 => a < b | 3 => a ≤ b | _ => false
    (if r then 1 else 0, 0)
  else
    let a := srcV fs xs 0
    let b := srcV fs xs 1
    let nan := a.isNan || b.isNan
    let r : Bool := match k with
      | 0 => eqV a b | 1 => !eqV a b | 2 => ltV a b | 3 => !nan && !ltV b a | _ => nan
    (if r then 1 else 0, if a.isSnan || b.isSnan || ((k = 2 ∨ k = 3) && nan) then flNV else 0)

/-- Comparisons need both sources float or both integer, and an integer destination (R169). -/
def cmpFmts (fs : List EFmt) : Bool :=
  match fs with
  | [d, a, b] => (d.isInt && d != .int4) && ((a.isFloat && b.isFloat) || (allInt [a, b]))
  | _ => false

/-- The shape of a vector instruction's meaning. -/
def vExec (sp : VSpec) (gd : Guard) (s : State) : Host.Outcome State Fault Refusal := onStream s (vRun sp gd)

/-! ### Element-wise arithmetic (R164 to R169) -/

/-- `vadd` (R165). -/
def execVadd (gd : Guard) (d a b : Nat) (s : State) : Host.Outcome State Fault Refusal :=
  vExec (elemwise [d, a, b] 6 allFloat (floatOp addV)) gd s

/-- `vsub` (R165). -/
def execVsub (gd : Guard) (d a b : Nat) (s : State) : Host.Outcome State Fault Refusal :=
  vExec (elemwise [d, a, b] 6 allFloat (floatOp fun x y => addV x (negV y))) gd s

/-- `vmul` (R165). -/
def execVmul (gd : Guard) (d a b : Nat) (s : State) : Host.Outcome State Fault Refusal :=
  vExec (elemwise [d, a, b] 6 allFloat (floatOp mulV)) gd s

/-- `vdiv` (R165). -/
def execVdiv (gd : Guard) (d a b : Nat) (s : State) : Host.Outcome State Fault Refusal :=
  vExec (elemwise [d, a, b] 6 allFloat (fun fs xs => divF (dstF fs) false (srcV fs xs 0) (srcV fs xs 1))) gd s

/-- `vmin` (R165). -/
def execVmin (gd : Guard) (d a b : Nat) (s : State) : Host.Outcome State Fault Refusal :=
  vExec (elemwise [d, a, b] 6 allFloat (minmaxOp false false)) gd s

/-- `vmax` (R165). -/
def execVmax (gd : Guard) (d a b : Nat) (s : State) : Host.Outcome State Fault Refusal :=
  vExec (elemwise [d, a, b] 6 allFloat (minmaxOp true false)) gd s

/-- `vminp` (R165). -/
def execVminp (gd : Guard) (d a b : Nat) (s : State) : Host.Outcome State Fault Refusal :=
  vExec (elemwise [d, a, b] 6 allFloat (minmaxOp false true)) gd s

/-- `vmaxp` (R165). -/
def execVmaxp (gd : Guard) (d a b : Nat) (s : State) : Host.Outcome State Fault Refusal :=
  vExec (elemwise [d, a, b] 6 allFloat (minmaxOp true true)) gd s

/-- `viadd` (R167). -/
def execViadd (gd : Guard) (d a b sat : Nat) (s : State) : Host.Outcome State Fault Refusal :=
  vExec (elemwise [d, a, b] 8 allInt (intOp (fun _ x y => x + y) (sat = 1))) gd s

/-- `visub` (R167). -/
def execVisub (gd : Guard) (d a b sat : Nat) (s : State) : Host.Outcome State Fault Refusal :=
  vExec (elemwise [d, a, b] 8 allInt (intOp (fun _ x y => x - y) (sat = 1))) gd s

/-- `vimul` (R167). -/
def execVimul (gd : Guard) (d a b sat : Nat) (s : State) : Host.Outcome State Fault Refusal :=
  vExec (elemwise [d, a, b] 8 allInt (intOp (fun _ x y => x * y) (sat = 1))) gd s

/-- `viand` (R167). -/
def execViand (gd : Guard) (d a b : Nat) (s : State) : Host.Outcome State Fault Refusal :=
  vExec (elemwise [d, a, b] 8 allInt (intOp (bitOp (· &&& ·)) false)) gd s

/-- `vior` (R167). -/
def execVior (gd : Guard) (d a b : Nat) (s : State) : Host.Outcome State Fault Refusal :=
  vExec (elemwise [d, a, b] 8 allInt (intOp (bitOp (· ||| ·)) false)) gd s

/-- `vixor` (R167). -/
def execVixor (gd : Guard) (d a b : Nat) (s : State) : Host.Outcome State Fault Refusal :=
  vExec (elemwise [d, a, b] 8 allInt (intOp (bitOp (· ^^^ ·)) false)) gd s

/-- `vishl` (R167). -/
def execVishl (gd : Guard) (d a b : Nat) (s : State) : Host.Outcome State Fault Refusal :=
  vExec (elemwise [d, a, b] 8 allInt (intOp (fun w x y => x * 2 ^ (y % w).toNat) false)) gd s

/-- `vishr` (R167). -/
def execVishr (gd : Guard) (d a b : Nat) (s : State) : Host.Outcome State Fault Refusal :=
  vExec (elemwise [d, a, b] 8 allInt (intOp (fun w x y => (ofSigned w x / 2 ^ (y % w).toNat : Nat)) false)) gd s

/-- `visra` (R167). -/
def execVisra (gd : Guard) (d a b : Nat) (s : State) : Host.Outcome State Fault Refusal :=
  vExec (elemwise [d, a, b] 8 allInt (intOp (fun w x y => x / 2 ^ (y % w).toNat) false)) gd s

/-- `vimin` (R167). -/
def execVimin (gd : Guard) (d a b : Nat) (s : State) : Host.Outcome State Fault Refusal :=
  vExec (elemwise [d, a, b] 8 allInt (intOp (fun _ x y => min x y) false)) gd s

/-- `vimax` (R167). -/
def execVimax (gd : Guard) (d a b : Nat) (s : State) : Host.Outcome State Fault Refusal :=
  vExec (elemwise [d, a, b] 8 allInt (intOp (fun _ x y => max x y) false)) gd s

/-- `vfma` (R166). -/
def execVfma (gd : Guard) (d a b c : Nat) (s : State) : Host.Outcome State Fault Refusal :=
  vExec (elemwise [d, a, b, c] 6 allFloat (fun fs xs => pack (dstF fs) false (fmaV (srcV fs xs 0) (srcV fs xs 1) (srcV fs xs 2)))) gd s

/-- `vfms` (R166). -/
def execVfms (gd : Guard) (d a b c : Nat) (s : State) : Host.Outcome State Fault Refusal :=
  vExec (elemwise [d, a, b, c] 6 allFloat (fun fs xs => pack (dstF fs) false (fmaV (srcV fs xs 0) (srcV fs xs 1) (negV (srcV fs xs 2))))) gd s

/-- `vsel` (R166). -/
def execVsel (gd : Guard) (d a b c : Nat) (s : State) : Host.Outcome State Fault Refusal :=
  vExec (elemwise [d, a, b, c] 6 (fun fs => match fs with | [x, y, z, c] => x = y && x = z && !x.isLg && x != .int4 && allInt [c] | _ => false) (fun _ xs => (if xs.getD 2 0 ≠ 0 then xs.getD 0 0 else xs.getD 1 0, 0))) gd s

/-- `vmov` (R168). Bits 7:6 of an LG6B source go as they stand into an integer destination (DESIGN CHOICE, log 33: R35 ignores them on
reads, R168 copies bits). -/
def execVmov (gd : Guard) (d a : Nat) (s : State) : Host.Outcome State Fault Refusal :=
  vExec (elemwise [d, a] 6 (fun fs => match fs with | [x, y] => x.bits = y.bits && x != .int4 | _ => false) (fun _ xs => (xs.headD 0, 0))) gd s

/-- Sign turned or cleared in each kind of format (R168): the code as it stands for floats and LG6. -/
def signOp (clear : Bool) (fs : List EFmt) (xs : List Nat) : Nat × Nat :=
  let f := fs.headD .fp32
  let w := xs.headD 0
  let top := 2 ^ (f.bits - 1)
  if f.isFloat then (if clear then w % top else w ^^^ top, 0)
  else if f.isLg then
    let c := w % 64
    (if clear then c % 32 else if c = 0 then 0 else c ^^^ 32, 0)
  else
    let x := f.int w
    (ofSigned f.bits (if clear then x.natAbs else -x), 0)

/-- `vneg` and `vabs` take one format on both sides (R168), never INT4 (R164). -/
def sameFmt (fs : List EFmt) : Bool := match fs with | [x, y] => x = y && x != .int4 | _ => false

/-- Formats `vcvt` converts between (R33, R168). -/
def cvtFmts (fs : List EFmt) : Bool := match fs with | [x, y] => cvtAllowed y x | _ => false

/-- Float source and FP32 destination of the special functions (R168). -/
def sfFmts (fs : List EFmt) : Bool := match fs with | [x, y] => x = .fp32 && y.isFloat | _ => false

/-- A special function of the exactly widened source (R168). -/
def sfOp (f : Nat → Nat × Nat) (fs : List EFmt) (xs : List Nat) : Nat × Nat :=
  match srcV fs xs 0 with
  | .nan sn => (qnan fp32, if sn then flNV else 0)
  | v => f (pack fp32 false v).1

/-- `vneg` (R168). -/
def execVneg (gd : Guard) (d a : Nat) (s : State) : Host.Outcome State Fault Refusal :=
  vExec (elemwise [d, a] 6 sameFmt (signOp false)) gd s

/-- `vabs` (R168). -/
def execVabs (gd : Guard) (d a : Nat) (s : State) : Host.Outcome State Fault Refusal :=
  vExec (elemwise [d, a] 6 sameFmt (signOp true)) gd s

/-- `vexp2` (R168). -/
def execVexp2 (gd : Guard) (d a : Nat) (s : State) : Host.Outcome State Fault Refusal :=
  vExec (elemwise [d, a] 7 sfFmts (sfOp exp2_32)) gd s

/-- `vlog2` (R168). -/
def execVlog2 (gd : Guard) (d a : Nat) (s : State) : Host.Outcome State Fault Refusal :=
  vExec (elemwise [d, a] 7 sfFmts (sfOp log2_32)) gd s

/-- `vrcp` (R168). -/
def execVrcp (gd : Guard) (d a : Nat) (s : State) : Host.Outcome State Fault Refusal :=
  vExec (elemwise [d, a] 7 sfFmts (sfOp rcp32)) gd s

/-- `vrsqrt` (R168). -/
def execVrsqrt (gd : Guard) (d a : Nat) (s : State) : Host.Outcome State Fault Refusal :=
  vExec (elemwise [d, a] 7 sfFmts (sfOp rsqrt32)) gd s

/-- `vsqrt` (R168). -/
def execVsqrt (gd : Guard) (d a : Nat) (s : State) : Host.Outcome State Fault Refusal :=
  vExec (elemwise [d, a] 7 sfFmts (sfOp sqrt32)) gd s

/-- `vcvt` (R168). DESIGN CHOICE (log 33): between two integer formats the word's `.rz` bit is accepted, as R74 assigns it, and changes
nothing; R28 names no outcome. -/
def execVcvt (gd : Guard) (d a rz : Nat) (s : State) : Host.Outcome State Fault Refusal :=
  vExec (elemwise [d, a] 6 cvtFmts (fun fs xs => cvt (fs.getD 1 .fp32) (fs.headD .fp32) (rz = 1) (xs.headD 0))) gd s

/-- `vcmpeq` (R169). -/
def execVcmpEq (gd : Guard) (d a b : Nat) (s : State) : Host.Outcome State Fault Refusal :=
  vExec (elemwise [d, a, b] 6 cmpFmts (cmpOp 0)) gd s

/-- `vcmpne` (R169). -/
def execVcmpNe (gd : Guard) (d a b : Nat) (s : State) : Host.Outcome State Fault Refusal :=
  vExec (elemwise [d, a, b] 6 cmpFmts (cmpOp 1)) gd s

/-- `vcmplt` (R169). -/
def execVcmpLt (gd : Guard) (d a b : Nat) (s : State) : Host.Outcome State Fault Refusal :=
  vExec (elemwise [d, a, b] 6 cmpFmts (cmpOp 2)) gd s

/-- `vcmple` (R169). -/
def execVcmpLe (gd : Guard) (d a b : Nat) (s : State) : Host.Outcome State Fault Refusal :=
  vExec (elemwise [d, a, b] 6 cmpFmts (cmpOp 3)) gd s

/-- `vcmpun` (R169). -/
def execVcmpUn (gd : Guard) (d a b : Nat) (s : State) : Host.Outcome State Fault Refusal :=
  vExec (elemwise [d, a, b] 6 cmpFmts (cmpOp 4)) gd s

/-! ### Block quantisation (R170) -/

/-- Elements of one block of a stream. -/
def Qd.blockElems (q : Qd) : Nat := geomSize q.geom * geomSize q.geom

/-- `vqlg6` and `vqint8` (R170): the scale is encoded, each element quantised under the encoded scale, and the scale word
written with its block's last element. DESIGN CHOICE (log 35): R170 names no beat for the reading of qb[k]; every beat of block k
reads it. -/
def quantSpec (d a b : Nat) (ok : List EFmt → Bool) (quant : EFmt → FVal → FVal → Nat × Nat) : VSpec :=
  { regs := [d, a, b], cls := 7
    n := fun ops => (ops.headD (qFields 0)).count
    ask :=
      { ok := ok
        geo := [true]
        rel := fun ops => match ops with
          | [d, a, b] => if a.count < d.count ∨ b.count < d.blocks then some 0x04 else none
          | _ => none }
    reads := fun ops lo hi =>
      let k := lo / (ops.headD (qFields 0)).blockElems
      srcBytes (ops.tail.take 1) lo hi ++ srcBytes (ops.drop 2) k (if lo < hi then k + 1 else k)
    beat := fun c ops lo hi _ =>
      let qd := ops.headD (qFields 0)
      let qa := ops.getD 1 qd
      let qb := ops.getD 2 qd
      let k := lo / qd.blockElems
      let sc := bsc20Enc (qb.ef.val (qb.get c k))
      let r := (List.range (hi - lo)).map fun i => quant qd.ef (qa.ef.val (qa.get c (lo + i))) (bsc20Dec sc.1)
      let word := if hi % qd.blockElems = 0 ∧ lo < hi then cellsOf (qd.scaleAddr k).toNat 4 sc.1 else []
      { bytes := qd.put lo (r.map Prod.fst) ++ word, fl := if lo < hi then orFlags sc.2 (foldFlags r) else 0 } }

/-- `vqlg6` (R170). -/
def execVqlg6 (gd : Guard) (d a b : Nat) (s : State) : Host.Outcome State Fault Refusal :=
  vExec (quantSpec d a b (fun fs => match fs with | [x, y, z] => x.isLg && y.isFloat && z.isFloat | _ => false) fun _ => lg6Quant) gd s

/-- `vqint8` (R170). -/
def execVqint8 (gd : Guard) (d a b : Nat) (s : State) : Host.Outcome State Fault Refusal :=
  vExec (quantSpec d a b (fun fs => match fs with | [x, y, z] => x = .int8 && y.isFloat && z.isFloat | _ => false) fun _ => intQuant .int8) gd s

/-- One element decoded under its block's scale (R170, R40): a NaN scale gives the canonical NaN, with NV. -/
def dequant (f : EFmt) (dst : Fmt) (w : Nat) (sc : FVal) : Nat × Nat :=
  if sc.isNan then (qnan dst, flNV)
  else if sc.isZero then (0, 0)
  else pack dst false (mulV (f.val w) sc)

/-- `vdq` (R170): a block's scale word is read in the beat of its first element. -/
def execVdq (gd : Guard) (d a : Nat) (s : State) : Host.Outcome State Fault Refusal :=
  vExec
    { regs := [d, a], cls := 7
      n := fun ops => (ops.headD (qFields 0)).count
      ask :=
        { ok := fun fs => match fs with | [x, y] => x.isFloat && (y.isLg || y = .int8) | _ => false
          geo := [false, true]
          rel := fun ops => match ops with
            | [d, a] => if a.count < d.count then some 0x04 else none
            | _ => none }
      reads := fun ops lo hi =>
        let qa := ops.getD 1 (qFields 0)
        srcBytes ops.tail lo hi ++ (if lo % qa.blockElems = 0 ∧ lo < hi then (List.range 4).map ((qa.scaleAddr (lo / qa.blockElems)).toNat + ·) else [])
      beat := fun c ops lo hi data =>
        let qd := ops.headD (qFields 0)
        let qa := ops.getD 1 qd
        let sc := if lo % qa.blockElems = 0 then qa.scale c (lo / qa.blockElems) else (data.headD []).headD 0
        let r := (List.range (hi - lo)).map fun i => dequant qa.ef (((qd.ef).flt).getD fp32) (qa.get c (lo + i)) (bsc20Dec sc)
        { bytes := qd.put lo (r.map Prod.fst), fl := foldFlags r, data := [[sc]] } } gd s

/-- What a reduction gathers: the codes of the elements of a beat. -/
def gather (q : Qd) (c : Core) (lo hi : Nat) (data : List (List Nat)) : List (List Nat) :=
  [data.flatten ++ (List.range (hi - lo)).map fun i => q.get c (lo + i)]

/-- A code exactly widened to FP32 (R172); a NaN stays a NaN of its kind. -/
def widen32 (f : EFmt) (w : Nat) : Nat :=
  match f with
  | .fp32 => w
  | .bf16 => w * 2 ^ 16
  | _ => match f.val w with
    | .nan _ => (if 2 ^ 15 ≤ w then 2 ^ 31 else 0) + 0x7F800000 + w % 2 ^ 10 * 2 ^ 13
    | v => (pack fp32 false v).1

/-- A code converted to FP32 exactly, an FP32 one copied; a NaN of another format becomes the canonical one (R29). -/
def widenCvt (f : EFmt) (w : Nat) : Nat × Nat := if f = .fp32 then (w, 0) else cvt f .fp32 false w

/-- The destination written after the last beat, its flags with it (R172). -/
def finWrite (cls : Nat) (q : Qd) (r : List (Nat × Nat)) (s : State) : State :=
  if r.isEmpty then s else result cls (.spad (q.put 0 (r.map Prod.fst))) (foldFlags r) s

/-- `vscl` (R170): the largest magnitude of each block times qb, which the block's first beat reads (DESIGN CHOICE, log 35). A
destination with fewer elements than blocks is a count relation (0x05), a short qb a source count (0x04, R160). -/
def execVscl (gd : Guard) (d a b : Nat) (s : State) : Host.Outcome State Fault Refusal :=
  vExec
    { regs := [d, a, b], cls := 7
      n := fun ops => (ops.getD 1 (qFields 0)).count
      ask :=
        { ok := fun fs => match fs with | [x, y, z] => x = .fp32 && y.isFloat && z.isFloat | _ => false
          geo := [false, true]
          rel := fun ops => match ops with
            | [d, a, b] => if d.count < a.blocks then some 0x05 else if b.count < a.blocks then some 0x04 else none
            | _ => none }
      reads := fun ops lo hi =>
        let k := lo / (ops.getD 1 (qFields 0)).blockElems
        srcBytes ((ops.drop 1).take 1) lo hi ++ srcBytes (ops.drop 2) k (if lo % (ops.getD 1 (qFields 0)).blockElems = 0 ∧ lo < hi then k + 1 else k)
      beat := fun c ops lo hi data =>
        let qa := ops.getD 1 (qFields 0)
        let qb := ops.getD 2 qa
        let k := lo / qa.blockElems
        { data := [(gather qa c lo hi (data.take 1)).flatten, data.getD 1 [] ++ (if lo % qa.blockElems = 0 ∧ lo < hi then [qb.get c k] else [])] }
      fin := fun ops data s =>
        let qd := ops.headD (qFields 0)
        let qa := ops.getD 1 qd
        let qb := ops.getD 2 qd
        let m := qa.blockElems
        finWrite 7 qd ((List.range qa.blocks).map fun k =>
          let r := treeReduce (minmaxF fp32 true false) ((((data.headD []).drop (k * m)).take m).map (widen32 qa.ef · % 2 ^ 31)) negInf32 negInf32
          let p := mul32 r.1 (widen32 qb.ef ((data.getD 1 []).getD k 0))
          (p.1, orFlags r.2 p.2)) s } gd s

/-! ### Bytes and layout (R171) -/

/-- `vperm` (R171). It moves bytes: into an LG6 register it writes each byte as it is, a zero code 0b100000 too (DESIGN CHOICE, log 33: R34
and R35 speak of elements written, R171 of bytes). A beat reads the whole window of 128 bytes, whatever its indices select (DESIGN
CHOICE, log 35: R161 names no granules). -/
def execVperm (gd : Guard) (d a b : Nat) (s : State) : Host.Outcome State Fault Refusal :=
  vExec
    { regs := [d, a, b], cls := 8, bytes := true
      n := fun ops => (ops.headD (qFields 0)).nbytes
      ask :=
        { ok := fun fs => fs.getD 2 .uint8 = .uint8
          one := [true, true]
          rel := fun ops => match ops with
            | [d, a, b] => if b.count < min 128 d.nbytes ∨ a.nbytes < d.nbytes then some 0x05 else none
            | _ => none }
      reads := fun ops lo hi =>
        let qa := ops.getD 1 (qFields 0)
        let w := lo / 128 * 128
        srcBytes (ops.drop 2) (lo % 128) (lo % 128 + (hi - lo)) ++ (if lo < hi then (List.range (min qa.nbytes (w + 128) - w)).map (qa.base + w + ·) else [])
      beat := fun c ops lo hi _ =>
        let qd := ops.headD (qFields 0)
        let qa := ops.getD 1 qd
        let qb := ops.getD 2 qd
        { bytes := (List.range (hi - lo)).map fun i =>
            let k := lo + i
            let x := qb.get c (k % 128)
            let p := 128 * (k / 128) + x % 128
            (qd.base + k, if 128 ≤ x ∨ qa.nbytes ≤ p then 0 else c.spadGet (qa.base + p)) } } gd s

/-- `vunpk4` (R171): each nibble, sign-extended, exactly into the destination's format. -/
def execVunpk4 (gd : Guard) (d a : Nat) (s : State) : Host.Outcome State Fault Refusal :=
  vExec
    { elemwise [d, a] 8 (fun fs => match fs with
        | [x, y] => y = .int4 && (x = .int8 || x = .int16 || x = .int32 || x.isFloat)
        | _ => false) (fun fs xs => ((cvt .int4 (fs.headD .int8) false (xs.headD 0)).1, 0)) with
      ask :=
        { ok := fun fs => match fs with
            | [x, y] => y = .int4 && (x = .int8 || x = .int16 || x = .int32 || x.isFloat)
            | _ => false
          rel := fun ops => (shortSource ops).map fun _ => 0x05 } } gd s

/-- `vtr8` (R171): eight rows of m elements become m rows of eight. Bits 7:6 of an LG6B source go as they stand into an integer destination
(DESIGN CHOICE, log 33). -/
def execVtr8 (gd : Guard) (d a : Nat) (s : State) : Host.Outcome State Fault Refusal :=
  vExec
    { regs := [d, a], cls := 8, bytes := true
      n := fun ops => (ops.headD (qFields 0)).nbytes
      ask :=
        { ok := fun fs => match fs with
            | [x, y] => x.bits = y.bits && (x.bits = 8 || x.bits = 16 || x.bits = 32)
            | _ => false
          one := [true, true]
          rel := fun ops => match ops with
            | [d, a] => if d.count % 8 ≠ 0 ∨ a.count < d.count then some 0x05 else none
            | _ => none }
      reads := fun ops lo hi =>
        let qd := ops.headD (qFields 0)
        let w := qd.ef.bytes
        (List.range ((hi - lo) / w)).flatMap fun i =>
          let e := qd.count / 8 * ((lo / w + i) % 8) + (lo / w + i) / 8
          srcBytes ops.tail e (e + 1)
      beat := fun c ops lo hi _ =>
        let qd := ops.headD (qFields 0)
        let qa := ops.getD 1 qd
        let w := qd.ef.bytes
        let m := qd.count / 8
        { bytes := qd.put (lo / w) ((List.range ((hi - lo) / w)).map fun i =>
            let e := lo / w + i
            qa.get c (m * (e % 8) + e / 8)) } } gd s

/-! ### Reductions, votes, merge and checksum (R172 to R175) -/

/-- A reduction in segments (R172): elements are gathered beat by beat and reduced after the last. -/
def reduceSpec (d a : Nat) (ok : List EFmt → Bool) (red : EFmt → EFmt → List Nat → Nat × Nat) : VSpec :=
  { regs := [d, a], cls := 9
    n := fun ops => (ops.getD 1 (qFields 0)).count
    ask :=
      { ok := ok
        rel := fun ops => match ops with
          | [d, a] => if (d.count = 0 ∧ a.count ≠ 0) ∨ (d.count ≠ 0 ∧ a.count % d.count ≠ 0) then some 0x05 else none
          | _ => none }
    reads := fun ops lo hi => srcBytes ops.tail lo hi
    beat := fun c ops lo hi data => { data := gather (ops.getD 1 (qFields 0)) c lo hi data }
    fin := fun ops data s =>
      let qd := ops.headD (qFields 0)
      let qa := ops.getD 1 qd
      let l := qa.count / qd.count
      finWrite 9 qd ((List.range qd.count).map fun k => red qd.ef qa.ef (((data.headD []).drop (k * l)).take l)) s }

/-- Float source and FP32 destination (R168, R172). -/
def toFp32 (fs : List EFmt) : Bool := match fs with | [x, y] => x = .fp32 && y.isFloat | _ => false

/-- A float reduction by the fixed tree (R45, R172). -/
def floatRed (op : Nat → Nat → Nat × Nat) (pad none : Nat) (_ src : EFmt) (v : List Nat) : Nat × Nat :=
  treeReduce op (v.map (widen32 src)) pad none

/-- `vrsum` (R172). -/
def execVrsum (gd : Guard) (d a : Nat) (s : State) : Host.Outcome State Fault Refusal :=
  vExec (reduceSpec d a toFp32 (floatRed add32 0x80000000 0)) gd s

/-- `vrmax` (R172). -/
def execVrmax (gd : Guard) (d a : Nat) (s : State) : Host.Outcome State Fault Refusal :=
  vExec (reduceSpec d a toFp32 (floatRed (minmaxF fp32 true false) negInf32 negInf32)) gd s

/-- `vrmin` (R172). -/
def execVrmin (gd : Guard) (d a : Nat) (s : State) : Host.Outcome State Fault Refusal :=
  vExec (reduceSpec d a toFp32 (floatRed (minmaxF fp32 false false) 0x7F800000 0x7F800000)) gd s

/-- `vrmaxp` (R172). -/
def execVrmaxp (gd : Guard) (d a : Nat) (s : State) : Host.Outcome State Fault Refusal :=
  vExec (reduceSpec d a toFp32 (floatRed (minmaxF fp32 true true) negInf32 negInf32)) gd s

/-- `vrminp` (R172). -/
def execVrminp (gd : Guard) (d a : Nat) (s : State) : Host.Outcome State Fault Refusal :=
  vExec (reduceSpec d a toFp32 (floatRed (minmaxF fp32 false true) 0x7F800000 0x7F800000)) gd s

/-- `virsum` (R172, R46): the exact sum modulo the destination's width. -/
def execVirsum (gd : Guard) (d a : Nat) (s : State) : Host.Outcome State Fault Refusal :=
  vExec (reduceSpec d a allInt fun dst src v => (ofSigned dst.bits (v.foldl (fun t w => t + src.int w) 0), 0)) gd s

/-- A vote (R173): the predicate lands after the last beat. -/
def voteSpec (p a : Nat) (f : List Nat → Bool) : VSpec :=
  { regs := [a], cls := 9
    n := fun ops => (ops.headD (qFields 0)).count
    ask := { ok := allInt }
    reads := fun ops lo hi => srcBytes ops lo hi
    beat := fun c ops lo hi data => { data := gather (ops.headD (qFields 0)) c lo hi data }
    fin := fun _ data s => result 9 (.pred p (f data.flatten)) 0 s }

/-- `vany` (R173). -/
def execVany (gd : Guard) (p a : Nat) (s : State) : Host.Outcome State Fault Refusal :=
  vExec (voteSpec p a fun l => l.any (· ≠ 0)) gd s

/-- `vall` (R173). -/
def execVall (gd : Guard) (p a : Nat) (s : State) : Host.Outcome State Fault Refusal :=
  vExec (voteSpec p a fun l => l.all (· ≠ 0)) gd s

/-- `vmrg` (R174): word by word, each source word read in its own beat. -/
def execVmrg (gd : Guard) (d a b : Nat) (s : State) : Host.Outcome State Fault Refusal :=
  vExec
    { regs := [d, a, b], cls := 10
      n := fun ops => (ops.headD (qFields 0)).count
      ask :=
        { ok := fun fs => fs.all (· = .fp32)
          one := [true, true, true]
          rel := fun ops => match ops with
            | [d, a, b] => if d.count < 4 ∨ 259 < d.count then some 0x05 else if a.count < d.count ∨ b.count < d.count then some 0x04 else none
            | _ => none }
      reads := fun ops lo hi => srcBytes ops.tail lo hi
      beat := fun c ops lo hi data =>
        let qd := ops.headD (qFields 0)
        let qa := ops.getD 1 qd
        let qb := ops.getD 2 qd
        let m := if lo = 0 then [qa.get c 0, qb.get c 0] else data.headD []
        let h := mergeHead (m.getD 0 0) (m.getD 1 0)
        let r := (List.range (hi - lo)).map fun i => mergeWord (qd.count - 3) h.1 (lo + i) (qa.get c (lo + i)) (qb.get c (lo + i))
        { bytes := qd.put lo (r.map Prod.fst), fl := orFlags (if lo = 0 then h.2 else 0) (foldFlags r), data := [m] } } gd s

/-- `vck` (R175): the CK64 checksum of a source's bytes, in any format: its entry's words stand before the list of R32 (DEDUCED, log 11).
A source of no bytes has the checksum 0 (DESIGN CHOICE, log 35). -/
def execVck (gd : Guard) (d a : Nat) (s : State) : Host.Outcome State Fault Refusal :=
  vExec
    { regs := [d, a], cls := 9, bytes := true
      n := fun ops => (ops.getD 1 (qFields 0)).nbytes
      ask :=
        { ok := fun _ => true
          one := [false, true]
          rel := fun ops => match ops with | [d, _] => if (d.ef ≠ .uint32 ∧ d.ef ≠ .int32) ∨ d.count < 2 then some 0x05 else none | _ => none }
      reads := fun ops lo hi => (List.range (hi - lo)).map fun i => (ops.getD 1 (qFields 0)).base + lo + i
      beat := fun c ops lo hi data => { data := [data.flatten ++ c.spadBytes ((ops.getD 1 (qFields 0)).base + lo) (hi - lo)] }
      fin := fun ops data s =>
        let k := ck64 (words32 data.flatten)
        result 9 (.spad ((ops.headD (qFields 0)).put 0 [k % 2 ^ 32, k / 2 ^ 32])) 0 s } gd s

/-! ### Stream register instructions (R156) -/

/-- A change of one stream register, with class sr; its number is resolved at issue (R155). -/
def landQ (q : Nat) (v : QWord) (s : State) : State := result 13 (.qreg (physQ s.task.qrot q) v) 0 s

/-- Bits hi:lo of w replaced by v. -/
def setFld (w hi lo v : Nat) : Nat := w - fld w hi lo * 2 ^ lo + v % 2 ^ (hi + 1 - lo) * 2 ^ lo

/-- `vsetq` (R156). -/
def execVsetq (gd : Guard) (d a b : Nat) (s : State) : Host.Outcome State Fault Refusal :=
  onStream s (guarded gd (reading [a, b] fun s => landQ d (BitVec.ofNat 128 ((s.reg a).toNat + (s.reg b).toNat * 2 ^ 64)) s))

/-- `vgetq` (R156): with one register named twice the high half stays. -/
def execVgetq (gd : Guard) (d a b : Nat) (s : State) : Host.Outcome State Fault Refusal :=
  onStream s (guarded gd <| readingFile 0 [physQ s.task.qrot d] fun s =>
    result 13 (.regs [(a, (s.qreg d).setWidth 64), (b, BitVec.ofNat 64 ((s.qreg d).toNat / 2 ^ 64))]) 0 s)

/-- The advanced register of `vadvq` (R156). -/
def advQ (w a b : Nat) : Nat :=
  setFld (setFld (setFld w 18 0 (fld w 18 0 + a)) 75 57 (fld w 75 57 + b)) 103 88 (fld w 103 88 + fld w 105 105)

/-- `vadvq` (R156). -/
def execVadvq (gd : Guard) (d a b : Nat) (s : State) : Host.Outcome State Fault Refusal :=
  onStream s (guarded gd (reading [a, b] (readingFile 0 [physQ s.task.qrot d] fun s => landQ d (BitVec.ofNat 128 (advQ (s.qreg d).toNat (s.reg a).toNat (s.reg b).toNat)) s)))

/-- `vcntq` (R156). -/
def execVcntq (gd : Guard) (d a : Nat) (s : State) : Host.Outcome State Fault Refusal :=
  onStream s (guarded gd (reading [a] (readingFile 0 [physQ s.task.qrot d] fun s => landQ d (BitVec.ofNat 128 (setFld (s.qreg d).toNat 50 35 (min (s.reg a).toNat 65535))) s)))

/-- `vstg` (R177): `stg` and the stage predicates land together with class cmp. -/
def execVstg (gd : Guard) (i : Nat) (s : State) : Host.Outcome State Fault Refusal :=
  onStream s (guarded gd fun s => result 3 (.stg i (stagePreds (fld i 15 12) (fld i 11 8) (fld i 7 0))) 0 s)

/-! ### Vector memory (R176) -/

/-- The first byte of n bytes at va in each of their 64 KiB pages. -/
def pagesOf (va n : Nat) : List Nat :=
  if n = 0 then [] else (List.range ((va + n - 1) / 65536 - va / 65536 + 1)).map fun i => max va ((va / 65536 + i) * 65536)

/-- The translation of an address that the access under way has found. -/
def gotXlate (s : State) (va : Nat) : Option TlbEnt := s.str.got.find? (·.hits s.task.ctx va)

/-- Every page of a footprint translated and accepted before anything moves (R176): each is checked in turn, and the access keeps
the translation it has found. -/
def withPages (kind : Nat) (bad : Nat → Option Nat) (f : State → State) : List Nat → State → State
  | [], s => f s
  | va :: t, s => match gotXlate s va with
    | some _ => withPages kind bad f t s
    | none => withPage kind va s fun p s =>
      match bad p.pte with
      | some c => faultAfter c 0 va s
      | none => withPages kind bad f t (s.modStr fun x => { x with got := { ctx := s.task.ctx, vpn := va / 2 ^ p.bits, bits := p.bits, pte := p.pte } :: x.got })

/-- The page of an address that its instruction has translated. -/
def pageAt (s : State) (va : Nat) : Page :=
  match gotXlate s va with
  | some e => e.page va
  | none => match tlbLook s va with
    | some e => e.page va
    | none => match walk s (pkgOf s.cur.core) s.task.ctx va with
      | .ok p => p
      | .error _ => ⟨0, 0, 16⟩

/-- The scratchpad address of byte m of a stream's packed bytes (R176). -/
def Qd.bytePos (q : Qd) (m : Nat) : Nat :=
  if q.ef.packed then q.base + m else (q.addr (m / q.ef.bytes)).toNat + m % q.ef.bytes

/-- The 64-byte granules of footprint bytes lo to hi − 1, each with its bytes (R176). -/
def granules (lo hi : Nat) : List (List Nat) :=
  ([lo, lo + 64].filter (· < hi)).map fun g => (List.range (min 64 (hi - g))).map (g + ·)

/-- One granule of `vld` is one access of its own page (R176, R210): a load whose bytes land in the scratchpad as they are, a zero
code 0b100000 and bits 7:6 of an LG6B register too (DESIGN CHOICE, log 33), or the pattern of a constant-fill page. -/
def vldGranule (q : Qd) (va hint : Nat) (ix : List Nat) (s : State) : State :=
  let a := va + ix.headD 0
  let p := pageAt s a
  if pteCf p.pte then result 4 (.spad ((ix.map q.bytePos).zip ((patternBytes s p.pte a ix.length).map (BitVec.ofNat 8)))) 0 s
  else issueLoad 4 (loadReq s p a hint (.spad (ix.map q.bytePos)) (bytesFrom p.pa ix.length)) s

/-- The granules of a beat that go to another package (R355). -/
def farGranules (s : State) (va : Nat) (gs : List (List Nat)) : Nat :=
  (gs.filter fun ix => let p := pageAt s (va + ix.headD 0); !pteCf p.pte && isRemote s p.pa).length

/-- A memory beat of `vld` over footprint bytes lo to hi − 1, granule by granule (R176). -/
def vldBeat (q : Qd) (va hint lo hi : Nat) (s : State) : State :=
  let gs := granules lo hi
  let far := farGranules s va gs
  if far ≠ 0 ∧ 64 < s.curCore.remote + far then s.modStr fun x => { x with frozen := some 0x5 }
  else gs.foldl (fun s ix => vldGranule q va hint ix s) s

/-- Stores of 64-byte granules enter the stream's write path, which holds 16 of them here (log 30): a beat that finds no room
freezes before its cycle with cause 0x3, a 65th remote request with cause 0x5 (R176, R197, R355). -/
def sendGranules (es : List SbEnt) (s : State) : State :=
  let es := es.filter fun e => !e.cells.isEmpty
  let far := (es.filter (·.remote)).length
  if 16 < s.str.sbuf.length + es.length then freezeBefore 0x3 s
  else if far ≠ 0 ∧ 64 < s.curCore.remote + far then s.modStr fun x => { x with frozen := some 0x5 }
  else es.foldl (fun s e => remotePlace (e.addrs.headD 0) (pushStore e) s) s

/-- A memory beat of `vst` over footprint bytes lo to hi − 1: its scratchpad bytes are read and sent in this cycle (R176). -/
def vstBeat (q : Qd) (va hint lo hi : Nat) (s : State) : State :=
  match badGranule s ((List.range (hi - lo)).map fun i => q.bytePos (lo + i)) with
  | some g => dataLoss 3 g s
  | none => sendGranules ((granules lo hi).map fun ix =>
      let a := va + ix.headD 0
      let p := pageAt s a
      storeEnt s p a hint (ix.map fun m => (p.pa + (m - ix.headD 0), s.curCore.spadGet (q.bytePos m)))) s

/-- One cycle of a vector memory instruction under way; a beat that cannot go on stays the next beat, and one that has not issued
has not begun. -/
def vmCycle (store : Bool) (hint : Nat) (o : Occ) (s : State) : State :=
  let q := qFields (o.qs.headD 0)
  let lo := o.beat * 128
  let hi := min q.nbytes (lo + 128)
  let s' := if !o.go || hi ≤ lo then s else if store then vstBeat q o.addr hint lo hi s else vldBeat q o.addr hint lo hi s
  if s'.str.frozen.isSome then (if o.beat = 0 && !s'.str.redo then s' else s'.modStr fun x => { x with occ := some o })
  else (if !o.go || hi ≤ lo then s' else countCore s'.cur.core 0x30 1 s').modStr fun x => { x with occ := if o.beat + 1 < o.total then some { o with beat := o.beat + 1 } else none }

/-- The translations of a footprint, and what a vector memory access makes of a page's attributes (R176). -/
def vmPages (store : Bool) (va n : Nat) (f : State → State) : State → State :=
  withPages (if store then 1 else 0) (fun e => if store then storePageFault e else if pteCmp e then some 0x03 else none) f (pagesOf va n)

/-- A cycle of `vld` or `vst` (R160, R176). A cycle after the first finds its pages still translated, unless the task was saved and an
invalidation took them (R242, R411). No tag is read: R176 says so of these forms, before what R152 and R160 say of tc operands (DEDUCED,
log 35). -/
def vmRun (store : Bool) (gd : Guard) (q a hint : Nat) (s : State) : State :=
  match s.str.occ with
  | some o => if o.go then vmPages store o.addr (qFields (o.qs.headD 0)).nbytes (vmCycle store hint o) s else vmCycle store hint o s
  | none =>
    let r := guardRead gd s
    let s := r.2
    let w := s.qreg q
    let d := qFields w
    let va := (s.reg a).toNat
    let o : Occ := { ins := s.str.held.getD .nop, total := max 1 ((d.nbytes + 127) / 128), go := r.1, qs := [w], addr := va }
    if !r.1 then vmCycle store hint o (countCore s.cur.core 0x06 1 s)
    else reading [a] (readingFile 0 [physQ s.task.qrot q] fun s => match vChecks { ok := fun fs => fs.all (· != .int4) } s.curCore s.task.spadBytes d.nbytes [{ d with tc := false }] with
      | some b => fault b.1 b.2.1 b.2.2 s
      | none =>
        if va % 64 ≠ 0 then faultAfter 0x02 0 va s
        else vmPages store va d.nbytes (vmCycle store hint o) s) s

/-- `vld` (R176), with its cache hint (R245). -/
def execVld (gd : Guard) (q a h : Nat) (s : State) : Host.Outcome State Fault Refusal := onStream s (vmRun false gd q a h)

/-- `vst` (R176), with its cache hint (R245). -/
def execVst (gd : Guard) (q a h : Nat) (s : State) : Host.Outcome State Fault Refusal := onStream s (vmRun true gd q a h)

end Sys2Proof.Machine
end

