-- ==== Sys2Proof/Machine/Matrix.lean ====
section
/-!
DEFINITION. Sys2Proof/Machine/Matrix.lean: the matrix engine: operand descriptors, products, tile moves and drains (R179 to
R204). An operation builds its new tile group by group in the cycles R187 gives and lands it whole.
-/

namespace Sys2Proof.Machine

/-! ### Operand descriptors (R181 to R184) -/

/-- An operand descriptor as an operation uses it: a tile handle is replaced by its table entry and window (R183). An operation of
the M stream reads memory as that stream sees it, with a choice of the open writes (`cut`, R188). -/
structure Dd where
  kind : Nat
  fmt : Nat
  geom : Nat
  tc : Bool
  tag : Nat
  lane : Nat
  rows : Nat
  cols : Nat
  rsv : Bool
  mbz : Bool
  rstride : Int
  sstride : Int
  sbase : Nat
  base : Nat
  row0 : Nat := 0
  col0 : Nat := 0
  trows : Nat := 0
  tcols : Nat := 0
  bad7 : Bool := false
  cut : Option Nat := none
  deriving DecidableEq, Repr

/-- The fields every kind has (R181); which reserved bits are set. -/
def dFields (w : Nat) : Dd :=
  let kind := fld w 255 254
  { kind := kind, fmt := fld w 253 250, geom := fld w 249 248, tc := fld w 247 247 = 1, tag := fld w 245 230, lane := fld w 229 226
    rows := fld w 225 210, cols := fld w 209 194
    rsv := fld w 193 192 ≠ 0 || fld w 127 120 ≠ 0 || (kind = 0 && fld w 55 19 ≠ 0) || (kind = 2 && fld w 55 44 ≠ 0) ||
      (kind = 3 && fld w 55 40 ≠ 0)
    mbz := (kind = 2 && (fld w 253 248 ≠ 0 || fld w 229 226 ≠ 0 || fld w 191 168 ≠ 0 || fld w 167 152 ≠ 0 || fld w 119 64 ≠ 0))
    rstride := toSigned 24 (fld w 191 168), sstride := toSigned 16 (fld w 167 152), sbase := fld w 119 64, base := fld w 55 0 }

/-- The tile table entry that a kind 2 descriptor names (R183, R184). -/
def tileEntry (s : State) (d : DWord) : DWord := tabGet 0 (s.die (dieOf s.cur.core)).tiles (fld d.toNat 11 0)

/-- A descriptor resolved: kind 2 takes its copy of the tile table entry (R183, R184). -/
def resolveD (ctx : Nat) (d entry : DWord) : Dd :=
  let w := d.toNat
  let f := dFields w
  if f.kind ≠ 2 then f
  else
    let e := entry.toNat
    let g := dFields e
    { f with fmt := g.fmt, geom := g.geom, rstride := g.rstride, sstride := g.sstride, sbase := fld e 119 64, base := fld e 55 0
             row0 := fld w 27 12, col0 := fld w 43 28, trows := g.rows, tcols := g.cols
             bad7 := fld e 63 63 = 0 || fld e 245 230 ≠ ctx, lane := 8 }

/-- An operand descriptor register. -/
def State.dreg (s : State) (n : Nat) : DWord := s.task.d.getD n 0

/-- The element format of a descriptor. -/
def Dd.ef (d : Dd) : EFmt := (efmtOf d.fmt).getD .fp32

/-- The address of the byte that holds, or begins, element (r, c) (R182). -/
def Dd.addr (d : Dd) (r c : Nat) : Int :=
  let r := d.row0 + r
  let c := d.col0 + c
  d.base + r * d.rstride + (if d.ef = .lg6p then (c / 4 * 3 : Nat) else (c * d.ef.bytes : Nat))

/-- The address of the scale word of the block of element (r, c) (R182). -/
def Dd.scaleAddr (d : Dd) (r c : Nat) : Int :=
  let g := geomSize d.geom
  d.sbase + 4 * (((d.row0 + r) / g : Nat) * d.sstride + ((d.col0 + c) / g : Nat))

/-- An address as a 64-bit operand holds it: one below 0 lies outside the virtual space (R233). -/
def asVa (a : Int) : Nat := (a % 2 ^ 64).toNat

/-- A byte of the operand space of a descriptor: the scratchpad, or memory through its page (R188, R190), a register window as its line
came. -/
def operandByte (s : State) (d : Dd) (a : Int) : Nat :=
  if d.kind = 0 then (s.curCore.spadGet a.toNat).toNat
  else
    let va := asVa a
    let p := pageAt s va
    if pteCf p.pte then (patternBytes s p.pte va 1).headD 0
    else if isWindow p.pa then tabGet 0 s.task.mwin (p.pa / 128) / 256 ^ (p.pa % 128) % 256
    else match d.cut with
      | none => (readByte s p.pa).toNat
      | some c => (seenByte s s.str.seq c p.pa).1.toNat

/-- n bytes of the operand space as a number. -/
def operandNum (s : State) (d : Dd) (a : Int) (n : Nat) : Nat := ofBytes ((List.range n).map fun (i : Nat) => operandByte s d (a + i))

/-- The code of element (r, c) (R182). -/
def Dd.get (d : Dd) (s : State) (r c : Nat) : Nat :=
  if d.ef = .lg6p then operandNum s d (d.addr r c) 3 / 64 ^ ((d.col0 + c) % 4) % 64
  else operandNum s d (d.addr r c) d.ef.bytes

/-- The scale of the block of element (r, c) (R38, R182). -/
def Dd.scaleAt (d : Dd) (s : State) (r c : Nat) : FVal := bsc20Dec (operandNum s d (d.scaleAddr r c) 4 % 2 ^ 20)

/-! ### Products (R185, R186) -/

/-- The operand pairing of R185: what is multiplied and the issue cycles of a group. -/
def pairing (a b : EFmt) : Option (DotKind × Nat) :=
  if a = .bf16 ∧ b = .bf16 then some (.bf16, 32)
  else if a = .int8 ∧ b = .int8 then some (.int8, 32)
  else if a.isLg && b.isLg then some (.lg6, 16)
  else none

/-- A product's operands: resolved descriptors, transposes, extents, what is multiplied, cycles of a group. -/
structure Prod' where
  a : Dd
  b : Dd
  ta : Bool
  tb : Bool
  kind : DotKind
  p : Nat

/-- The rows of the product (R186). -/
def Prod'.m (x : Prod') : Nat := if x.ta then x.a.cols else x.a.rows
/-- The reduction extent of A (R186). -/
def Prod'.ka (x : Prod') : Nat := if x.ta then x.a.rows else x.a.cols
/-- The columns of the product (R186). -/
def Prod'.n (x : Prod') : Nat := if x.tb then x.b.rows else x.b.cols
/-- The reduction extent of B (R186). -/
def Prod'.kb (x : Prod') : Nat := if x.tb then x.b.cols else x.b.rows
/-- The groups of a product (R186). -/
def Prod'.groups (x : Prod') : Nat := (x.ka + x.kind.group - 1) / x.kind.group

/-- Element (i, k) of A, through its transpose. -/
def Prod'.atA (x : Prod') (s : State) (i k : Nat) : Nat := if x.ta then x.a.get s k i else x.a.get s i k
/-- Element (k, j) of B, through its transpose. -/
def Prod'.atB (x : Prod') (s : State) (k j : Nat) : Nat := if x.tb then x.b.get s j k else x.b.get s k j

/-- The reduction positions of group q. -/
def Prod'.ks (x : Prod') (q : Nat) : List Nat :=
  ((List.range x.kind.group).map (q * x.kind.group + ·)).filter (· < x.ka)

/-- The scales of group q for row i and column j (R186): BF16 has none. -/
def Prod'.scales (x : Prod') (s : State) (q i j : Nat) : FVal × FVal :=
  if x.kind = .bf16 then (.num false 1 0, .num false 1 0)
  else
    let k := q * x.kind.group
    ((if x.ta then x.a.scaleAt s k i else x.a.scaleAt s i k), (if x.tb then x.b.scaleAt s j k else x.b.scaleAt s k j))

/-- Group q folded into a tile (R186): elements beyond the extents stay. The tile with the flags raised. -/
def foldGroup (x : Prod') (s : State) (q : Nat) (tile : List Word32) : List Word32 × Nat :=
  let ks := x.ks q
  let as := (List.range x.m).map fun i => ks.map fun k => x.atA s i k
  let bs := (List.range x.n).map fun j => ks.map fun k => x.atB s k j
  let r := (tile.zipIdx).map fun e =>
    let i := e.2 / 32
    let j := e.2 % 32
    if i < x.m ∧ j < x.n then
      let sc := x.scales s q i j
      groupDot x.kind e.1.toNat ((as.getD i []).zip (bs.getD j [])) sc.1 sc.2
    else (e.1.toNat, 0)
  (r.map fun v => BitVec.ofNat 32 v.1, foldFlags r)

/-- The tile a product starts from (R186): the accumulator, or −0 inside the extents and +0 outside. -/
def startTile (x : Prod') (mul : Bool) (acc : List Word32) : List Word32 :=
  if mul then (List.range 1024).map fun e => if e / 32 < x.m ∧ e % 32 < x.n then 0x80000000#32 else 0#32 else acc

/-- An accumulator of the executing task. -/
def State.accTile (s : State) (a : Nat) : List Word32 := s.task.acc.getD a (List.replicate 1024 0)

/-! ### Checks (R189) -/

/-- The rules of one operand in the order reserved fields, kind, lane, geometry, extents, tile table entry (R189). The fields that
kind 2 wants zero (R183) are looked at once the kind is accepted. -/
def Dd.reason (d : Dd) (kinds : List Nat) (geom : Option Nat) (extents : Bool) : Option Nat :=
  if d.rsv then some 0x01
  else if !kinds.contains d.kind then some 0x08
  else if d.mbz then some 0x01
  else if d.kind = 0 ∧ (d.lane < 8 ∨ 11 < d.lane) then some 0x02
  else if d.geom ≠ geom.getD d.geom ∨ d.geom = 3 ∨ (d.kind = 2 ∧ d.geom ≠ 0 ∧ (d.row0 % 32 ≠ 0 ∨ d.col0 % 32 ≠ 0)) then some 0x03
  else if !extents ∨ (d.kind = 2 ∧ (d.trows < d.row0 + d.rows ∨ d.tcols < d.col0 + d.cols)) then some 0x05
  else if d.bad7 then some 0x07
  else none

/-- The first misaligned address of an operand (R189). -/
def Dd.misaligned (d : Dd) : Option Nat :=
  if d.kind ≤ 1 ∧ (d.base % 64 ≠ 0 ∨ d.rstride % 64 ≠ 0) then some d.base
  else if d.kind ≤ 1 ∧ d.geom ≠ 0 ∧ d.sbase % 4 ≠ 0 then some d.sbase
  else none

/-- The bytes of one row of an operand. -/
def Dd.rowBytes (d : Dd) : Nat := (d.cols * d.ef.bits + 7) / 8

/-- The first byte of a scratchpad operand outside the task's scratchpad bytes (R149, R189). -/
def Dd.outside (d : Dd) (lim : Nat) : Option Nat :=
  if d.kind ≠ 0 then none
  else
    let row := (List.range d.rows).find? fun (r : Nat) => !inSpad lim (d.base + r * d.rstride) d.rowBytes
    match row with
    | some r => some ((d.base + r * d.rstride) % 2 ^ 64).toNat
    | none =>
      if d.geom = 0 then none
      else
        let g := geomSize d.geom
        let blocks := (List.range ((d.rows + g - 1) / g)).flatMap fun bi => (List.range ((d.cols + g - 1) / g)).map fun bj => (bi * g, bj * g)
        (blocks.find? fun b => !inSpad lim (d.scaleAddr b.1 b.2) 4).map fun b => ((d.scaleAddr b.1 b.2) % 2 ^ 64).toNat

/-- The steps 3 to 5 of R189 on operands whose descriptors are good: alignment, bounds, tags. -/
def dPlaces (s : State) (ops : List Dd) : Option VBad :=
  match ops.findSome? Dd.misaligned with
  | some a => some (0x02, 0, a)
  | none => match ops.findSome? (Dd.outside · s.task.spadBytes) with
    | some a => some (0x07, 0, a)
    | none => (ops.find? fun d => d.kind = 0 && d.tc && d.tag ≠ s.curCore.tag (d.base / 2048)).map fun d => (0x08, 0, d.base)

/-- The product of two operands as resolved (R186); a pair of formats that has none stands for BF16. -/
def prodOf (a b : Dd) (tr : Nat) : Prod' :=
  let k := (pairing a.ef b.ef).getD (.bf16, 32)
  { a := a, b := b, ta := tr / 2 % 2 = 1, tb := tr % 2 = 1, kind := k.1, p := k.2 }

/-- The checks of a product (R185, R186, R189): the product, or the first failure. -/
def prodChecks (s : State) (tr : Nat) (da db ea eb : DWord) : Except VBad Prod' :=
  let a := resolveD s.task.ctx da ea
  let b := resolveD s.task.ctx db eb
  match (if (efmtOf a.fmt).isSome && (efmtOf b.fmt).isSome then pairing a.ef b.ef else none) with
  | none => .error (0x03, 0, 0)
  | some (k, _) =>
    let x := prodOf a b tr
    let geom := if k = .bf16 then 0 else 2
    match a.reason [0, 1, 2] (some geom) true with
    | some r => .error (0x04, r, 0)
    | none => match b.reason [0, 1, 2] (some geom) true with
      | some r => .error (0x04, r, 0)
      | none =>
        if a.kind = 0 ∧ b.kind = 0 ∧ a.lane = b.lane then .error (0x04, 0x02, 0)
        else if k ≠ .bf16 ∧ (x.ka % 32 ≠ 0 ∨ x.kb % 32 ≠ 0) then .error (0x04, 0x03, 0)
        else if x.m = 0 ∨ 32 < x.m ∨ x.n = 0 ∨ 32 < x.n ∨ x.ka ≠ x.kb ∨ x.ka = 0 then .error (0x04, 0x05, 0)
        else match dPlaces s [a, b] with
          | some e => .error e
          | none => .ok x

/-! ### Shadows (R180) -/

/-- An instruction whose occupancy holds a shadow tile. -/
def holdsShadow : Option Occ → Bool
  | some o => match o.ins with
    | .mmDrain _ _ _ _ => false
    | _ => !o.tile.isEmpty
  | none => false

/-- Shadow tiles held in the core (R180). -/
def shadows (t : Task) : Nat :=
  (t.m.flights.filter (·.shadow)).length + (if holdsShadow t.m.occ then 1 else 0) + (t.follow.filter (·.running)).length

/-- An operation that writes an accumulator needs a shadow, and faults before it issues without one (R180). -/
def withShadow (f : State → State) (s : State) : State := if 8 ≤ shadows s.task then fault 0x0E 0x01 0 s else f s

/-- A whole tile landed with a class; its shadow is held until then (R179, R180). -/
def landTile (cls : Nat) (a : Nat) (tile : List Word32) (fl : Nat) (krow : Option Nat) (s : State) : State :=
  (result cls (.acc a tile) fl s).modStr fun x =>
    { x with flights := x.flights.modify (x.flights.length - 1) fun f => { f with shadow := true, krow := krow } }

/-! ### Operand rows of memory (R188, R190, R191) -/

/-- The virtual bytes of an operand's part: rows r0 to r0 + nr − 1, columns c0 to c0 + nc − 1, with their scale words. -/
def Dd.part (d : Dd) (r0 nr c0 nc : Nat) : List (Nat × Nat) :=
  if nc = 0 then [] else
  (List.range nr).flatMap fun r =>
    let a := d.addr (r0 + r) c0
    let z := d.addr (r0 + r) (c0 + nc - 1) + (if d.ef = .lg6p then 3 else d.ef.bytes : Nat)
    (asVa a, (z - a).toNat) :: (if d.geom = 0 then [] else [(asVa (d.scaleAddr (r0 + r) c0), 4), (asVa (d.scaleAddr (r0 + r) (c0 + nc - 1)), 4)])

/-- What group q of a product reads outside the scratchpad. -/
def Prod'.parts (x : Prod') (q : Nat) : List (Nat × Nat) :=
  let k0 := q * x.kind.group
  let nk := (x.ks q).length
  (if x.a.kind = 0 then [] else if x.ta then x.a.part k0 nk 0 x.m else x.a.part 0 x.m k0 nk) ++
  (if x.b.kind = 0 then [] else if x.tb then x.b.part 0 x.n k0 nk else x.b.part k0 nk 0 x.n)

/-- What group q of a product reads from the scratchpad: first byte and length. -/
def Prod'.spadParts (x : Prod') (q : Nat) : List (Nat × Nat) :=
  let k0 := q * x.kind.group
  let nk := (x.ks q).length
  (if x.a.kind ≠ 0 then [] else if x.ta then x.a.part k0 nk 0 x.m else x.a.part 0 x.m k0 nk) ++
  (if x.b.kind ≠ 0 then [] else if x.tb then x.b.part 0 x.n k0 nk else x.b.part k0 nk 0 x.n)

/-- The 64-byte granules that virtual byte ranges touch. -/
def granulesOf (parts : List (Nat × Nat)) : List Nat :=
  (parts.flatMap fun e => (List.range ((e.1 + e.2 - 1) / 64 - e.1 / 64 + 1)).map fun i => (e.1 / 64 + i) * 64).dedup

/-- The memory lines of virtual byte ranges, as physical line numbers with a page entry and an address of each; constant-fill pages have
none. -/
def linePages (s : State) (parts : List (Nat × Nat)) : List (Nat × Nat × Nat) :=
  (granulesOf parts).foldl (fun l va =>
    let p := pageAt s va
    if pteCf p.pte || l.any (·.1 = p.pa / 128) then l else l ++ [(p.pa / 128, p.pte, va)]) []

/-- The lines among some that are neither staged nor in L1, each with its address. -/
def lackedLines (s : State) (l : List (Nat × Nat × Nat)) : List (Nat × Nat) :=
  (l.filter fun e => !s.task.staged.contains e.1 && !l1Has s (e.1 * 128)).map fun e => (e.1, e.2.2)

/-- The memory lines of virtual byte ranges. -/
def linesOf (s : State) (parts : List (Nat × Nat)) : List Nat := (linePages s parts).map Prod.fst

/-- The first granule of virtual byte ranges with a poisoned unit, and a physical byte of that unit (R191, R427). -/
def badUnit (s : State) (parts : List (Nat × Nat)) : Option (Nat × Nat) :=
  if s.poison.isEmpty then none
  else (granulesOf parts).findSome? fun va =>
    let p := pageAt s va
    if pteCf p.pte then none else (((List.range 8).map fun i => p.pa + 8 * i).find? (poisonedAt s)).map fun pa => (va, pa)

/-- The scratchpad bytes of ranges. -/
def rangeBytes (l : List (Nat × Nat)) : List Nat := l.flatMap fun e => (List.range e.2).map (e.1 + ·)

/-- The occupancy under way given up: its tile is discarded and its shadow freed (R190, R191). -/
def dropOcc (s : State) : State := s.modStr fun x => { x with occ := none }

/-- A line is on its way to the staging buffer of the executing core. -/
def lineAsked (s : State) (l : Nat) : Bool :=
  s.agenda.any fun e => e.2.unit = s.cur.core && ((e.1 = .loadDataArrival && e.2.st = .m && e.2.k = 0 && e.2.v = l) || (e.1 = .unplannedRequestTimeout && e.2.j = 6 && e.2.n % 2 ^ 256 = l))

/-- A line asked for: one of another package is an outstanding remote request (R355). -/
def askLine (l va : Nat) (s : State) : State :=
  let s := s.post .loadDataArrival { unit := s.cur.core, st := .m, n := s.task.id, v := l, j := va }
  if isRemote s (l * 128) then countCore s.cur.core 0x46 1 (s.modCore s.cur.core fun c => { c with remote := c.remote + 1 }) else s

/-- Missing lines are asked for as far as the core's remote requests allow (R188, R355); whether some had to wait. -/
def askLines (need : List (Nat × Nat)) (s : State) : Bool × State :=
  (need.filter fun l => !lineAsked s l.1).foldl (fun r l =>
    if isRemote r.2 (l.1 * 128) && decide (64 ≤ r.2.curCore.remote) then (true, r.2) else (r.1, askLine l.1 l.2 r.2)) (false, s)

/-- The M stream has read the bytes of ranges as it sees them (R208, R211). -/
def heardRows (parts : List (Nat × Nat)) (cut : Nat) (s : State) : State :=
  if s.olds.isEmpty then s
  else
    let l := (rangeBytes parts).filterMap fun va =>
      let p := pageAt s va
      if pteCf p.pte then none else some (seenByte s s.str.seq cut p.pa)
    (heardBytes s.str.seq { addrs := [], how := .spad [] } l s).modStr fun x => { x with seq := x.seq + 1 }

/-- Operand data are lost (R191): the stream stops after the cycle of the fetch, the tile is discarded and its shadow freed; `phase` 1
says that the other results land at their due cycles. -/
def rowsLost (loc addr : Nat) (s : State) : State := (dropOcc (dataLoss loc addr s)).modStr fun x => { x with redo := true, phase := 1 }

/-- A page that stops the operation for good has discarded its tile and freed its shadow (R190). -/
def dropFailed (s : State) : State :=
  match s.str.status with
  | .stopped _ .never => if s.str.occ.isSome then (dropOcc s).modStr fun x => { x with phase := 0 } else s
  | _ => s

/-- Lines of register windows leave the staging buffer with their use: each read is an access of its own. -/
def dropWindows (lines : List Nat) (s : State) : State :=
  if lines.any fun l => isWindow (l * 128) then s.modTask fun t => { t with staged := t.staged.filter fun l => !(isWindow (l * 128) && lines.contains l) } else s

/-- Rows of SO pages wait for the stream's earlier SO stores (R209). -/
def rowsWait (s : State) (l : List (Nat × Nat × Nat)) : Bool := s.str.sbuf.any (·.so) && l.any fun e => pteOrd e.2.1 = 0

/-- Operand rows fetched before they are used (R188, R190, R191, R209): a missing translation freezes or faults and is retried,
a compressed page is a precise format fault that discards the tile, rows not there yet freeze with the cause, or with 0x5 where
the core's remote requests are at their limit. `f` gets the choice of open writes that the rows show. -/
def withRows (cause : Nat) (parts spad : List (Nat × Nat)) (f : Nat → State → State) (s : State) : State :=
  match badGranule s (rangeBytes spad) with
  | some g => rowsLost 3 g s
  | none =>
    if parts.isEmpty then f 0 s
    else dropFailed (withPages 6 (fun e => if pteCmp e then some 0x03 else none) (fun s =>
        match badUnit s parts with
        | some e => rowsLost (lossPlace s e.2) e.1 s
        | none =>
          let lines := linePages s parts
          let need := lackedLines s lines
          if need.isEmpty && !rowsWait s lines then
            let cut := openCut s
            let s := lines.foldl (fun s l => cached (fillsL1 l.2.1 0) (fillsL2 l.2.1 0) (l.1 * 128) false s) (s.modStr fun x => { x with phase := 0 })
            dropWindows (lines.map Prod.fst) (f cut (heardRows parts cut s))
          else
            let r := askLines need s
            freezeAfter (if r.1 then 0x5 else cause) (r.2.modStr fun x => { x with phase := 1 }))
      ((parts.flatMap fun e => pagesOf e.1 e.2).dedup) s)

/-! ### `mm.mac` and `mm.mul` -/

/-- One cycle of a product under way (R187): group q is read and folded in cycle qP; the last cycle lands the tile. -/
def mmCycle (acc tr : Nat) (o : Occ) (s : State) : State :=
  let x := prodOf (resolveD s.task.ctx (o.ds.getD 0 0) (o.ds.getD 2 0)) (resolveD s.task.ctx (o.ds.getD 1 0) (o.ds.getD 3 0)) tr
  let keep := (s.modStr fun y => { y with occ := some o }).modTask fun t => { t with mmWall := some s.wall }
  let step (o : Occ) (s : State) : State :=
    if o.beat + 1 < o.total then s.modStr fun y => { y with occ := some { o with beat := o.beat + 1 } }
    else landTile 11 acc o.tile o.fl (some (x.groups * x.kind.group)) (dropOcc s)
  if o.beat % x.p ≠ 0 then step o keep
  else
    let q := o.beat / x.p
    withRows 0xB (x.parts q) (x.spadParts q) (fun cut s =>
      let r := foldGroup { x with a := { x.a with cut := some cut }, b := { x.b with cut := some cut } } s q o.tile
      let s := countCore s.cur.core 0x32 1 s
      step { o with tile := r.1, fl := orFlags o.fl r.2 } s) keep

/-- A command holds the array. -/
def Follow.holds (f : Follow) : Bool := f.running && !f.dead && f.endWall.isNone

/-- The M stream may not take the array (R199): a command holds it, or the stream waits for one that held it to complete
(`phase` is then 2 more than its place). -/
def arrayHeld (t : Task) : Bool := t.follow.any fun f => f.holds || (!f.dead && t.m.phase = f.id + 2)

/-- The M stream freezes for the array with cause 0xB before its issue, until the command that holds it completes (R199). -/
def waitArray (s : State) : State :=
  freezeBefore 0xB (match s.task.follow.find? Follow.holds with
    | some f => s.modStr fun x => { x with phase := f.id + 2 }
    | none => s)

/-- A cycle of `mm.mac` or `mm.mul` (R186, R189). Its descriptors are copied at issue, a tile handle's entry with them. -/
def mmRun (mul : Bool) (acc da db tr : Nat) (s : State) : State :=
  match s.str.occ with
  | some o => mmCycle acc tr o s
  | none =>
    if arrayHeld s.task then waitArray s
    else readingFile 2 [da, db] (fun s => match prodChecks s tr (s.dreg da) (s.dreg db) (tileEntry s (s.dreg da)) (tileEntry s (s.dreg db)) with
      | .error e => fault e.1 e.2.1 e.2.2 s
      | .ok x => withShadow (fun s =>
          mmCycle acc tr { ins := s.str.held.getD .nop, total := x.p * x.groups, ds := [s.dreg da, s.dreg db, tileEntry s (s.dreg da), tileEntry s (s.dreg db)], tile := startTile x mul (s.accTile acc) } s) s) s

/-- `mm.mac` (R186). -/
def execMmMac (a d e t : Nat) (s : State) : Host.Outcome State Fault Refusal := onStream s (mmRun false a d e t)

/-- `mm.mul` (R186). -/
def execMmMul (a d e t : Nat) (s : State) : Host.Outcome State Fault Refusal := onStream s (mmRun true a d e t)

/-! ### Tile moves (R192 to R195) -/

/-- `mm.zero` (R192): +0 everywhere in the next cycle. -/
def execMmZero (a : Nat) (s : State) : Host.Outcome State Fault Refusal :=
  onStream s (withShadow fun s => (resultIn 1 (.acc a (List.replicate 1024 0)) 0 s).modStr fun x =>
    { x with flights := x.flights.modify (x.flights.length - 1) fun f => { f with shadow := true } })

/-- `mm.mov` (R192). -/
def execMmMov (a b : Nat) (s : State) : Host.Outcome State Fault Refusal :=
  onStream s (withShadow fun s => landTile 12 a (s.accTile b) 0 none s)

/-- The checks `mm.setd` and `mm.getd` share (R193). -/
def descPlace (sp : Nat) (f : Nat → State → State) (s : State) : State :=
  let a := sp * 16
  if a % 32 ≠ 0 then fault 0x02 0 a s else if s.task.spadBytes < a + 32 then fault 0x07 0 a s else f a s

/-- `mm.setd` (R193): 32 scratchpad bytes into a descriptor, with class sr; a kind 2 descriptor that lands is prefetched (R184). -/
def execMmSetd (d sp : Nat) (s : State) : Host.Outcome State Fault Refusal :=
  onStream s (descPlace sp fun a s =>
    if spadPoisoned s a 32 then dataLoss 3 a s else result 13 (.dset d (BitVec.ofNat 256 (ofBytes (s.curCore.spadBytes a 32)))) 0 s)

/-- `mm.getd` (R193): a descriptor into 32 scratchpad bytes in the next cycle. -/
def execMmGetd (d sp : Nat) (s : State) : Host.Outcome State Fault Refusal :=
  onStream s (descPlace sp fun a => readingFile 2 [d] fun s => resultIn 1 (.spad (cellsOf a 32 (s.dreg d).toNat)) 0 s)

/-- The advanced descriptor of `mm.adv` (R195). -/
def advD (w : Nat) : Nat :=
  let ab := toSigned 24 (fld w 151 128)
  let as := toSigned 8 (fld w 63 56)
  let add (x : Nat) (y : Int) (n : Nat) : Nat := ofSigned n ((x : Int) + y)
  match fld w 255 254 with
  | 0 => setFld (setFld (setFld w 55 0 (add (fld w 55 0) ab 19)) 119 64 (add (fld w 119 64) (4 * as) 19)) 245 230 (fld w 245 230 + fld w 246 246)
  | 1 => setFld (setFld w 55 0 (add (fld w 55 0) ab 56)) 119 64 (add (fld w 119 64) (4 * as) 56)
  | 2 => setFld (setFld w 43 28 (add (fld w 43 28) ab 16)) 27 12 (add (fld w 27 12) as 16)
  | _ => setFld w 39 24 (add (fld w 39 24) ab 16)

/-- `mm.adv` (R195). -/
def execMmAdv (d : Nat) (s : State) : Host.Outcome State Fault Refusal :=
  onStream s (readingFile 2 [d] fun s => result 13 (.dreg d (BitVec.ofNat 256 (advD (s.dreg d).toNat))) 0 s)

/-! ### `mm.ldacc` (R194) -/

/-- The checks of `mm.ldacc`. -/
def ldaccChecks (s : State) (da : DWord) : Except VBad Dd :=
  let d := resolveD s.task.ctx da 0
  if (efmtOf d.fmt).isNone || !d.ef.isFloat then .error (0x03, 0, 0)
  else match d.reason [0, 1] (some 0) (d.cols = 32 && decide (1 ≤ d.rows) && decide (d.rows ≤ 32)) with
    | some r => .error (0x04, r, 0)
    | none => match dPlaces s [d] with
      | some e => .error e
      | none => .ok d

/-- A tile's row r widened from a descriptor's elements (R194), with the flags of each: a conversion, exact but for NaNs (R29). -/
def wideRow (d : Dd) (s : State) (r : Nat) : List (Nat × Nat) := (List.range 32).map fun c => widenCvt d.ef (d.get s r c)

/-- One cycle of `mm.ldacc` under way: granule j is read in cycle j; a row is taken with its last granule. -/
def ldaccCycle (acc : Nat) (o : Occ) (s : State) : State :=
  let d := resolveD s.task.ctx (o.ds.headD 0) 0
  let keep := (s.modStr fun y => { y with occ := some o }).modTask fun t => { t with mmWall := some s.wall }
  let per := d.ef.bytes / 2
  let r := o.beat / per
  let part := [(asVa (d.addr r (o.beat % per * (64 / d.ef.bytes))), 64)]
  withRows 0x3 (if d.kind = 0 then [] else part) (if d.kind = 0 then part else []) (fun cut s =>
    let row := wideRow { d with cut := some cut } s r
    let half := 64 / d.ef.bytes
    let c0 := o.beat % per * half
    let tile := (o.tile.zipIdx).map fun e => if e.2 / 32 = r ∧ c0 ≤ e.2 % 32 ∧ e.2 % 32 < c0 + half then BitVec.ofNat 32 (row.getD (e.2 % 32) (0, 0)).1 else e.1
    let fl := orFlags o.fl (foldFlags ((row.drop c0).take half))
    if o.beat + 1 < o.total then s.modStr fun y => { y with occ := some { o with beat := o.beat + 1, tile := tile, fl := fl } }
    else landTile 12 acc tile fl (some o.total) (dropOcc s)) keep

/-- `mm.ldacc` (R194). -/
def ldaccRun (acc da : Nat) (s : State) : State :=
  match s.str.occ with
  | some o => ldaccCycle acc o s
  | none =>
    if arrayHeld s.task then waitArray s
    else readingFile 2 [da] (fun s => match ldaccChecks s (s.dreg da) with
      | .error e => fault e.1 e.2.1 e.2.2 s
      | .ok d => withShadow (fun s =>
          ldaccCycle acc { ins := s.str.held.getD .nop, total := d.rows * d.ef.bytes / 2, ds := [s.dreg da], tile := List.replicate 1024 0 } s) s) s

/-- `mm.ldacc` (R194). -/
def execMmLdacc (a d : Nat) (s : State) : Host.Outcome State Fault Refusal := onStream s (ldaccRun a d)

/-! ### Drains (R196 to R198) -/

/-- An operation takes the next number of a timeline counter (R217). -/
def takeNumber (tl : Nat) (s : State) : State :=
  s.modTask fun t => { t with tls := t.tls.modify tl fun c => { c with count := c.count + 1 } }

/-- The counter of the matrix queue, if `mmtl` enables one (R198, R202). -/
def matrixTl (t : Task) : Option Nat := if t.mmtl / 16 % 2 = 1 then some (t.mmtl % 16) else none

/-- The number an operation of a counter takes now. -/
def nextNumber (s : State) (tl : Option Nat) : Nat := match tl with | some k => (s.tl k).count + 1 | none => 0

/-- The destination format of a drain (R196). -/
def drainFmt (f : Nat) : Option EFmt :=
  match efmtOf f with
  | some .fp32 => some .fp32 | some .bf16 => some .bf16 | some .fp16 => some .fp16 | some .int32 => some .int32 | some .int16 => some .int16
  | _ => none

/-- The code of a drain's format (R25, R196). -/
def drainCode (f : EFmt) : Nat :=
  match f with | .fp32 => 0 | .bf16 => 1 | .fp16 => 2 | .int32 => 3 | _ => 5

/-- The plan and slot that a kind 3 descriptor names (R183): ID, generation, slot. -/
def planSlot (d : Dd) : Nat × Nat × Nat := (fld d.base 15 0, fld d.base 23 16, fld d.base 39 24)

/-- The checks of a drain (R189, R196, R197). -/
def drainChecks (s : State) (f : EFmt) (dd : DWord) : Except VBad Dd :=
  let d := { resolveD s.task.ctx dd 0 with fmt := drainCode f }
  if d.kind = 3 ∧ f ≠ .fp32 ∧ f ≠ .bf16 then .error (0x03, 0, 0)
  else match d.reason [0, 1, 3] (some 0) (d.cols = 32 && decide (1 ≤ d.rows) && decide (d.rows ≤ 32)) with
    | some r => .error (0x04, r, 0)
    | none => match (if d.kind = 3 then none else dPlaces s [d]) with
      | some e => .error e
      | none =>
        if d.kind = 3 then
          match slotReason s (planSlot d).1 (planSlot d).2.1 (planSlot d).2.2 (d.rows * 32 * f.bytes) (drainCode f) with
          | some r => .error (0x11, r, 0)
          | none => .ok d
        else .ok d

/-- The converted elements of the first rows of a tile (R196). -/
def drainElems (f : EFmt) (rz : Bool) (rows : Nat) (tile : List Word32) : List (Nat × Nat) :=
  (tile.take (rows * 32)).map fun w => cvt .fp32 f rz w.toNat

/-- The bytes of the converted rows. -/
def drainBytes (f : EFmt) (l : List (Nat × Nat)) : List Nat := l.flatMap fun e => toBytes f.bytes e.1

/-- One cycle of a drain under way (R197): granule j of the converted tile goes to its place. -/
def drainCycle (f : EFmt) (rz : Bool) (o : Occ) (s : State) : State :=
  let d := { resolveD s.task.ctx (o.ds.headD 0) 0 with fmt := drainCode f }
  let elems := drainElems f rz d.rows o.tile
  let bytes := ((drainBytes f elems).drop (64 * o.beat)).take 64
  let per := 32 * f.bytes / 64
  let a := asVa ((d.base : Int) + (o.beat / per : Nat) * d.rstride + (o.beat % per * 64 : Nat))
  let cells (at' : Nat → Nat) : List (Nat × Byte) := (bytes.zipIdx).map fun e => (at' e.2, BitVec.ofNat 8 e.1)
  let s := match d.kind with
    | 0 => result 12 (.spad (cells fun i => a + i)) 0 s
    | 1 => sendGranules [storeEnt s (pageAt s a) a 0 (cells fun i => (pageAt s a).pa + i)] s
    | _ => s
  if s.str.frozen.isSome then s.modStr fun y => { y with occ := some o }
  else if o.beat + 1 < o.total then s.modStr fun y => { y with occ := some { o with beat := o.beat + 1 } }
  else
    let s := raiseFlags (foldFlags elems) (dropOcc s)
    let tl := match o.data.headD [] with | [k] => some k | _ => none
    let slot := planSlot d
    if d.kind = 0 then s
    else
      if d.kind = 3 then handSlot slot.1 slot.2.1 slot.2.2 (drainBytes f elems) tl o.addr s
      else s.post .matrixDrainComplete { unit := s.cur.core, k := (tl.map (· + 1)).getD 0, j := s.str.seq, n := o.addr, v := s.task.id }

/-- The pages that a drain writes. -/
def drainPages (f : EFmt) (d : Dd) : List Nat :=
  if d.kind = 1 then ((List.range d.rows).flatMap fun (r : Nat) => pagesOf (asVa (d.base + r * d.rstride)) (32 * f.bytes)).dedup else []

/-- A drain is accepted at its issue (R198, R450): it takes its number then. -/
def acceptDrain (tl : Option Nat) (s : State) : State :=
  countCore s.cur.core 0x34 1 (match tl with | some k => takeNumber k s | none => s)

/-- The first turn of a drain whose checks have passed (R197, R198): it issues, with its pages and its first beat, or frozen for a
translation; a page that refuses it, or a beat without room, stops it before its issue, and it is not accepted. -/
def drainIssue (f : EFmt) (rz : Bool) (d : Dd) (o : Occ) (tl : Option Nat) (s : State) : State :=
  let t := withPages 1 storePageFault (drainCycle f rz o) (drainPages f d) s
  match t.str.status with
  | .stopped _ .never => t.modStr fun x => { x with redo := false }
  | _ =>
    if t.str.redo then acceptDrain tl (t.modStr fun x => { x with occ := some o })
    else if t.str.frozen.isSome then t.modStr fun x => { x with occ := none }
    else acceptDrain tl t

/-- A turn of a drain: its issue, then its beats. A later beat finds the pages still translated, unless the task was saved and an
invalidation took them (R242, R411). -/
def drainRun (acc dd fc rz : Nat) (s : State) : State :=
  match s.str.occ with
  | some o =>
    let f := (drainFmt fc).getD .fp32
    withPages 1 storePageFault (drainCycle f (rz = 1) o) (drainPages f { resolveD s.task.ctx (o.ds.headD 0) 0 with fmt := drainCode f }) s
  | none => match drainFmt fc with
    | none => fault 0x03 0 0 s
    | some f => readingFile 2 [dd] (fun s => match drainChecks s f (s.dreg dd) with
      | .error e => fault e.1 e.2.1 e.2.2 s
      | .ok d =>
        let tl := if d.kind = 0 then none else matrixTl s.task
        drainIssue f (rz = 1) d { ins := s.str.held.getD .nop, total := d.rows * 32 * f.bytes / 64, ds := [s.dreg dd], tile := s.accTile acc, addr := nextNumber s tl, data := match tl with | some k => [[k]] | none => [] } tl s) s

/-- `mm.drain` (R196). -/
def execMmDrain (a d f r : Nat) (s : State) : Host.Outcome State Fault Refusal := onStream s (drainRun a d f r)

/-- `mrp` (R202): the latest `mm.mac`, `mm.mul` or `mm.ldacc` that has issued and not landed; of its k positions the low 16 bits
(DEDUCED, log 19: R202 gives `krow` 16 bits, and the last group of a reduction of more than 65,520 makes them 65,536). -/
def mrpValue (t : Task) : Nat :=
  let word (acc krow : Nat) : Nat := 2 ^ 31 + acc * 2 ^ 24 + krow % 2 ^ 16
  let landing : Nat := match (t.m.flights.filter fun f => f.krow.isSome).getLast? with
    | some f => match f.land with
      | .acc a _ => word a (f.krow.getD 0)
      | _ => 0
    | none => 0
  match t.m.occ with
  | some o => match o.ins with
    | .mmMac a _ _ _ | .mmMul a _ _ _ =>
      let x := (resolveD t.ctx (o.ds.getD 0 0) (o.ds.getD 2 0)).ef
      let p := if x.isLg then 16 else 32
      word a ((o.beat + p - 1) / p * (if x = .bf16 then 16 else 32))
    | .mmLdacc a _ => word a o.beat
    | _ => landing
  | none => landing

end Sys2Proof.Machine
end

