-- ==== Sys2Proof/Machine/Copy.lean ====
section
/-!
DEFINITION. Sys2Proof/Machine/Copy.lean: copy blocks, their checks at issue, the walk of a copy by a channel or a queue
copy engine, and the copy instructions of the C stream (R258 to R285). A walk moves in pieces of at most one aligned
64-byte granule of the destination.
-/

namespace Sys2Proof.Machine

/-! ### The block (R261 to R264) -/

/-- A double-word of the block. -/
def Copy.dw (c : Copy) (k : Nat) : Nat := c.blk.getD k 0

/-- Bytes of a row (R262). -/
def Copy.n0 (c : Copy) : Nat := fld (c.dw 2) 23 0
/-- Rows of a plane that the form uses (R264). -/
def Copy.rows (c : Copy) : Nat := if c.fn = 0 then 1 else fld (c.dw 2) 43 24
/-- Planes that the form uses (R264). -/
def Copy.planes (c : Copy) : Nat := if c.fn = 0 ∨ c.fn = 1 ∨ c.fn = 3 ∨ c.fn = 4 then 1 else fld (c.dw 2) 63 44
/-- A signed 32-bit half of a double-word. -/
def Copy.half (c : Copy) (k : Nat) (high : Bool) : Int := toSigned 32 (if high then fld (c.dw k) 63 32 else fld (c.dw k) 31 0)
/-- The element format of a reduce. -/
def Copy.fmt (c : Copy) : Nat := fld (c.dw 6) 23 20
/-- The triple dimension. -/
def Copy.d (c : Copy) : Nat := fld (c.dw 6) 40 32
/-- The kind of the source or destination operand (R263). -/
def Copy.kind (c : Copy) (dst : Bool) : Nat := fld (c.dw (if dst then 1 else 0)) 57 56
/-- The lease handle an operand names (R263). -/
def Copy.handle (c : Copy) (dst : Bool) : Nat := fld (c.dw (if dst then 1 else 0)) 37 32
/-- The address an operand names: A of R263. -/
def Copy.opBase (c : Copy) (dst : Bool) : Nat :=
  let w := c.dw (if dst then 1 else 0)
  match c.kind dst with
  | 0 => fld w 55 0
  | 1 => fld w 18 0
  | _ => fld w 24 0
/-- The first address of an operand with its offset (R265). -/
def Copy.start (c : Copy) (dst : Bool) : Int :=
  c.opBase dst + toSigned 32 (if dst then fld c.offs 63 32 else fld c.offs 31 0)
/-- The copy has no iteration or empty rows (R265). -/
def Copy.empty (c : Copy) : Bool := c.n0 = 0 || c.rows = 0 || c.planes = 0
/-- A reduce form. -/
def Copy.isRed (c : Copy) : Bool := decide (8 ≤ c.fn)
/-- A gather or scatter. -/
def Copy.isIdx (c : Copy) : Bool := c.fn = 3 || c.fn = 4

/-- The reduce formats (R268). -/
def redFmt (f : Nat) : Option EFmt :=
  match efmtOf f with
  | some e => if e = .fp32 ∨ e = .bf16 ∨ e = .fp16 ∨ (e.isInt && e != .int4) then some e else none
  | none => none

/-- An operand's double-word breaks reason 0x01 of R271: reserved bits, or kind 3. -/
def opBad (w : Nat) : Bool :=
  fld w 63 58 ≠ 0 ||
  match fld w 57 56 with
  | 0 => false
  | 1 => fld w 55 19 ≠ 0
  | 2 => fld w 55 38 ≠ 0 || fld w 31 25 ≠ 0
  | _ => true

/-- The kinds a form accepts (R264). -/
def kindsOf (fn : Nat) (dst : Bool) : List Nat := if dst then (if fn = 6 then [2] else [0, 1]) else (if fn = 7 then [2] else [0, 1])

/-- A breach of the alignment rules of R268, the bases taken with their offsets. -/
def Copy.redMisaligned (c : Copy) (w : Nat) : Bool :=
  c.start false % w ≠ 0 || c.start true % w ≠ 0 || c.half 3 false % w ≠ 0 || c.half 3 true % w ≠ 0 || c.half 4 false % w ≠ 0 ||
  c.half 4 true % w ≠ 0

/-- The lowest reason that double-word k breaks (R271); none when it is good. -/
def Copy.dwReason (c : Copy) (k : Nat) : Option Nat :=
  let w := c.dw k
  let one (b : Bool) : Option Nat := if b then some 0x01 else none
  let two := c.fn = 2 || 5 ≤ c.fn
  match k with
  | 0 => if c.fn = 5 then none else if opBad w then some 0x01 else if !(kindsOf c.fn false).contains (c.kind false) then some 0x02 else none
  | 1 => if opBad w then some 0x01 else if !(kindsOf c.fn true).contains (c.kind true) then some 0x02 else none
  | 2 => one ((c.fn = 0 && fld w 43 24 ≠ 0) || (!two && fld w 63 44 ≠ 0))
  | 3 => one ((c.fn = 0 && w ≠ 0) || (c.fn = 5 && fld w 31 0 ≠ 0))
  | 4 => one ((!two && w ≠ 0) || (c.fn = 5 && fld w 31 0 ≠ 0))
  | 5 => one (fld w 63 57 ≠ 0 || (!c.isIdx && w ≠ 0))
  | 6 =>
    if fld w 63 52 ≠ 0 ∨ fld w 50 50 ≠ 0 ∨ fld w 47 41 ≠ 0 ∨ fld w 31 24 ≠ 0 ∨ fld w 19 17 ≠ 0 ∨ fld w 49 48 = 3 ∨
      (!c.isIdx && fld w 51 51 ≠ 0) ∨ (c.fn ≠ 10 ∧ c.d ≠ 0) ∨ (c.fn ≠ 8 ∧ c.fn ≠ 9 ∧ c.fmt ≠ 0) ∨ (fld w 16 16 = 0 ∧ fld w 15 0 ≠ 0) then some 0x01
    else if c.fn = 10 ∧ (c.d = 0 ∨ 256 < c.d ∨ c.n0 % (4 * (c.d + 3)) ≠ 0 ∨ c.redMisaligned 4) then some 0x03
    else if (c.fn = 8 || c.fn = 9) && (match redFmt c.fmt with | none => true | some e => c.n0 % (e.bits / 8) != 0 || c.redMisaligned (e.bits / 8)) then some 0x03
    else if fld w 16 16 = 1 ∧ c.kind true ≠ 1 then some 0x04
    else none
  | _ => one (w ≠ 0)

/-- The first reason in the order DW0 to DW7 (R271). -/
def Copy.reason (c : Copy) : Option Nat := (List.range 8).findSome? c.dwReason

/-- A kind 1 operand's walk without indices leaves 0 to lim − 1 (R271): its extreme bytes are at the corners of the walk. -/
def Copy.leaves (c : Copy) (dst : Bool) (lim : Nat) : Bool :=
  if c.kind dst ≠ 1 ∨ c.empty ∨ (c.fn = 5 ∧ dst = false) ∨ (c.fn = 3 ∧ dst = false) ∨ (c.fn = 4 ∧ dst = true) then false
  else
    let at' (i2 i1 : Nat) : Int := c.start dst + i2 * c.half 4 dst + i1 * c.half 3 dst
    let corners := [at' 0 0, at' 0 (c.rows - 1), at' (c.planes - 1) 0, at' (c.planes - 1) (c.rows - 1)]
    corners.any fun a => !inSpad lim a c.n0

/-- The index list of a gather or scatter kept in the scratchpad leaves it (R149, R271). -/
def Copy.listLeaves (c : Copy) (lim : Nat) : Bool :=
  c.isIdx && fld (c.dw 5) 56 56 = 1 && !c.empty && !inSpad lim (fld (c.dw 5) 55 0 : Nat) (c.rows * (if fld (c.dw 6) 51 51 = 1 then 8 else 4))

/-! ### The walk (R265, R266, R274) -/

/-- Who walks: context, package, core key for the scratchpad and the lease windows, scratchpad bytes; whether it looks in the TLBs of
its core and die (R240); how it reads and writes bytes of register windows (R233). -/
structure Walker where
  ctx : Nat
  pkg : Nat
  core : Nat
  lim : Nat
  tlb : Bool := true
  rd : State → Nat → Nat := fun _ _ => 0
  wr : List (Nat × Byte) → State → State := fun _ s => s

/-- The translation a walk finds (R240). -/
def Walker.xlate (e : Walker) (s : State) (va : Nat) : Except (Nat × Nat) Page :=
  if e.tlb then coreXlate s e.core e.ctx va else walk s e.pkg e.ctx va

/-- What a walk meets that it cannot pass: class, reason, address, access kind and level of a translation, a place that
fabric routes do not reach, where lost data stood (R425), and whether it only waits, for walks (R241) or for a memory channel (R295). -/
structure Stop where
  cls : Nat
  reason : Nat := 0
  addr : Nat := 0
  kind : Nat := 0
  level : Nat := 0
  unreach : Bool := false
  loc : Nat := 5
  wait : Bool := false
  walks : List Nat := []
  deriving DecidableEq, Repr

/-- Where a byte is. -/
inductive Loc where
  | phys (pa : Nat) | spad (a : Nat) | pat (b : Nat)
  deriving DecidableEq, Repr

/-- The physical address of a window byte (R233). -/
def windowPa (die h o : Nat) : Nat := die / 8 * 2 ^ 45 + 0x10000000000 + die % 8 * 2 ^ 31 + h * 2 ^ 25 + o

/-- The lease a handle of a die holds: until its expiry tick (R248, R249). -/
def State.lease (s : State) (die h : Nat) : Option Lease := ((s.die die).leases.find? fun e => e.1 = h && decide (s.tick < e.2.expiry)).map Prod.snd

/-- The location of a window byte of a held lease, if it is still the one that `id` names (R251, R267). -/
def leaseLoc (s : State) (die h id : Nat) (a : Int) : Option Nat :=
  match s.lease die h with
  | none => none
  | some l => if l.id ≠ id ∨ a < 0 ∨ (l.size * 2 ^ 20 : Nat) ≤ a then none else some (l.frames.getD (a.toNat / 2 ^ 16) 0 + a.toNat % 2 ^ 16)

/-- The location of one byte of an operand, or what stops the walk there (R263, R274). `red` refuses compressed pages; `h` is a lease
handle with the lease that it is to hold. -/
def locOf (e : Walker) (s : State) (dst red : Bool) (kind : Nat) (h : Nat × Nat) (a : Int) : Except Stop Loc :=
  let acc := if dst then 5 else 4
  match kind with
  | 0 =>
    if a < 0 ∨ (2 ^ 56 : Nat) ≤ a then .error { cls := 0x0B, reason := 0x02, addr := (a % 2 ^ 64).toNat, kind := acc, level := 4 }
    else match e.xlate s a.toNat with
      | .error (r, l) =>
        if r = poisonedEntry then .error { cls := 0x14, addr := a.toNat } else .error { cls := 0x0B, reason := r, addr := a.toNat, kind := acc, level := l }
      | .ok p =>
        if dst then
          if pteCf p.pte then .error { cls := 0x0A, addr := a.toNat }
          else if !pteW p.pte then .error { cls := 0x09, addr := a.toNat }
          else if pteCmp p.pte && red then .error { cls := 0x03, addr := a.toNat }
          else if !reachable s e.pkg p.pa then .error { cls := 0x14, addr := a.toNat, unreach := true }
          else .ok (.phys p.pa)
        else if pteCf p.pte then .ok (.pat (fld (tabGet 0 (s.pkg e.pkg).cpat (fld p.pte 5 0)) (8 * (a.toNat % 8) + 7) (8 * (a.toNat % 8))))
        else if pteCmp p.pte && red then .error { cls := 0x03, addr := a.toNat }
        else if !reachable s e.pkg p.pa then .error { cls := 0x14, addr := a.toNat, unreach := true }
        else .ok (.phys p.pa)
  | 1 => if inSpad e.lim a 1 then .ok (.spad a.toNat) else .error { cls := 0x07, addr := (a % 2 ^ 64).toNat }
  | _ => match leaseLoc s (dieOf e.core) h.1 h.2 a with
    | some pa => .ok (.phys pa)
    | none => .error { cls := 0x10, addr := windowPa (dieOf e.core) h.1 (a % 2 ^ 25).toNat }

/-- The locations of n bytes from a, up to the first that stops the walk, with what stops it. -/
def locsOf (e : Walker) (s : State) (dst red : Bool) (kind : Nat) (h : Nat × Nat) (a : Int) : Nat → List Loc × Option Stop
  | 0 => ([], none)
  | n + 1 =>
    match locOf e s dst red kind h a with
    | .error x => ([], some x)
    | .ok l => let r := locsOf e s dst red kind h (a + 1) n; (l :: r.1, r.2)

/-- A byte at a location. -/
def readLoc (e : Walker) (s : State) : Loc → Nat
  | .phys pa => if isWindow pa then e.rd s pa else (readByte s pa).toNat
  | .spad a => ((s.core e.core).spadGet a).toNat
  | .pat b => b

/-- A byte of memory or of the scratchpad written at a location. -/
def writeLoc (e : Walker) (l : Loc) (b : Nat) (s : State) : State :=
  match l with
  | .phys pa => writeByte s pa (BitVec.ofNat 8 b)
  | .spad a => s.modCore e.core fun c => c.spadWrite [(a, BitVec.ofNat 8 b)]
  | .pat _ => s

/-- A location lies in a register window. -/
def Loc.window : Loc → Bool
  | .phys pa => isWindow pa
  | _ => false

/-- The physical cell of a byte at a location. -/
def Loc.cell (l : Loc) (b : Nat) : Option (Nat × Byte) := match l with | .phys pa => some (pa, BitVec.ofNat 8 b) | _ => none

/-- Bytes written at locations, all in one register window or all outside one. -/
def writeLocs (e : Walker) (l : List (Loc × Nat)) (s : State) : State :=
  if l.any fun w => w.1.window then e.wr (l.filterMap fun w => w.1.cell w.2) s else l.foldl (fun s w => writeLoc e w.1 w.2 s) s

/-- The one location of bytes that two kinds of operand reach (R266). -/
def Loc.place (e : Walker) : Loc → Loc
  | .spad a => .phys (e.core / 4096 * 2 ^ 45 + 0x10400000000 + e.core % 4096 * 2 ^ 19 + a)
  | l => l

/-- The aligned granule of 64 bytes of a location. -/
def Loc.granule : Loc → Loc
  | .phys pa => .phys (pa / 64) | .spad a => .spad (a / 64) | .pat _ => .pat 0

/-- A location lies in a poisoned unit (R428). -/
def locPoisoned (e : Walker) (s : State) : Loc → Bool
  | .phys pa => poisonedAt s pa
  | .spad a => s.poison.contains (.spad e.core (a / 8))
  | .pat _ => false

/-- Where data of a location are lost (R425). -/
def Loc.lossCode (s : State) : Loc → Nat
  | .phys pa => lossPlace s pa
  | .spad _ => 3
  | .pat _ => 5

/-- The physical bytes of locations. -/
def physOf (l : List Loc) : List Nat := l.filterMap fun l => match l with | .phys pa => some pa | _ => none

/-- How many of the first n locations may be read: none of a granule of which a byte that is read is poisoned (R274). -/
def cleanPrefix (e : Walker) (s : State) (l : List Loc) (n : Nat) : Nat :=
  if s.poison.isEmpty then n
  else
    let bad := (l.filter (locPoisoned e s)).map Loc.granule
    ((l.take n).takeWhile fun x => !bad.contains x.granule).length

/-- What bytes written for every agent do to older values that some agents still see (R208), and to poison (R428). -/
def clearLocs (e : Walker) (l : List Loc) (s : State) : State :=
  let s := purgeOld (l.filterMap (·.cell 0)) s
  if s.poison.isEmpty then s
  else
    let s := clearPoison s (l.filterMap (·.cell 0))
    { s with poison := s.poison.filter fun p => match p with
        | .spad c w => !(c = e.core && (List.range 8).all fun i => l.contains (.spad (8 * w + i)))
        | _ => true }

/-- One arriving value combined with the local one (R268). -/
def redCombine (fn : Nat) (f : EFmt) (loc arr : Nat) : Nat :=
  match f.flt with
  | some g => if fn = 8 then (pack g false (addV (unpack g loc) (unpack g arr))).1 else (minmaxF g true false loc arr).1
  | none => if fn = 8 then (loc + arr) % 2 ^ f.bits else if f.int loc < f.int arr then arr else loc

/-- The bytes a reduce writes over a piece: its elements or its triple combined. -/
def redBytes (c : Copy) (loc arr : List Nat) : List Nat :=
  if c.fn = 10 then bytes32 (mergeTriple c.d (words32 loc) (words32 arr)).1
  else
    let f := (redFmt c.fmt).getD .fp32
    let w := f.bits / 8
    ((wordsOf w (loc.length / w) loc).zip (wordsOf w (arr.length / w) arr)).flatMap fun e => toBytes w (redCombine c.fn f e.1 e.2)

/-- The index of an iteration, read when the iteration begins (R265). -/
def readIx (e : Walker) (s : State) (c : Copy) : Except Stop Int :=
  let w := if fld (c.dw 6) 51 51 = 1 then 8 else 4
  let a := fld (c.dw 5) 55 0 + c.f * w
  let r := locsOf e s false true (fld (c.dw 5) 56 56) (0, 0) a w
  match r.2 with
  | some x => .error x
  | none => if cleanPrefix e s r.1 w < w then .error { cls := 0x14, addr := a } else .ok (toSigned (8 * w) (ofBytes (r.1.map (readLoc e s))))

/-- Source and destination address of the iteration under way (R265). -/
def Copy.rowAddr (c : Copy) (ix : Int) : Int × Int :=
  let i1 := c.f % c.rows
  let i2 := c.f / c.rows
  (if c.fn = 3 then c.start false + ix * c.half 3 false else c.start false + i2 * c.half 4 false + i1 * c.half 3 false,
   if c.fn = 4 then c.start true + ix * c.half 3 true else c.start true + i2 * c.half 4 true + i1 * c.half 3 true)

/-- The progress after n more bytes of the row. -/
def Copy.advance (c : Copy) (n : Nat) : Copy :=
  if c.o + n < c.n0 then { c with o := c.o + n }
  else { c with f := c.f + 1, o := 0, ix := none, walked := decide (c.rows * c.planes ≤ c.f + 1) }

/-- The lease that an operand names: its handle and the lease held at issue (R267). -/
def Copy.leaseRef (c : Copy) (dst : Bool) : Nat × Nat := (c.handle dst, c.lid)

/-- The index of iteration f; 0 where the form has none. -/
def Copy.indexAt (e : Walker) (s : State) (c : Copy) (f : Nat) : Except Stop Int := if c.isIdx then readIx e s { c with f := f } else .ok 0

/-- The locations that iteration f reads or writes as far as they can be reached, and whether that is all of them. -/
def Copy.rowLocs (e : Walker) (s : State) (c : Copy) (dst : Bool) (f : Nat) : List Loc × Bool :=
  match c.indexAt e s f with
  | .error _ => ([], false)
  | .ok ix =>
    let a := ({ c with f := f } : Copy).rowAddr ix
    let r := locsOf e s dst c.isRed (c.kind dst) (c.leaseRef dst) (if dst then a.2 else a.1) c.n0
    (r.1, r.2.isNone)

/-- The iterations that a copy has not ended. -/
def Copy.rest (c : Copy) : List Nat := (List.range (c.rows * c.planes - c.f)).map (c.f + ·)

/-- The granules of which a byte that the copy still reads is bad (R274). -/
def Copy.badGranules (e : Walker) (s : State) (c : Copy) (dst : Bool) : List Loc :=
  if s.poison.isEmpty ∨ c.empty ∨ (!dst && c.fn = 5) then []
  else (((c.rest.flatMap fun f => (c.rowLocs e s dst f).1).filter (locPoisoned e s)).map Loc.granule).dedup

/-- A copy still writes one of these locations, as far as its rows can be told (R266). -/
def Copy.mayWrite (e : Walker) (s : State) (c : Copy) (l : List Loc) : Bool :=
  !c.empty && !c.walked && c.fn ≠ 4 && c.rest.any fun f => ((c.rowLocs e s true f).1.map (Loc.place e)).any fun x => l.contains x

/-- Where a copy still writes cannot all be told (R266): a scatter, and a row that cannot be reached now. -/
def Copy.unsure (e : Walker) (s : State) (c : Copy) : Bool :=
  !c.empty && !c.walked && (c.fn = 4 || c.rest.any fun f => !(c.rowLocs e s true f).2)

/-- The scratchpad, virtual, or physical lease-window address of a failing byte. -/
def Copy.badAddr (e : Walker) (c : Copy) (dst : Bool) (a : Int) : Nat :=
  match c.kind dst with
  | 0 => (a % 2 ^ 64).toNat
  | 1 => (a % 2 ^ 19).toNat
  | _ => windowPa (dieOf e.core) (c.handle dst) (a % 2 ^ 25).toNat

/-- What a reader sees wholly old or wholly new of what a walk writes (R150, R273): a granule of a scratchpad, a column of memory. -/
def Copy.grain (c : Copy) : Nat := if c.kind true = 1 then 64 else 32

/-- Where the next piece of a walk writes: its first address and its bytes. -/
def Copy.span (c : Copy) (ix : Int) : Int × Nat :=
  let da := (c.rowAddr ix).2 + c.o
  (da, if c.fn = 10 then 4 * (c.d + 3) else min (c.n0 - c.o) (c.grain - (da % c.grain).toNat))

/-- The bytes that k locations get from as many others: a plain copy moves byte by byte, a reduce element by element (R266, R268). -/
def Copy.move (e : Walker) (c : Copy) (n : Nat) (d src : List Loc) (s : State) : State :=
  if d.any Loc.window || src.any Loc.window then writeLocs e (d.zip (if c.isRed then redBytes c (d.map (readLoc e s)) (src.map (readLoc e s)) else src.map (readLoc e s))) s
  else if c.isRed then
    let w := if c.fn = 10 then n else match redFmt c.fmt with | some f => f.bits / 8 | none => 1
    let unit (l : List Loc) (j : Nat) : List Loc := (l.drop (j * w)).take w
    (List.range (d.length / w)).foldl (fun s j => writeLocs e ((unit d j).zip (redBytes c ((unit d j).map (readLoc e s)) ((unit src j).map (readLoc e s)))) s) s
  else (d.zip src).foldl (fun s (w : Loc × Loc) => writeLoc e w.1 (readLoc e s w.2) s) s

/-- The index, if any, and what the next piece of a walk reads and writes: its bytes, source and destination locations up to
the first that stops it, with what stops it there. -/
def Copy.ends (e : Walker) (s : State) (c : Copy) (ix : Int) : Nat × (List Loc × Option Stop) × (List Loc × Option Stop) :=
  let a := c.rowAddr ix
  let n := (c.span ix).2
  (n, (if c.fn = 5 then ((List.range n).map fun i => Loc.pat (c.dw 0 / 256 ^ ((c.o + i) % 8) % 256), none)
      else locsOf e s false c.isRed (c.kind false) (c.leaseRef false) (a.1 + c.o) n),
    locsOf e s true c.isRed (c.kind true) (c.leaseRef true) (a.2 + c.o) n)

/-- One piece of a walk: read, combined and written, or what stops it at the progress point (R265, R266, R268, R274, R275). -/
def Copy.piece (e : Walker) (c : Copy) (s : State) : State × Copy × Option Stop :=
  if c.empty then (s, { c with walked := true }, none)
  else
    match (match c.ix with | some i => Except.ok i | none => c.indexAt e s c.f) with
    | .error x => (s, c, some x)
    | .ok ix =>
      let c := if c.isIdx then { c with ix := some ix } else c
      let a := c.rowAddr ix
      let x := c.ends e s ix
      let n := x.1
      let src := x.2.1
      let dst := x.2.2
      let good := (src.1.takeWhile fun l => !(c.badGranules e s false).contains l.granule).length
      let loc := if c.isRed then (dst.1.takeWhile fun l => !(c.badGranules e s true).contains l.granule).length else dst.1.length
      let k := if c.isRed && min good loc < n then 0 else min good loc
      if k = 0 then
        let need := if c.isRed then n else 1
        (s, c, some (if src.1.length < need then src.2.getD { cls := 0x14 }
          else if good < need then { cls := 0x14, addr := c.badAddr e false (a.1 + c.o + good) }
          else dst.2.getD { cls := 0x14, addr := c.badAddr e true (a.2 + c.o + loc) }))
      else
        let d := dst.1.take k
        let put := if c.later.isEmpty then d else d.map fun l => match l.place e with | .phys pa => if c.later.contains pa then .pat 0 else l | l => l
        let s := clearLocs e put (c.move e n put (src.1.take k) s)
        let c := if c.kind true = 1 then { c with pages := (c.pages ++ (d.filterMap fun l => match l with | .spad a => some (a / 2048) | _ => none)).dedup } else c
        (s, c.advance k, none)

/-- The granule or column that the next piece writes; none where it cannot be told. -/
def Copy.target (e : Walker) (s : State) (c : Copy) : Option Int :=
  match (match c.ix with | some i => Except.ok i | none => c.indexAt e s c.f) with
  | .ok ix => some ((c.span ix).1 / c.grain)
  | .error _ => none

/-- The pieces of a walk that write one granule or column without a break are one step, so that no reader sees it between them
(R150, R273). A walk that leaves it and comes back writes it again. -/
def Copy.stretch (e : Walker) : Nat → Copy → State → State × Copy × Option Stop
  | 0, c, s => (s, c, none)
  | n + 1, c, s =>
    let r := c.piece e s
    if r.2.2.isSome || r.2.1.walked || c.target e s ≠ r.2.1.target e r.1 then r else stretch e n r.2.1 r.1

/-- The locations that a stretch of a walk writes. -/
def Copy.reach (e : Walker) : Nat → Copy → State → List Loc
  | 0, _, _ => []
  | n + 1, c, s =>
    let l := match (match c.ix with | some i => Except.ok i | none => c.indexAt e s c.f) with | .error _ => [] | .ok ix => (c.ends e s ix).2.2.1
    let r := c.piece e s
    if r.2.2.isSome || r.2.1.walked || c.target e s ≠ r.2.1.target e r.1 then l else l ++ Copy.reach e n r.2.1 r.1

/-! ### Issue (R271) -/

/-- A copy channel of the executing task. -/
def State.ch (s : State) (k : Nat) : CopyCh := s.task.ch.getD k {}

/-- One copy channel of the executing task changed. -/
def State.modCh (s : State) (k : Nat) (f : CopyCh → CopyCh) : State := s.modTask fun t => { t with ch := t.ch.modify k f }

/-- A copy descriptor fault (R271). -/
def copyFault (reason : Nat) : State → State := fault 0x05 reason 0

/-- The 64 bytes of a block in the scratchpad as double-words, with the checks 2 and 3 of R271. -/
def withBlock (a : Nat) (f : List Nat → State → State) (s : State) : State :=
  if a % 64 ≠ 0 then fault 0x02 0 a s
  else if s.task.spadBytes < a + 64 then fault 0x07 0 a s
  else if spadPoisoned s a 64 then dataLoss 3 a s
  else f (wordsOf 8 8 (s.curCore.spadBytes a 64)) s

/-- A lease handle the task's context holds. -/
def holdsLease (s : State) (h : Nat) : Bool :=
  match s.lease (dieOf s.cur.core) h with | some l => l.ctx = s.task.ctx | none => false

/-- Which lease a handle of the executing die holds. -/
def leaseId (s : State) (h : Nat) : Nat := match s.lease (dieOf s.cur.core) h with | some l => l.id | none => 0

/-- A copy accepted: it takes the next number of its channel's counter and an entry of the queue (R217, R258, R259). -/
def acceptCopy (ch : Nat) (c : Copy) (s : State) : State :=
  let tl := (s.ch ch).tl
  let num := (s.tl tl).count + 1
  let s := countCore s.cur.core (0x38 + ch) 1 (takeNumber tl s)
  (s.modCh ch fun x => { x with last := num, q := x.q ++ [{ c with num := num, tl := tl, seq := s.task.c.seq }] }).post .copyStart
    { unit := s.cur.core, k := ch, n := num, j := tl }

/-- The issue of a copy of form fn (R258, R261, R271). -/
def copyIssue (fn ch a b : Nat) (s : State) : State :=
  if 16 ≤ (s.ch ch).q.length then freezeBefore 0xC s
  else
    let za := (s.reg a).toNat
    if fld za 31 19 ≠ 0 ∨ fld za 63 48 ≠ 0 then copyFault 0x01 s
    else withBlock (fld za 18 0) (fun blk s =>
      let c : Copy := { fn := fn, blk := blk, offs := (s.reg b).toNat, inc := fld za 47 32 }
      match c.reason with
      | some r => copyFault r s
      | none =>
        if (fn ≠ 5 ∧ c.leaves false s.task.spadBytes) ∨ c.leaves true s.task.spadBytes ∨ c.listLeaves s.task.spadBytes then fault 0x07 0 0 s
        else if (c.fn ≠ 5 ∧ c.kind false = 2 ∧ !holdsLease s (c.handle false)) ∨ (c.kind true = 2 ∧ !holdsLease s (c.handle true)) then copyFault 0x05 s
        else acceptCopy ch { c with lid := leaseId s (c.handle (c.kind true = 2)) } s) s

/-- The shape of a copy instruction's meaning. -/
def copyExec (fn c a b : Nat) (s : State) : Host.Outcome State Fault Refusal := onStream s (reading [a, b] (copyIssue fn c a b))

/-- `cp.1d` (R264). -/
def execCp1d (c a b : Nat) (s : State) : Host.Outcome State Fault Refusal := copyExec 0 c a b s

/-- `cp.2d` (R264). -/
def execCp2d (c a b : Nat) (s : State) : Host.Outcome State Fault Refusal := copyExec 1 c a b s

/-- `cp.3d` (R264). -/
def execCp3d (c a b : Nat) (s : State) : Host.Outcome State Fault Refusal := copyExec 2 c a b s

/-- `cp.gat` (R264, R265). -/
def execCpGat (c a b : Nat) (s : State) : Host.Outcome State Fault Refusal := copyExec 3 c a b s

/-- `cp.sct` (R264, R265). -/
def execCpSct (c a b : Nat) (s : State) : Host.Outcome State Fault Refusal := copyExec 4 c a b s

/-- `cp.fill` (R264, R265). -/
def execCpFill (c a b : Nat) (s : State) : Host.Outcome State Fault Refusal := copyExec 5 c a b s

/-- `cp.tol` (R264, R267). -/
def execCpTol (c a b : Nat) (s : State) : Host.Outcome State Fault Refusal := copyExec 6 c a b s

/-- `cp.frl` (R264, R267). -/
def execCpFrl (c a b : Nat) (s : State) : Host.Outcome State Fault Refusal := copyExec 7 c a b s

/-- `cp.red.sum` (R264, R268). -/
def execCpRedSum (c a b : Nat) (s : State) : Host.Outcome State Fault Refusal := copyExec 8 c a b s

/-- `cp.red.max` (R264, R268). -/
def execCpRedMax (c a b : Nat) (s : State) : Host.Outcome State Fault Refusal := copyExec 9 c a b s

/-- `cp.red.mrg` (R264, R268). -/
def execCpRedMrg (c a b : Nat) (s : State) : Host.Outcome State Fault Refusal := copyExec 10 c a b s

/-! ### Attachments (R269, R200) -/

/-- The attachments at the head of a channel's queue become ready: no copy before them is outstanding (R200, R269). -/
def readyAtts (wall : Nat) : List Copy → List Copy
  | [] => []
  | c :: t => if c.fn = 11 then { c with ready := some (c.ready.getD wall) } :: readyAtts wall t else c :: t

/-- The attachments of a channel that wait at its head become ready in a wall cycle, and their arrivals are due. -/
def postArrivals (ch wall : Nat) (s : State) : State :=
  let new := ((s.ch ch).q.takeWhile fun c => c.fn = 11).filter fun c => c.ready.isNone
  new.foldl (fun s _ => s.post .followOnArrival { unit := s.cur.core, k := ch }) (s.modCh ch fun x => { x with q := readyAtts wall x.q })

/-- The issue of `cp.mm` (R269): operands and block are read now; with no copy outstanding it arrives in the next wall
cycle. -/
def attachIssue (ch a b : Nat) (s : State) : State :=
  if 16 ≤ (s.ch ch).q.length then freezeBefore 0xC s
  else
    let za := (s.reg a).toNat
    let zb := (s.reg b).toNat
    if fld za 63 19 ≠ 0 ∨ fld zb 63 6 ≠ 0 then copyFault 0x01 s
    else withBlock (fld za 18 0) (fun blk s =>
      postArrivals ch (s.wall + 1) (s.modCh ch fun x => { x with q := x.q ++ [{ fn := 11, blk := blk, offs := zb, seq := s.task.c.seq }] })) s

/-- `cp.mm` (R269). -/
def execCpMm (c a b : Nat) (s : State) : Host.Outcome State Fault Refusal := onStream s (reading [a, b] (attachIssue c a b))

/-! ### Status, abort and binding (R279 to R282) -/

/-- The status word of a channel (R280). -/
def CopyCh.status (x : CopyCh) : Nat :=
  x.last % 2 ^ 40 * 2 ^ 24 + x.tl * 2 ^ 20 + (if x.pf.isSome then 2 ^ 17 else 0) + (if x.hs then 2 ^ 16 else 0) + x.q.length

/-- `cp.stat` (R280). -/
def execCpStat (d a : Nat) (s : State) : Host.Outcome State Fault Refusal :=
  onStream s fun s => result 14 (.regs [(d, BitVec.ofNat 64 (s.ch a).status)]) 0 s

/-- `cp.abort` (R281): every copy and attachment ends; ended copies complete; the fault outstanding is discarded. No write
of an ended copy is in flight here, so nothing is waited for. -/
def copyAbort (d k : Nat) (s : State) : State :=
  let q := (s.ch k).q
  let s := s.modCh k fun x => { x with q := [], pf := none, hs := false }
  let s := q.foldl (fun s c => if c.fn = 11 then s else completeNum c.tl c.num s) s
  result 14 (.regs [(d, BitVec.ofNat 64 q.length)]) 0 s

/-- `cp.abort` (R281). -/
def execCpAbort (d a : Nat) (s : State) : Host.Outcome State Fault Refusal := onStream s (copyAbort d a)

/-- `cp.bind` (R282): for copies issued later; the C stream issues at most one word a cycle. -/
def execCpBind (d a : Nat) (s : State) : Host.Outcome State Fault Refusal := onStream s (State.modCh · a fun x => { x with tl := d })

end Sys2Proof.Machine
end

