-- ==== Sys2Proof/Machine/Lease.lean ====
section
/-!
DEFINITION. Sys2Proof/Machine/Lease.lean: L2 leases, slice dot units, cache maintenance and prefetch (R248 to R257), and the
arming of timeline actions (R220 to R222).
-/

namespace Sys2Proof.Machine

/-! ### Leases (R248 to R251) -/

/-- Free lease units of a slice of a die: three, less those that leases hold (R248). -/
def freeUnits (s : State) (die slice : Nat) : Nat :=
  3 - (((s.die die).leases.filter fun e => s.tick < e.2.expiry).flatMap fun e => e.2.units.filter (· = slice)).length

/-- The free units of the sixteen slices of a die. -/
def freeList (s : State) (die : Nat) : List Nat := (List.range 16).map (freeUnits s die)

/-- Units placed one at a time, each in the slice with the most free units, the lowest among equals (R248). -/
def placeUnits : Nat → List Nat → List Nat
  | 0, _ => []
  | n + 1, fr =>
    let best := (List.range 16).foldl (fun b j => if fr.getD b 0 < fr.getD j 0 then j else b) 0
    best :: placeUnits n (fr.set best (fr.getD best 0 - 1))

/-- One page of a range may be leased (R248, R249): its frame, on a stack attached to the die. -/
def leasePage (s : State) (core die ctx va : Nat) : Option Nat :=
  match coreXlate s core ctx va with
  | .error _ => none
  | .ok p =>
    if pteCf p.pte || pteCmp p.pte || pteCache p.pte = 0 || p.pa / 2 ^ 45 ≠ die / 8 || hbmTop ≤ p.pa % 2 ^ 45 ||
      p.pa % 2 ^ 45 / 2 ^ 36 / 2 ≠ die % 8 then none
    else some p.pa

/-- A handle of a die that holds no lease: which of them is open (R248 and R249 name no order; log 4). -/
def freeHandle (s : State) (die : Nat) : Option Nat :=
  let l := (List.range 64).filter fun h => (s.lease die h).isNone
  l[Config.freeChoice s.nfree % l.length]?

/-- One of several statuses whose conditions hold; the manual does not say which (log 4). -/
def anyStatus (l : List Nat) (s : State) : Nat × State :=
  if l.length ≤ 1 then (l.headD 0, s) else (l.getD (Config.freeChoice s.nfree % l.length) 0, { s with nfree := s.nfree + 1 })

/-- What a request lands with class ld; it may be late, and then it freezes its stream as a load does (R99, R249, R318, R381). The
wall cycle in which it is there is open (log 4). -/
def lateReply (l : Land) (s : State) : State :=
  let x := s.str
  let ready := s.wall + 1 + Config.freeChoice s.nfree
  { (s.modStr fun x => { x with
      flights := x.flights ++ [{ due := x.cyc + s.task.lat 4, iss := x.cyc, seq := x.seq, land := l, wait := 3 }], seq := x.seq + 1 }).post
        .interlockResultReady { unit := s.cur.core, st := s.cur.st, k := x.seq, v := ready } with nfree := s.nfree + 1 }

/-- A register result of a C-stream request. -/
def landReply (d v : Nat) : State → State := lateReply (.regs [(d, BitVec.ofNat 64 v)])

/-- `l2.lease` (R249). -/
def leaseAsk (d a b : Nat) (s : State) : State :=
  let die := dieOf s.cur.core
  let base := (s.reg a).toNat
  let zb := (s.reg b).toNat
  let size := fld zb 5 0
  let life := fld zb 63 16
  let okSize := 1 ≤ size ∧ size ≤ 32 ∧ 1 ≤ life ∧ fld zb 15 6 = 0
  let frames := (List.range (16 * size)).map fun i => leasePage s s.cur.core die s.task.ctx (base + i * 2 ^ 16)
  let bad := (if (freeHandle s die).isNone then [0x01] else []) ++ (if (freeList s die).sum < size then [0x02] else []) ++
    (if base % 2 ^ 16 ≠ 0 ∨ frames.any Option.isNone then [0x03] else []) ++ (if okSize then [] else [0x04])
  if bad ≠ [] then
    let r := anyStatus bad s
    landReply d r.1 r.2
  else
    let h := (freeHandle s die).getD 0
    let l : Lease := { ctx := s.task.ctx, base := base, size := size, frames := frames.filterMap id, units := placeUnits size (freeList s die), expiry := s.tick + life, id := (s.die die).nlease + 1 }
    let s : State := { s with nfree := s.nfree + 1 }
    let s := s.modDie die fun x => { x with leases := (x.leases.filter fun e => e.1 ≠ h) ++ [(h, l)], nlease := x.nlease + 1 }
    landReply d (h * 256) (countDie die 0x83 1 s)

/-- `l2.lease` (R249). -/
def execL2Lease (d a b : Nat) (s : State) : Host.Outcome State Fault Refusal := onStream s (reading [a, b] (leaseAsk d a b))

/-- A handle the executing context holds on its die. -/
def heldLease (s : State) (h : Nat) : Option Lease :=
  match s.lease (dieOf s.cur.core) h with | some l => if l.ctx = s.task.ctx then some l else none | none => none

/-- A lease ends: handle and units return to the die, and its lines are lines of their hash home again (R251). -/
def endLease (die h : Nat) (s : State) : State := s.modDie die fun x => { x with leases := x.leases.filter fun e => e.1 ≠ h }

/-- `l2.rel` (R250). -/
def leaseRel (d a : Nat) (s : State) : State :=
  let h := (s.reg a).toNat % 64
  match heldLease s h with
  | none => landReply d 0x05 s
  | some _ => landReply d 0 (endLease (dieOf s.cur.core) h s)

/-- `l2.rel` (R250). -/
def execL2Rel (d a : Nat) (s : State) : Host.Outcome State Fault Refusal := onStream s (reading [a] (leaseRel d a))

/-- `l2.renew` (R250). -/
def leaseRenew (d a b : Nat) (s : State) : State :=
  let h := (s.reg a).toNat % 64
  let n := (s.reg b).toNat
  let bad := (if n = 0 ∨ 2 ^ 48 ≤ n then [0x04] else []) ++ (if (heldLease s h).isNone then [0x05] else [])
  if bad ≠ [] then
    let r := anyStatus bad s
    landReply d r.1 r.2
  else
    landReply d 0 (s.modDie (dieOf s.cur.core) fun x =>
      { x with leases := x.leases.map fun e => if e.1 = h ∧ s.tick < e.2.expiry then (h, { e.2 with expiry := s.tick + n }) else e })

/-- `l2.renew` (R250). -/
def execL2Renew (d a b : Nat) (s : State) : Host.Outcome State Fault Refusal := onStream s (reading [a, b] (leaseRenew d a b))

/-- `l2.stat` (R250). -/
def execL2Stat (d a : Nat) (s : State) : Host.Outcome State Fault Refusal :=
  onStream s (reading [a] fun s => landReply d (match heldLease s ((s.reg a).toNat % 64) with | some l => l.expiry | none => 0) s)

/-- LEASE_EXPIRY (R248, R251): a lease whose tick has come ends. Reads `arg.unit` (die) and `arg.k` (handle). -/
def execLeaseExpiry (s : State) : Host.Outcome State Fault Refusal :=
  onEvent s fun s => s.modDie s.arg.unit fun x => { x with leases := x.leases.filter fun e => !(e.1 = s.arg.k && decide (e.2.expiry ≤ s.tick)) }

/-! ### Slice dot units (R252 to R254) -/

/-- The executing task's own walk as an engine at its core. -/
def walker (s : State) : Walker := { ctx := s.task.ctx, pkg := pkgOf s.cur.core, core := s.cur.core, lim := s.task.spadBytes }

/-- An entry of the list of `l2.dot` (R252): handle, token count, key page, value page, reserved bits. -/
structure DotEnt where
  h : Nat
  cnt : Nat
  kp : Nat
  vp : Nat
  rsv : Nat
  deriving DecidableEq, Repr

/-- An entry's fields (R252). -/
def dotEnt (w : Nat) : DotEnt := { h := fld w 5 0, cnt := fld w 12 6, kp := fld w 26 16, vp := fld w 42 32, rsv := fld w 15 13 + fld w 31 27 + fld w 63 43 }

/-- The slice that holds page k of a lease: 64 pages of 16 KiB in each unit (R248, R252). -/
def Lease.sliceOf (l : Lease) (k : Nat) : Nat := l.units.getD (k / 64) 16

/-- Bytes of a window page as numbers. -/
def windowBytes (s : State) (l : Lease) (o n : Nat) : List Nat :=
  (List.range n).map fun i => (readByte s (l.frames.getD ((o + i) / 2 ^ 16) 0 + (o + i) % 2 ^ 16)).toNat

/-- The partial of one key: its score with scale c, and its value row (R253). -/
def keyPartial (q k v : List Nat) (c : Nat) : List Nat :=
  let one : FVal := .num false 1 0
  let dot := (List.range 8).foldl (fun acc i => (groupDot .bf16 acc (((q.drop (16 * i)).take 16).zip ((k.drop (16 * i)).take 16)) one one).1) 0x80000000
  (mul32 dot c).1 :: 0x3F800000 :: v.map (fun w => (widenCvt .bf16 w).1) ++ [1]

/-- An entry scored (R253): its keys merged into a slice's partial. -/
def dotScore (s : State) (l : Lease) (q : List Nat) (c : Nat) (e : DotEnt) (t : List Nat) : List Nat :=
  (List.range e.cnt).foldl (fun t k =>
    let row (p : Nat) : List Nat := wordsOf 2 128 (windowBytes s l (16384 * p + 256 * k) 256)
    (mergeTriple 128 t (keyPartial q (row e.kp) (row e.vp) c)).1) t

/-- A partial with its INC mark (R51, R253). -/
def dotSkip (t : List Nat) : List Nat := t.set 130 (t.getD 130 0 % 2 ^ 31 + 2 ^ 31)

/-- The lease of an entry as the context held it at issue. -/
def LDot.lease (d : LDot) (h : Nat) : Option Lease := (d.held.find? fun x => x.1 = h).map Prod.snd

/-- The status that the checks before scoring give (R253): 0 where they pass. -/
def dotChecks (d : LDot) (rsv : Bool) (n : Nat) (es : List DotEnt) : Nat :=
  if rsv ∨ n = 0 ∨ 4096 < n ∨ es.any fun e => e.rsv ≠ 0 ∨ e.cnt = 0 ∨ 64 < e.cnt then 0x1
  else if es.any fun e => (d.lease e.h).isNone then 0x2
  else if es.any fun e => match d.lease e.h with
      | none => false
      | some l => decide (l.size * 64 ≤ e.kp) || decide (l.size * 64 ≤ e.vp) || l.sliceOf e.kp ≠ l.sliceOf e.vp then 0x3
  else 0

/-- The entries of a list by slice, each slice's in list order (R253). -/
def dotTodo (d : LDot) (ws : List Nat) : List (List Nat) :=
  (List.range 16).map fun j => ws.filter fun w => match d.lease (dotEnt w).h with | some l => l.sliceOf (dotEnt w).kp = j | none => false

/-- A fault of the slice dot units (R254, R423): replayable ones and the others stop all four streams. -/
def dotFault (d : LDot) (x : Stop) (s : State) : State :=
  let r : Rec := { cls := x.cls, reason := x.reason, agent := 9, flags := (if x.cls = 0x0B then 1 else 0), whn := d.num % 2 ^ 60 + d.tl * 2 ^ 60, addr := x.addr,
                   i0 := if x.cls = 0x0B then 7 else if x.cls = 0x14 then (if x.unreach then 8 else x.loc) else 0, i1 := x.level }
  let seq := recSeq s (pkgOf s.cur.core) s.task.ctx
  (taskStop r (if x.cls = 0x0B then .cont else .stop) s).modTask fun t =>
    { t with ldots := t.ldots.map fun y => if y = d then { y with pf := some seq, run := none } else y }

/-- `l2.dot` accepted (R252, R254): it takes its number; the leases its context holds now are remembered. No rule makes a check of its
block's address (log 21). -/
def dotIssue (n a : Nat) (s : State) : State :=
  let num := (s.tl n).count + 1
  let held := (List.range 64).filterMap fun h => (heldLease s h).map fun l => (h, l)
  ((takeNumber n s).modTask fun t => { t with ldots := t.ldots ++ [{ tl := n, num := num, va := (s.reg a).toNat, held := held, seq := s.task.c.seq }] }).post .timelineMarkAdvance
    { unit := s.cur.core, k := n, n := num, v := s.task.id }

/-- `l2.dot` (R252). -/
def execL2Dot (n a : Nat) (s : State) : Host.Outcome State Fault Refusal := onStream s (reading [a] (dotIssue n a))

/-! ### Maintenance and prefetch (R255, R256) -/

/-- The lines of a virtual range that its pages let the caches hold, by physical address, with their page's entry (R255, R256). -/
def rangeLines (s : State) (va n : Nat) : List (Nat × Nat) :=
  (List.range (if n = 0 then 0 else (va + n - 1) / 128 - va / 128 + 1)).filterMap fun i =>
    let a := (va / 128 + i) * 128
    if 2 ^ 56 ≤ a then none
    else match coreXlate s s.cur.core s.task.ctx a with
      | .ok p => if pteCf p.pte || pteCmp p.pte || pteCache p.pte = 0 then none else some (p.pa, p.pte)
      | .error _ => none

/-- A line of the executing core's L1 is written back to its home slice, and removed if `inval` says so (R255). -/
def cleanL1 (inval : Bool) (pa : Nat) (s : State) : State :=
  let dirty := s.curCore.l1.contains (pa / 128, true)
  let s := s.modCore s.cur.core fun c => { c with l1 := if inval then c.l1.filter fun l => l.1 ≠ pa / 128 else c.l1.map fun l => if l.1 = pa / 128 then (l.1, false) else l }
  if dirty then l1Back (pa / 128) s else s

/-- A line of its home slice is written back, and removed if `inval` says so; a leased line stays pinned (R255). -/
def cleanL2 (inval : Bool) (pa : Nat) (s : State) : State :=
  if !l2Has s pa then s
  else
    let drop := inval && (leaseSlice s pa).isNone
    let dirty := (s.die (homeDie pa)).l2.contains (pa / 128, true)
    let s := countDie (homeDie pa) 0x82 (if dirty then 1 else 0) (carryPoison dirty drop (pa / 128) s)
    s.modDie (homeDie pa) fun d => { d with l2 := if drop then d.l2.filter fun l => l.1 ≠ pa / 128 else d.l2.map fun l => if l.1 = pa / 128 then (l.1, false) else l }

/-- A maintenance operation (R255): numbered on its counter, it cleans or removes the L1 lines of its range, and at level 2 the lines
of their home slices. -/
def maintain (l2 inval : Bool) (n a b : Nat) (s : State) : State :=
  let len := (s.reg b).toNat
  if 2 ^ 32 ≤ len then illegal .c03 s
  else
    let num := (s.tl n).count + 1
    ((rangeLines s (s.reg a).toNat len).foldl (fun s l => let s := cleanL1 inval l.1 s; if l2 then cleanL2 inval l.1 s else s) (takeNumber n s)).post
      .timelineMarkAdvance { unit := s.cur.core, k := n, n := num, v := s.task.id }

/-- `l2.wb.l1` (R255). -/
def execL2WbL1 (n a b : Nat) (s : State) : Host.Outcome State Fault Refusal := onStream s (reading [a, b] (maintain false false n a b))

/-- `l2.wb.l2` (R255). -/
def execL2WbL2 (n a b : Nat) (s : State) : Host.Outcome State Fault Refusal := onStream s (reading [a, b] (maintain true false n a b))

/-- `l2.inv.l1` (R255). -/
def execL2InvL1 (n a b : Nat) (s : State) : Host.Outcome State Fault Refusal := onStream s (reading [a, b] (maintain false true n a b))

/-- `l2.inv.l2` (R255). -/
def execL2InvL2 (n a b : Nat) (s : State) : Host.Outcome State Fault Refusal := onStream s (reading [a, b] (maintain true true n a b))

/-- A prefetch (R256): the lines of the range come into their home slices, and with `l1` into the executing L1, where their pages let
them. -/
def prefetch (l1 : Bool) (a b : Nat) (s : State) : State :=
  (rangeLines s (s.reg a).toNat ((s.reg b).toNat % 2 ^ 32)).foldl (fun s l => cached (l1 && fillsL1 l.2 0) (fillsL2 l.2 0) l.1 false s) s

/-- `l2.pf.l2` (R256). -/
def execL2PfL2 (a b : Nat) (s : State) : Host.Outcome State Fault Refusal := onStream s (reading [a, b] (prefetch false a b))

/-- `l2.pf.l1` (R256). -/
def execL2PfL1 (a b : Nat) (s : State) : Host.Outcome State Fault Refusal := onStream s (reading [a, b] (prefetch true a b))

/-! ### Armed actions (R220 to R222) -/

/-- An action armed (R220, R222): a full pool is an ordering fault. -/
def arm (n thr : Nat) (k : ArmKind) (s : State) : State :=
  if 32 ≤ s.task.armed.length then fault 0x0F 0x02 0 s
  else s.modTask fun t => { t with armed := t.armed ++ [{ tl := n, thr := thr, kind := k, late := decide (thr ≤ (s.tl n).mark), seq := t.c.seq }] }

/-- `fence.arm.sig` (R220). -/
def execFenceArmSig (n a b : Nat) (s : State) : Host.Outcome State Fault Refusal :=
  onStream s (reading [a, b] fun s =>
    let w := (s.reg b).toNat
    if fld w 25 16 = 0 ∨ fld w 15 6 ≠ 0 ∨ fld w 63 26 ≠ 0 then fault 0x0F 0x03 0 s else arm n (s.reg a).toNat (.sig (fld w 5 0) (fld w 25 16)) s)

/-- `fence.arm.trig` (R220). -/
def execFenceArmTrig (n a b : Nat) (s : State) : Host.Outcome State Fault Refusal :=
  onStream s (reading [a, b] fun s => arm n (s.reg a).toNat (.trig (s.reg b).toNat) s)

/-- `fence.arm.wr` (R101, R220): the page is checked and translated at arming, as a store's. -/
def execFenceArmWr (n a b : Nat) (s : State) : Host.Outcome State Fault Refusal :=
  onStream s (reading [a, b, b + 1] fun s =>
    let va := (s.reg b).toNat
    if va % 8 ≠ 0 then faultAfter 0x02 0 va s
    else withPage 1 va s fun p s =>
      match storePageFault p.pte with
      | some c => faultAfter c 0 va s
      | none => arm n (s.reg a).toNat (.wr p.pa (s.reg (b + 1)).toNat) s)

end Sys2Proof.Machine
end

