-- ==== Sys2Proof/Machine/Bank.lean ====
section
/-!
DEFINITION. Sys2Proof/Machine/Bank.lean: a memory channel's sequencer and bank units: banks and their timings, the bank
commands, results in flight, passes, and the checks of a table at its loading (R286 to R309, R321 to R325).
-/

namespace Sys2Proof.Machine

/-! ### Results in flight (R291) -/

/-- The values R288 gives a bank unit at a pass start. -/
def Bank.fresh (b : Bank) : Bank := { b with dot := 0x80000000, sk := false, a := [], w := .skip }

/-- What lands when a result of a bank command lands. -/
def landB (l : BLand) (c : Chan) : Chan :=
  match l with
  | .dot b v => c.modBank b fun x => { x with dot := v }
  | .sk b v => c.modBank b fun x => { x with sk := v }
  | .acc b l => c.modBank b fun x => { x with a := l.foldl (fun t e => tabSet 0 t e.1 e.2) x.a }
  | .weight b w => c.modBank b fun x => { x with w := w }
  | .query data sc => { c.modBanks fun x => { x with br := x.br.set 1 (BitVec.ofNat 256 (ofBytes sc)) } with q := data }
  | .br b i v => c.modBank b fun x => { x with br := x.br.set i v }
  | .emit j x f => c.modSlot j fun y => { y with pend := x, pfl := y.pfl ||| f }
  | .taken j => c.modSlot j fun y => { y with pend := none, pfl := 0 }
  | .slot j m s' st => c.modSlot j fun y => { y with m := m, s := s', st := st }
  | .out i l => { c with out := (l.zipIdx).foldl (fun t e => tabSet 0 t (i + e.2) e.1) c.out }
  | .cursor n => { c with cur := n }
  | .page b nul abs stl lim => c.modBank b fun x => { x with nul := nul, abs := abs, stl := stl, lim := lim }
  | .ptr w n => c.modWalk w fun x => { x with ptr := n }
  | .clear (some b) => (c.modBank b Bank.fresh).modSlot b fun _ => {}
  | .clear none => { c.modBanks Bank.fresh with ms := [] }
  | .flush => { c.modBanks fun x => { x with a := [], w := .skip } with ms := [] }

/-- Every result due by the channel's cycle lands: by due cycle, then in the order of issue (R291). -/
def Chan.landDue (c : Chan) : Chan :=
  let due := sortBy (fun a b => a.due < b.due || (a.due = b.due && a.seq ≤ b.seq)) (c.flights.filter fun f => f.due ≤ c.cyc)
  due.foldl (fun c f => landB f.land c) { c with flights := c.flights.filter fun f => !(f.due ≤ c.cyc) }

/-- A result of the executing command, due in n cycles. -/
def bland (n os bank : Nat) (l : BLand) (s : State) : State :=
  s.modCh' fun c => { c with flights := c.flights ++ [{ due := c.cyc + n, seq := c.seq, os := os, bank := bank, land := l }] }

/-! ### Numbering (R309) -/

/-- The counter an ordering stream of a channel is bound to. -/
def Chan.counter (c : Chan) (os : Nat) : Option Nat := if c.mask / 2 ^ os % 2 = 1 then some (c.ctr / 16 ^ os % 16) else none

/-- The task that started the channel's table, resident or saved. -/
def ownerOf (c : Chan) (s : State) : Option Task :=
  match (s.core c.owner).task with
  | some t => if t.id = c.task then some t else saved
  | none => saved
where
  /-- The task among the saved gangs. -/
  saved : Option Task := ((s.saved.flatMap (·.tasks)).find? fun x => x.task.id = c.task).map (·.task)

/-- The executing command is numbered: its own effect is complete in n cycles (R298, R309). -/
def bnumber (n os bank : Nat) (s : State) : State :=
  let c := s.curChan
  let tl := c.counter os
  let num := match tl, ownerOf c s with
    | some k, some t => (t.tls.getD k {}).count + 1
    | _, _ => 0
  let s := match tl with
    | some k => s.modTaskId c.owner c.task (fun t => { t with tls := t.tls.modify k fun x => { x with count := x.count + 1 } })
    | none => s
  s.modCh' fun c => { c with nums := c.nums ++ [{ os := os, tl := tl, num := num, due := c.cyc + n, seq := c.seq, bank := bank }] }

/-- The numbered commands that are complete by a cycle, in order within each ordering stream, and the others. -/
def splitNums (cyc : Nat) (l : List BNum) : List BNum × List BNum :=
  let r := l.foldl (fun (r : List BNum × List BNum) n =>
    if n.due ≤ cyc && !(r.2.any fun m => m.os = n.os) then (r.1 ++ [n], r.2) else (r.1, r.2 ++ [n])) ([], [])
  r

/-- A channel's completed commands move the marks of the task that started its table (R217, R309). -/
def settleNums (key : Nat) (s : State) : State :=
  let c := s.chan key
  let r := splitNums c.cyc c.nums
  r.1.foldl (fun s n => match n.tl with
    | some k => s.modTaskId c.owner c.task (fun t => { t with tls := t.tls.modify k fun x => x.complete n.num })
    | none => s) (s.modChan key fun c => { c with nums := r.2 })

/-! ### Reading rows (R293, R324) -/

/-- Bytes of a bank's row. -/
def rowBytes (s : State) (key b row o n : Nat) : List Nat :=
  (List.range n).map fun i => (Memory.get s.mem (chanLoc key (bankOff b row (o + i)))).toNat

/-- A column of a bank's row that a read touches is poisoned. -/
def rowPoisoned (s : State) (key b row o n : Nat) : Bool :=
  !s.poison.isEmpty && (List.range n).any fun i => s.poison.contains (.hbm (chanLoc key (bankOff b row (o + i)) / 32))

/-- A fault of a channel sequencer: a task stop of the starting task (R312, R324, R423). -/
def chanFault (r : Rec) (owner : Nat) (s : State) : State :=
  taskStop { r with agent := 10 } .stop { s with cur := { s.cur with core := owner } }

/-- The physical address of a channel-local offset (R234). -/
def chanAddr (s : State) (key off : Nat) : Nat :=
  let l := linGiB s (key / 512) (key % 512 / 32)
  let i := (64 - l) * 2 ^ 25
  let base := key / 512 * 2 ^ 45 + key % 512 / 32 * 2 ^ 36
  if off < i then base + off / 256 * 8192 + key % 32 * 256 + off % 256 else base + 32 * i + key % 32 * (l * 2 ^ 25) + (off - i)

/-- A bank unit's write is complete only when no L2 copy of its location is left but a pinned one (R229). -/
def dropCopies (key : Nat) (l : List Nat) (s : State) : State :=
  let pas := (l.map (chanAddr s key)).dedup
  pas.foldl (fun s pa => if (leaseSlice s pa).isSome || !l2Has s pa then s else s.modDie (homeDie pa) fun d => { d with l2 := d.l2.filter fun e => e.1 ≠ pa / 128 }) s

/-- A command that reads uncorrectable data (R324): it lands nothing, the table stops before its next word. -/
def bankLoss (loc b row col : Nat) (s : State) : State :=
  let c := s.curChan
  let key := s.cur.chan
  let s := (s.modCh' fun c => { c with live := false }).post .matinsTableStop { unit := key }
  chanFault { cls := 0x14, whn := c.num % 2 ^ 60 + c.tl * 2 ^ 60, addr := chanAddr s key (if loc = 5 then bankOff b row (32 * col) else 0), i0 := loc
              i1 := c.pass + c.widx * 2 ^ 32, i2 := b + row * 2 ^ 8 + col * 2 ^ 32 } c.owner s

/-- n bytes at byte o of the row a command names, for its access: zeros where R293 is not met; uncorrectable data stop the
table. The access counts for tCCD either way. -/
def withRow (b row o n : Nat) (f : List Nat → State → State) (s : State) : State :=
  let c := s.curChan
  let hit := (c.bank b).reached c.cyc row
  let s := s.modCh' fun c => c.modBank b fun x => { x with acc := some c.cyc }
  match hit with
  | none => f (List.replicate n 0) s
  | some r => match (List.range n).find? fun i => rowPoisoned s s.cur.chan b r (o + i) 1 with
    | some i => bankLoss 5 b r ((o + i) / 32) s
    | none => f (rowBytes s s.cur.chan b r o n) s

/-- Older values at device locations are seen no more: a bank command's write is performed for every agent at once. -/
def purgeLocs (l : List Nat) (s : State) : State :=
  if s.olds.isEmpty then s else { s with olds := s.olds.map fun e => { e with cells := e.cells.filter fun c => !l.contains (hbmLoc s (c.1 / 2 ^ 45) (c.1 % 2 ^ 45)) } }

/-- Bytes written to the row a command names (R306): discarded where R293 is not met. -/
def writeRow (b row o : Nat) (bytes : List Nat) (s : State) : State :=
  let c := s.curChan
  let key := s.cur.chan
  let hit := (c.bank b).reached c.cyc row
  let s := s.modCh' fun c => c.modBank b fun x => { x with acc := some c.cyc }
  match hit with
  | none => s
  | some r =>
    let at' (i : Nat) : Nat := chanLoc key (bankOff b r (o + i))
    let s := purgeLocs ((List.range bytes.length).map at') { s with mem := (bytes.zipIdx).foldl (fun m (e : Nat × Nat) => Memory.set m (at' e.2) (BitVec.ofNat 8 e.1)) s.mem }
    dropCopies key ((List.range (bytes.length / 32)).map fun i => bankOff b r (o + 32 * i))
      { s with poison := s.poison.filter fun p => match p with | .hbm x => !((List.range (bytes.length / 32)).any fun i => at' (32 * i) / 32 = x) | _ => true }

/-! ### Commands (R299 to R308) -/

/-- The shape of a bank command's meaning: its operands are in `bop`, its channel is the executing one. -/
def onBank (s : State) (f : BankOps → State → State) : Host.Outcome State Fault Refusal := .next (f s.bop s)

/-- `bnop` (R308). -/
def execBnop (s : State) : Host.Outcome State Fault Refusal := onBank s fun _ s => s

/-- `bact` (R293, R307). -/
def execBact (s : State) : Host.Outcome State Fault Refusal :=
  onBank s fun o s => countDie (dieOfChan s.cur.chan) 0x8D 1 <| bland 1 16 o.b (.page o.b false false false 4) (s.modCh' fun c => c.modBank o.b fun x => x.activate c.cyc o.r)

/-- `bpre` (R293). -/
def execBpre (s : State) : Host.Outcome State Fault Refusal :=
  onBank s fun o s => s.modCh' fun c => c.modBank o.b fun x => x.precharge c.cyc

/-- `bpra` (R293). -/
def execBpra (s : State) : Host.Outcome State Fault Refusal :=
  onBank s fun _ s => s.modCh' fun c => c.modBanks fun x => x.precharge c.cyc

/-- `bref` (R293). -/
def execBref (s : State) : Host.Outcome State Fault Refusal :=
  onBank s fun o s => countDie (dieOfChan s.cur.chan) 0x8D 2 (s.modCh' fun c => c.modBank o.b fun x => { x with ref := some c.cyc })

/-- A query slot: 512 data bytes and 32 scale bytes (R288). -/
def Chan.query (c : Chan) (i : Nat) : List Nat := (List.range 544).map fun k => (c.qs.getD i []).getD k 0

/-- A word of a channel's base-die arrays is poisoned; the model numbers them query slots, walk registers, output (log 22). -/
def basePoisoned (s : State) (key w n : Nat) : Bool :=
  !s.poison.isEmpty && s.poison.any fun p => match p with | .base c x => decide (c = key ∧ w ≤ x ∧ x < w + n) | _ => false

/-- `bqld` (R305). -/
def execBqld (s : State) : Host.Outcome State Fault Refusal :=
  onBank s fun o s =>
    let i := if o.q / 8 % 2 = 1 then (o.q % 8 + s.curChan.pass) % 8 else o.q % 8
    if basePoisoned s s.cur.chan (68 * i) 68 then bankLoss 6 0 0 0 s
    else
      let x := s.curChan.query i
      bland 4 16 64 (.query (x.take 512) (x.drop 512)) s

/-- The pairing of the channel's format (R299): codes 0x1 BF16, 0x7 INT8, 0xA LG6B. -/
def Chan.kind (c : Chan) : DotKind := if c.fmt = 1 then .bf16 else if c.fmt = 7 then .int8 else .lg6

/-- Word g of a bank register as a BSC20 scale (R38, R299). -/
def brScale (v : BitVec 256) (g : Nat) : FVal := bsc20Dec (v.toNat / 2 ^ (32 * g) % 2 ^ 20)

/-- The eight groups of `bdot` folded into a dot accumulator (R299). -/
def slotDot (c : Chan) (x : Bank) (h : Nat) (data : List Nat) (v : Nat) : Nat :=
  (List.range 8).foldl (fun acc g =>
    if c.fmt = 1 then
      (groupDot .bf16 acc ((wordsOf 2 16 (data.drop (32 * g))).zip (wordsOf 2 16 (c.q.drop (256 * h + 32 * g)))) (.num false 1 0) (.num false 1 0)).1
    else
      (groupDot c.kind acc (((data.drop (32 * g)).take 32).zip ((c.q.drop (32 * g)).take 32)) (brScale (x.br.getD 0 0) g) (brScale (x.br.getD 1 0) g)).1) v

/-- Token slot and half of a column field (R297). -/
def tokenOf (col : Nat) : Nat × Nat := (col / 8 % 4, col / 128 % 2)

/-- `bdot` (R299). -/
def execBdot (s : State) : Host.Outcome State Fault Refusal :=
  onBank s fun o s =>
    let th := tokenOf o.col
    let x := s.curChan.bank o.b
    if x.nul ∨ x.lim ≤ th.1 then bland 8 o.os o.b (.sk o.b true) (s.modCh' fun c => c.modBank o.b fun y => { y with acc := some c.cyc })
    else withRow o.b o.r (256 * th.1) 256 (fun data s => bland 8 o.os o.b (.dot o.b (slotDot s.curChan x th.2 data x.dot)) s) s

/-- `bemit` (R300). -/
def execBemit (s : State) : Host.Outcome State Fault Refusal :=
  onBank s fun o s =>
    let c := s.curChan
    let x := c.bank o.b
    let v := if x.sk then none else some (mul32 x.dot c.c).1
    let f := (if x.abs then 2 ^ 31 else 0) + (if x.stl then 2 ^ 30 else 0)
    let s := bland 1 o.os o.b (.sk o.b false) (bland 1 o.os o.b (.dot o.b 0x80000000) s)
    if o.col / 64 % 2 = 0 then bland 6 o.os o.b (.emit (o.col % 64) v f) s
    else if c.cur < 4096 then
      bnumber 6 o.os o.b (bland 1 o.os o.b (.cursor (c.cur + 1)) (bland 6 o.os o.b (.out c.cur [v.getD (qnan Machine.fp32)]) s))
    else bnumber 0 o.os o.b (s.modCh' fun c => { c with ovf := true })

/-- What `bwbc` makes of a slot (R301): weights, m, s, st. -/
def foldScore (y : Slot) : Weight × Nat × Nat × Nat :=
  let st := mergeStatus y.st y.pfl
  match y.pend with
  | none => (.skip, y.m, y.s, st)
  | some x =>
    let st := mergeStatus st 1
    let special (v : Nat) : Bool := (unpack Machine.fp32 v).isNan
    if y.m = negInf32 then (.replace, x, 0x3F800000, st)
    else if x = negInf32 then (.skip, y.m, y.s, st)
    else if special y.m || special x || y.m = 0x7F800000 || x = 0x7F800000 then (.nan, qnan Machine.fp32, qnan Machine.fp32, st)
    else
      let m := (maxNum32 y.m x).1
      let e1 := (exp2_32 (sub32 y.m m).1).1
      let e2 := (exp2_32 (sub32 x m).1).1
      (.scale e1 e2, m, (fma32 0x3F800000 e2 (mul32 y.s e1).1).1, st)

/-- `bwbc` (R301). -/
def execBwbc (s : State) : Host.Outcome State Fault Refusal :=
  onBank s fun o s =>
    let r := foldScore (s.curChan.slot o.b)
    bland 10 16 o.b (.weight o.b r.1) (bland 10 16 o.b (.slot o.b r.2.1 r.2.2.1 r.2.2.2) (bland 1 16 o.b (.taken o.b) s))

/-- The value elements of a token slot with their places (R302). -/
def valueElems (c : Chan) (x : Bank) (h : Nat) (data : List Nat) : List (Nat × Nat) :=
  if c.fmt = 1 then ((wordsOf 2 128 data).map fun w => (widenCvt .bf16 w).1).zipIdx.map fun e => (128 * h + e.2, e.1)
  else
    data.zipIdx.map fun e =>
      let v : FVal := if c.fmt = 7 then EFmt.int8.val e.1 else lg6Dec (e.1 % 64)
      (e.2, (pack Machine.fp32 false (scaledV v (brScale (x.br.getD 2 0) (e.2 / 32)))).1)

/-- One element of an accumulator vector under the weights (R302). -/
def weigh (w : Weight) (a v : Nat) : Nat :=
  match w with
  | .skip => a
  | .replace => v
  | .nan => qnan Machine.fp32
  | .scale e1 e2 => (fma32 v e2 (mul32 a e1).1).1

/-- `bwacc` (R302). -/
def execBwacc (s : State) : Host.Outcome State Fault Refusal :=
  onBank s fun o s =>
    let th := tokenOf o.col
    let c := s.curChan
    let x := c.bank o.b
    if x.nul ∨ x.lim ≤ th.1 then s.modCh' fun c => c.modBank o.b fun y => { y with acc := some c.cyc }
    else withRow o.b o.r (256 * th.1) 256 (fun data s =>
      bland 8 o.os o.b (.acc o.b (((valueElems c x th.2 data).filter fun e => e.1 < c.d).map fun e => (e.1, weigh x.w (tabGet 0 x.a e.1) e.2))) s) s

/-- The channel's triple (R303): its slots and bank units merged in order, all read now. -/
def channelTriple (c : Chan) : List Nat :=
  (List.range 64).foldl (fun t j =>
    let y := c.slot j
    let x := c.bank j
    (mergeTriple c.d t (y.m :: y.s :: (List.range c.d).map (tabGet 0 x.a) ++ [y.st])).1) (emptyPartial c.d)

/-- `bmx` (R303). -/
def execBmx (s : State) : Host.Outcome State Fault Refusal :=
  onBank s fun o s =>
    let c := s.curChan
    let s := bland 1 o.os 64 .flush s
    if c.cur + c.d + 3 ≤ 4096 then
      bnumber 80 o.os 64 (bland 1 o.os 64 (.cursor (c.cur + c.d + 3)) (bland 80 o.os 64 (.out c.cur (channelTriple c)) s))
    else bnumber 0 o.os 64 (s.modCh' fun c => { c with ovf := true })

/-- `bscl` (R305). -/
def execBscl (s : State) : Host.Outcome State Fault Refusal :=
  onBank s fun o s => withRow o.b o.r (32 * (o.col % 32)) 32
    (fun data s => bland 2 o.os o.b (.br o.b (o.col / 32 % 4) (BitVec.ofNat 256 (ofBytes data))) s) s

/-- `bclr` (R305). -/
def execBclr (s : State) : Host.Outcome State Fault Refusal :=
  onBank s fun o s => bland 1 16 (if o.all = 1 then 64 else o.b) (.clear (if o.all = 1 then none else some o.b)) s

/-- `bwr` (R306): complete when performed, in its own cycle. -/
def execBwr (s : State) : Host.Outcome State Fault Refusal :=
  onBank s fun o s => bnumber 0 o.os o.b (writeRow o.b o.r (32 * (o.col % 32)) (toBytes 32 (((s.curChan.bank o.b).br.getD 3 0).toNat)) s)

/-- `bwra` (R306). -/
def execBwra (s : State) : Host.Outcome State Fault Refusal :=
  onBank s fun o s => bnumber 0 o.os o.b (writeRow o.b o.r 0 (bytes32 ((List.range 256).map (tabGet 0 (s.curChan.bank o.b).a))) s)

/-- A walk entry (R307). -/
def Chan.entry (c : Chan) (wk : Nat) : Nat :=
  let w := c.walkReg (wk % 16)
  let i := w.ptr + wk / 16
  if w.len ≤ i then 2 ^ 31 else w.ent.getD i 0

/-- `bwact` (R307). -/
def execBwact (s : State) : Host.Outcome State Fault Refusal :=
  onBank s fun o s =>
    let c := s.curChan
    let i := (c.walkReg (o.wk % 16)).ptr + o.wk / 16
    if decide (i < (c.walkReg (o.wk % 16)).len) && basePoisoned s s.cur.chan (544 + 128 * (o.wk % 16) + i / 2) 1 then bankLoss 6 o.b 0 0 s
    else
      let e := c.entry o.wk
      let s := countDie (dieOfChan s.cur.chan) 0x8D 1 s
      if fld e 31 29 ≠ 0 then bland 1 16 o.b (.page o.b true (fld e 30 30 = 1) (fld e 29 29 = 1) (c.bank o.b).lim) s
      else
        bland 1 16 o.b (.page o.b false false false (min 4 (min (fld e 22 16) 64 - 4 * (o.b % 16)))) (s.modCh' fun c => c.modBank o.b fun x => x.activate c.cyc (fld e 14 0))

/-- `bwadv` (R307). -/
def execBwadv (s : State) : Host.Outcome State Fault Refusal :=
  onBank s fun o s => bland 1 16 64 (.ptr (o.wk % 16) (((s.curChan.walkReg (o.wk % 16)).ptr + o.wk / 16) % 65536)) s

/-- `bloop` (R308). -/
def execBloop (s : State) : Host.Outcome State Fault Refusal :=
  onBank s fun o s => s.modCh' fun c =>
    let r := loopCount (c.lp.getD o.lp (0, false)) o.cnt
    { c with lp := c.lp.set o.lp r.1, jump := if r.2 then some o.tgt else none }

/-- `bjmp` (R308). -/
def execBjmp (s : State) : Host.Outcome State Fault Refusal := onBank s fun o s => s.modCh' fun c => { c with jump := some o.tgt }

/-- `bsync` (R308): complete when everything of its ordering stream before it is. -/
def execBsync (s : State) : Host.Outcome State Fault Refusal :=
  onBank s fun o s =>
    let c := s.curChan
    let last := ((c.flights.filter fun f => f.os = o.os).map fun f => f.due - c.cyc).foldl max 0
    bnumber last o.os 64 s

/-- `bend` (R290): the pass ends; after a short one the channel closes and refreshes every bank in a gap of 200 cycles. -/
def endPass (w : Nat) (s : State) : State :=
  let c := s.curChan
  let len := c.cyc - c.base + 1 + w
  let short : Bool := decide (len ≤ 3120)
  let s := s.modCh' fun c =>
    let c := { c with live := false, widx := 0, pass := (c.pass + 1) % 65536, round := (c.round + 1) % 2 ^ 32, next := c.base + len + (if short then 200 else 0) }
    if short then { c.modBanks Bank.close with sim := [] } else c
  s.post (if s.curChan.pass < c.passes then .matinsPassStart else .matinsTableStop) { unit := s.cur.chan }

/-- `bend` (R308). -/
def execBend (s : State) : Host.Outcome State Fault Refusal := onBank s fun o s => endPass o.w s

/-! ### The sequencer (R290 to R292) -/

/-- The word has issued: the next one, the round and the completed numbers (R290, R292). -/
def endWord (w : Nat) (s : State) : State :=
  let key := s.cur.chan
  let s := s.modCh' fun c =>
    let c := { c with seq := c.seq + 1 }
    if c.live then
      let i := c.jump.getD (c.widx + 1)
      { c with widx := i, jump := none, next := c.cyc + 1 + w, round := if i ≤ c.widx then (c.round + 1) % 2 ^ 32 else c.round }
    else { c with jump := none }
  settleNums key s

/-- The sequencer comes to its next word: due results land in its cycle. None where no word may issue. -/
def beginWord (key : Nat) (s : State) : Option (Instr × State) :=
  let c := s.chan key
  if c.state = 2 && c.live && !c.held then
    let s := settleNums key (s.modChan key fun c => { c with cyc := c.next }.landDue)
    let c := s.chan key
    match decodeBank (c.table.getD c.widx 0) with
    | .ok (i, o) => some (i, { countDie (dieOfChan key) 0x8E 1 (s.modChan key fun c => (c.simWord i o).draw c.cyc (unitsOfWord i)) with cur := { s.cur with chan := key }, bop := o })
    | .error _ => none
  else none

/-- The per-pass resets (R288). -/
def Chan.passStart (c : Chan) : Chan :=
  { c.modBanks Bank.fresh with ms := [], wk := c.wk.map fun w => { w with ptr := 0 }, widx := 0, lp := List.replicate 4 (0, false), base := c.next, live := true }

/-- MATINS_PASS_START (R288, R290, R291): results due by the cycle of word 0 land, then the resets; a held table waits (R325). Reads
`arg.unit`. -/
def passStart (key : Nat) (s : State) : State :=
  let c := s.chan key
  if c.state ≠ 2 ∨ c.live then s
  else if c.held then s.post .matinsPassStart { unit := key }
  else settleNums key (s.modChan key fun c => ({ c with cyc := c.next }.landDue).passStart)

/-- MATINS_PASS_START (R290). -/
def execMatinsPassStart (s : State) : Host.Outcome State Fault Refusal := onEvent s fun s => passStart s.arg.unit s

/-- The table stops (R290, R324): every result in flight has landed and every numbered command is complete; a held one waits (R325). -/
def tableStop (key : Nat) (s : State) : State :=
  let c := s.chan key
  if c.state ≠ 2 ∨ c.live then s
  else if c.held then s.post .matinsTableStop { unit := key }
  else
    let last := (c.flights.map (·.due) ++ c.nums.map (·.due)).foldl max c.cyc
    let s := settleNums key (s.modChan key fun c => { c with cyc := last }.landDue)
    s.modChan key fun c => { c.modBanks Bank.close with state := 1, widx := 0, mask := 0, sim := [], drawn := [] }

/-- MATINS_TABLE_STOP (R290). Reads `arg.unit`. -/
def execMatinsTableStop (s : State) : Host.Outcome State Fault Refusal := onEvent s fun s => tableStop s.arg.unit s

/-- `mcst` (R296). -/
def Chan.mcst (c : Chan) : Nat :=
  let bit (b : Bool) (n : Nat) : Nat := if b then 2 ^ n else 0
  c.state * 2 ^ 62 + bit c.held 61 + c.pass * 2 ^ 32 + (if c.state = 2 then c.widx % 1024 else 0) * 2 ^ 22 + c.lres * 2 ^ 18 + c.lidx * 2 ^ 8 +
  bit c.late 7 + bit c.ovf 6 + bit c.thr 5

/-! ### Loading (R294, R295) -/

/-- The simulated pass of a schedule check: cycle, word, loop counters, banks, recent and early activations, the first cycle
that breaks the refresh rule whatever the length, the first that breaks it in a long pass, the first over the budget. -/
structure Sim where
  cyc : Nat := 0
  idx : Nat := 0
  lp : List (Nat × Bool) := [(0, false), (0, false), (0, false), (0, false)]
  banks : Tab Bank := []
  refs : Tab (Option Nat) := []
  win : List (Nat × Nat) := []
  early : List (Nat × Nat) := []
  badR : Option Nat := none
  badL : Option Nat := none
  badA : Option Nat := none
  len : Option Nat := none
  deriving DecidableEq, Repr

/-- The lesser of two cycles, where either may be absent. -/
def firstOf (a b : Option Nat) : Option Nat :=
  match a, b with
  | some x, some y => some (min x y)
  | some x, none => some x
  | none, y => y

/-- Activation units at a cycle: a window of 64 cycles holds at most 16 (R295). -/
def Sim.units (t : Sim) (k n : Nat) : Sim :=
  let win := (t.win.filter fun e => k < e.1 + 64) ++ [(k, n)]
  { t with win := win, early := if k < 63 then t.early ++ [(k, n)] else t.early
           badA := if t.badA.isNone && decide (16 < (win.map Prod.snd).sum) then some k else t.badA }

/-- A command reaches a bank (R295). -/
def Sim.reach (t : Sim) (b : Nat) : Sim :=
  match (tabGet {} t.banks b : Bank).ref with
  | some r => if t.cyc < r + 160 then { t with badR := firstOf t.badR (some t.cyc) } else t
  | none => t

/-- A bank of the simulated pass changed. -/
def Sim.mod (t : Sim) (b : Nat) (f : Bank → Bank) : Sim := { t with banks := tabSet {} t.banks b (f (tabGet {} t.banks b)) }

/-- A refresh of the simulated pass (R295): its bank precharged for 12 cycles; the limits of a long pass. -/
def Sim.refresh (t : Sim) (b : Nat) : Sim :=
  let x : Bank := tabGet {} t.banks b
  let closed : Bool := match x.row, x.pre with | none, _ => true | some _, some p => decide (p + 12 ≤ t.cyc) | some _, none => false
  let gap := match (tabGet none t.refs b : Option Nat) with
    | none => if 3120 < t.cyc then some 3121 else none
    | some r => if r + 6240 < t.cyc then some (r + 6241) else none
  { (t.mod b fun x => { x with ref := some t.cyc }) with
      badR := if closed then t.badR else firstOf t.badR (some t.cyc), badL := firstOf t.badL gap, refs := tabSet none t.refs b (some t.cyc) }

/-- One word of the simulated pass. -/
def Sim.word (t : Sim) (i : Instr) (o : BankOps) : Sim :=
  let on (t : Sim) : Sim := { t with idx := t.idx + 1, cyc := t.cyc + 1 + o.w }
  match i with
  | .bact | .bwact => on (((t.reach o.b).units t.cyc 1).mod o.b fun x => x.activate t.cyc 0)
  | .bpre => on ((t.reach o.b).mod o.b fun x => x.precharge t.cyc)
  | .bpra => on ((List.range 64).foldl (fun t' b => (t'.reach b).mod b fun x => x.precharge t.cyc) t)
  | .bref => on (((t.reach o.b).units t.cyc 2).refresh o.b)
  | .bdot | .bwacc | .bscl | .bwr | .bwra => on (t.reach o.b)
  | .bloop =>
    let r := loopCount (t.lp.getD o.lp (0, false)) o.cnt
    { t with lp := t.lp.set o.lp r.1, idx := if r.2 then o.tgt else t.idx + 1, cyc := t.cyc + 1 + o.w }
  | .bjmp => { t with idx := o.tgt, cyc := t.cyc + 1 + o.w }
  | .bend => { t with len := some (t.cyc + 1 + o.w) }
  | _ => on t

/-- The simulated pass, up to its end, a cycle, or 2^24 cycles. -/
def simGo (table : List (Instr × BankOps)) (stop : Nat) : Nat → Sim → Sim
  | 0, t => t
  | n + 1, t =>
    if stop ≤ t.cyc ∨ t.len.isSome then t
    else match table[t.idx]? with
      | none => t
      | some (i, o) => simGo table stop n (t.word i o)

/-- The word issued at or most recently before a cycle of the simulated pass. -/
def wordAt (table : List (Instr × BankOps)) (k : Nat) : Nat → Nat → Sim → Nat
  | 0, last, _ => last
  | n + 1, last, t =>
    if k < t.cyc ∨ t.len.isSome then last
    else match table[t.idx]? with
      | none => last
      | some (i, o) => wordAt table k n t.idx (t.word i o)

/-- The refresh rule at the end of a pass longer than 3,120 cycles (R295): the first cycle that breaks it. -/
def Sim.longEnd (t : Sim) (len : Nat) : Option Nat :=
  (List.range 64).foldl (fun x b => firstOf x (match (tabGet none t.refs b : Option Nat) with
    | none => some 3121
    | some r => if r + 3120 < len then some len else none)) t.badL

/-- The schedule checks (R294, R295): reason and failing cycle. -/
def scheduleCheck (table : List (Instr × BankOps)) : Option (Nat × Nat) :=
  let t := simGo table (2 ^ 24) (2 ^ 24) {}
  match t.len with
  | none => some (0x07, t.cyc)
  | some len =>
    let long : Bool := decide (3120 < len)
    match firstOf t.badR (if long then t.longEnd len else none) with
    | some k => some (0x03, k)
    | none =>
      match t.badA with
      | some k => some (0x04, k)
      | none =>
        if long then (t.early.foldl (fun (x : Sim) e => x.units (len + e.1) e.2) t).badA.map fun k => (0x04, k - len)
        else none

/-- The word checks of one word (R294): the lowest reason that it breaks; the sequence numbers used so far. -/
def wordReason (n : Nat) (seqs : Tab Nat) (w : Nat) : Option Nat × Tab Nat :=
  match decodeBank w with
  | .error .unassigned => (some 0x01, seqs)
  | .error .reserved => (some 0x02, seqs)
  | .ok (i, o) =>
    let used := match i with | .bdot | .bemit | .bwacc | .bwr | .bwra | .bscl | .bsync | .bmx => true | _ => false
    let r := if used && decide (o.sq < tabGet 0 seqs o.os) then some 0x05
      else match i with
        | .bloop => if n ≤ o.tgt ∨ o.cnt = 0 then some 0x06 else none
        | .bjmp => if n ≤ o.tgt then some 0x06 else none
        | _ => none
    (r, if used then tabSet 0 seqs o.os (o.sq + 1) else seqs)

/-- The first word that fails its checks, with its reason (R294). -/
def wordsReason (n : Nat) : Nat → Tab Nat → List Nat → Option (Nat × Nat)
  | _, _, [] => none
  | i, seqs, w :: t =>
    match wordReason n seqs w with
    | (some r, _) => some (r, i)
    | (none, s') => wordsReason n (i + 1) s' t

/-- The result of offering words to a channel (R294): reason and word index. -/
def loadResult (c : Chan) (ws : List Nat) : Nat × Nat :=
  if c.state = 3 then (0x0A, 0)
  else if c.state = 2 then (0x09, 0)
  else if ws = [] ∨ 1024 < ws.length then (0x08, 0)
  else match wordsReason ws.length 0 [] ws with
    | some e => e
    | none =>
      let table := ws.filterMap fun w => match decodeBank w with | .ok x => some x | .error _ => none
      match scheduleCheck table with
      | some (r, k) => (r, wordAt table k (2 ^ 24) 0 {})
      | none => (0, 0)

/-- Words offered to a channel (R294): accepted, they become its table; the result stands in `mcst`. -/
def loadTable (key : Nat) (ws : List Nat) (s : State) : State :=
  let r := loadResult (s.chan key) ws
  s.modChan key fun c =>
    let c := { c with lres := r.1, lidx := r.2 }
    if r.1 = 0 then { c with table := ws, state := 1 } else c

/-! ### Retired channels (R323) -/

/-- One word of a retired channel's table: its output words and numbers stand in for the command's. -/
def ghostWord (key : Nat) (i : Instr) (o : BankOps) (s : State) : State :=
  let s := { s with cur := { s.cur with chan := key } }
  let c := s.chan key
  let s := match i with
    | .bmx =>
      let s := if c.cur + c.d + 3 ≤ 4096 then s.modCh' fun c => landB (.out c.cur ((emptyPartial c.d).set (c.d + 2) (2 ^ 31))) { c with cur := c.cur + c.d + 3 } else s
      bnumber 0 o.os 64 s
    | .bemit =>
      if o.col / 64 % 2 = 1 then
        bnumber 0 o.os o.b (if c.cur < 4096 then s.modCh' fun c => landB (.out c.cur [qnan Machine.fp32]) { c with cur := c.cur + 1 } else s)
      else s
    | .bwr | .bwra => bnumber 0 o.os o.b s
    | .bsync => bnumber 0 o.os 64 s
    | .bloop =>
      s.modCh' fun c =>
        let r := loopCount (c.lp.getD o.lp (0, false)) o.cnt
        { c with lp := c.lp.set o.lp r.1, jump := if r.2 then some o.tgt else none }
    | .bjmp => s.modCh' fun c => { c with jump := some o.tgt }
    | _ => s
  let s := s.modCh' fun c => { c with cyc := c.cyc + 1 + o.w, widx := c.jump.getD (c.widx + 1), jump := none }
  match i with
  | .bend => s.modCh' fun c => { c with pass := (c.pass + 1) % 65536, widx := 0, lp := List.replicate 4 (0, false) }
  | _ => s

/-- The rest of a retired channel's passes (R323). -/
def ghostRun (key : Nat) : Nat → State → State
  | 0, s => s
  | n + 1, s =>
    let c := s.chan key
    if c.passes ≤ c.pass then s
    else match decodeBank (c.table.getD c.widx 0) with
      | .ok (i, o) => ghostRun key n (ghostWord key i o s)
      | .error _ => s

/-- What a retired channel makes of a result in flight (R323): output words not written yet get their stand-ins, the cursor moves,
nothing else lands. -/
def ghostFlight (c : Chan) (f : BFlight) : Chan :=
  match f.land with
  | .out i l => landB (.out i (if l.length = 1 then [qnan Machine.fp32] else (emptyPartial c.d).set (c.d + 2) (2 ^ 31))) c
  | .cursor n => { c with cur := n }
  | _ => c

/-- A retired channel treats its started table (R323): every output, those in flight too, and every number stood in for, and the
table is over. -/
def ghostTable (key : Nat) (s : State) : State :=
  let s := s.modChan key fun c => { (c.flights.foldl ghostFlight c) with flights := [], live := false, nums := c.nums.map fun n => { n with due := 0 } }
  let s := settleNums key (ghostRun key (2 ^ 40) s)
  s.modChan key fun c => { c.modBanks Bank.close with state := 3, nums := [], mask := 0, sim := [], drawn := [] }

end Sys2Proof.Machine
end

