-- ==== Sys2Proof/Machine/Near.lean ====
section
/-!
DEFINITION. Sys2Proof/Machine/Near.lean: the C stream's near-memory instructions and what becomes of them (R310 to R318), and
the completion of numbered operations (R217).
-/

namespace Sys2Proof.Machine

/-! ### Control blocks (R311, R312, R315 to R317) -/

/-- Partitions of a package (R386). -/
def partCount (s : State) (pkg : Nat) : Nat := 2 ^ (s.pkg pkg).ptMode

/-- The partition of a die of a package (R386). -/
def partOfDie (s : State) (pkg die : Nat) : Nat := die / (8 / partCount s pkg)

/-- A channel of the executing task's package lies in its partition (R289). -/
def chanMine (s : State) (mc : Nat) : Bool :=
  decide (mc < 512) && partOfDie s (pkgOf s.cur.core) (mc / 64) = partOfDie s (pkgOf s.cur.core) (s.cur.core % 4096 / 512)

/-- The channels of a range (R311): none where it is empty, too long, or leaves the partition. -/
def chanRange (s : State) (w : Nat) : Option (List Nat) :=
  let f := fld w 8 0
  let n := fld w 25 16
  let l := (List.range n).map (f + ·)
  if n = 0 ∨ 512 < f + n ∨ !l.all (chanMine s) then none else some l

/-- An operand of a block (R263, R311): reason 0x01, reason 0x04, or its kind and address. -/
def nmOperand (w al : Nat) : Except Nat (Nat × Nat) :=
  let k := fld w 57 56
  if fld w 63 58 ≠ 0 ∨ (k = 1 ∧ fld w 55 19 ≠ 0) then .error 0x01
  else if 2 ≤ k then .error 0x04
  else
    let a := if k = 0 then fld w 55 0 else fld w 18 0
    if a % al ≠ 0 then .error 0x04 else .ok (k, a)

/-- The first reason among conditions in order. -/
def firstReason (l : List (Nat × Bool)) : Option Nat := (l.find? fun e => e.2).map Prod.fst

/-- The reasons of a block double-word by double-word (R311); kind 0 start, 1 collect, 2 broadcast, 3 walk. -/
def nmReason (s : State) (kind : Nat) (blk : List Nat) : Option Nat :=
  let dw (k : Nat) : Nat := blk.getD k 0
  let rest (n : Nat) : Option Nat := if (blk.drop n).any (· ≠ 0) then some 0x01 else none
  let opnd (k al : Nat) : Option Nat := match nmOperand (dw k) al with | .error r => some r | .ok _ => none
  let range := firstReason [(0x01, decide (fld (dw 0) 15 9 ≠ 0 ∨ fld (dw 0) 63 26 ≠ 0)), (0x02, (chanRange s (dw 0)).isNone)]
  match kind with
  | 0 => firstOf' range [firstReason [(0x01, decide (fld (dw 2) 31 20 ≠ 0 ∨ fld (dw 2) 63 41 ≠ 0)),
        (0x03, decide (fld (dw 2) 15 0 = 0 ∨ ¬ (fld (dw 2) 19 16 = 1 ∨ fld (dw 2) 19 16 = 7 ∨ fld (dw 2) 19 16 = 0xA) ∨ fld (dw 2) 40 32 = 0 ∨ 256 < fld (dw 2) 40 32))],
      firstReason [(0x01, decide (fld (dw 3) 63 32 ≠ 0))], firstReason [(0x01, decide (fld (dw 4) 63 16 ≠ 0))], rest 6]
  | 1 => firstOf' range [firstReason [(0x01, decide (fld (dw 1) 31 12 ≠ 0 ∨ fld (dw 1) 63 45 ≠ 0)),
        (0x03, decide (fld (dw 1) 44 32 = 0 ∨ 4096 < fld (dw 1) 44 32 ∨ 4096 < fld (dw 1) 11 0 + fld (dw 1) 44 32))], opnd 2 4, rest 3]
  | 2 => firstOf' range [opnd 1 32, firstReason [(0x01, decide (fld (dw 2) 7 3 ≠ 0 ∨ fld (dw 2) 63 9 ≠ 0))], rest 3]
  | _ => firstOf' (firstReason [(0x01, decide (fld (dw 0) 15 9 ≠ 0 ∨ fld (dw 0) 31 20 ≠ 0 ∨ fld (dw 0) 63 41 ≠ 0)),
        (0x02, !chanMine s (fld (dw 0) 8 0)), (0x03, decide (256 < fld (dw 0) 40 32))]) [opnd 1 4, rest 2]
where
  /-- The first of several results. -/
  firstOf' (a : Option Nat) (l : List (Option Nat)) : Option Nat := (a :: l).findSome? id

/-- The operand of a block that reaches memory or the scratchpad: its double-word and its length in bytes. -/
def nmSpan (kind : Nat) (blk : List Nat) : Nat × Nat :=
  match kind with
  | 1 => (blk.getD 2 0, 4 * fld (blk.getD 1 0) 44 32 * fld (blk.getD 0 0) 25 16)
  | 2 => (blk.getD 1 0, if fld (blk.getD 2 0) 8 8 = 1 then 544 else 512)
  | 3 => (blk.getD 1 0, 4 * fld (blk.getD 0 0) 40 32)
  | _ => (0, 0)

/-- A near-memory descriptor fault (R311). -/
def nmFault (reason : Nat) : State → State := fault 0x06 reason 0

/-- The checks at issue that the block forms share (R311). -/
def withNmBlock (kind a : Nat) (f : List Nat → State → State) (s : State) : State :=
  let za := (s.reg a).toNat
  if fld za 63 19 ≠ 0 then nmFault 0x01 s
  else withBlock (fld za 18 0) (fun blk s =>
    match nmReason s kind blk with
    | some r => nmFault r s
    | none =>
      let sp := nmSpan kind blk
      if sp.2 ≠ 0 ∧ fld sp.1 57 56 = 1 ∧ s.task.spadBytes < fld sp.1 18 0 + sp.2 then fault 0x07 0 (fld sp.1 18 0) s else f blk s) s

/-- The key of a channel of the executing task's package. -/
def chanKey (s : State) (mc : Nat) : Nat := pkgOf s.cur.core * 512 + mc

/-- A block form accepted (R311): it takes its number and waits. -/
def nmAccept (kind tl : Nat) (blk : List Nat) (left : List Nat) (s : State) : State :=
  let num := (s.tl tl).count + 1
  (takeNumber tl s).modTask fun t => { t with nms := t.nms ++ [{ kind := kind, tl := tl, num := num, blk := blk, left := left, seq := t.c.seq }] }

/-! ### `nm.start` (R312) -/

/-- The values R288 gives a channel at `nm.start`. -/
def Chan.started (c : Chan) (blk : List Nat) (owner task tl num : Nat) : Chan :=
  { c.modBanks (fun x => { x.close with nul := false, abs := false, stl := false, lim := 4, br := [0, 0, 0, 0] }) with
    state := 2, cur := 0, lp := List.replicate 4 (0, false), round := 0, fmt := fld (blk.getD 2 0) 19 16, d := fld (blk.getD 2 0) 40 32
    c := fld (blk.getD 3 0) 31 0, q := List.replicate 512 0, pass := 0, widx := 0, late := false, ovf := false, thr := false, flights := [], nums := []
    cyc := 0, base := 0, next := 0, iced := [], passes := fld (blk.getD 2 0) 15 0, jump := none, live := false, owner := owner, task := task, sim := [], drawn := []
    mask := fld (blk.getD 4 0) 15 0, ctr := blk.getD 5 0, tl := tl, num := num }

/-- One channel of the set (R312, R323): started, treated as retired, or a task stop, which comes at the sequencer's place (R422). -/
def startChan (blk : List Nat) (tl num mc : Nat) (s : State) : State :=
  let key := chanKey s mc
  let c := s.chan key
  let failed (reason : Nat) : State :=
    s.post .nmTableStart { unit := s.cur.core, k := tl, n := num, j := reason * 512 + mc, v := s.task.id, flag := false }
  if c.state = 3 then
    if c.table = [] then failed 0x11
    else
      let cur := s.cur
      { ghostTable key (s.modChan key fun c => { c.started blk s.cur.core s.task.id tl num with state := 3 }) with cur := cur }
  else if c.state = 0 then failed 0x11
  else if c.state = 2 ∨ c.held then failed 0x12
  else (s.modChan key fun c => c.started blk s.cur.core s.task.id tl num).post .nmTableStart { unit := key }

/-- `nm.start` (R312): complete when every channel has issued word 0, failed to start or been treated as retired. -/
def nmStart (tl : Nat) (blk : List Nat) (s : State) : State :=
  let chans := (chanRange s (blk.getD 0 0)).getD []
  let num := (s.tl tl).count + 1
  let going := chans.filter fun mc => (s.chan (chanKey s mc)).state = 1
  let s := nmAccept 0 tl blk (going.map (chanKey s)) s
  let s := chans.foldl (fun s mc => startChan blk tl num mc s) s
  if going = [] then s.post .timelineMarkAdvance { unit := s.cur.core, k := tl, n := num, v := s.task.id } else s

/-- `nm.start` (R312). -/
def execNmStart (n a : Nat) (s : State) : Host.Outcome State Fault Refusal := onStream s (reading [a] (withNmBlock 0 a (nmStart n)))

/-- A C stream's accesses before a number are performed (R230, R270). -/
def performedBefore (t : Task) (seq : Nat) : Bool :=
  (t.c.sbuf.all fun e => decide (seq ≤ e.seq)) && t.c.flights.all fun f => f.req.isNone || decide (seq ≤ f.seq)

/-- An `nm.qbc` or `nm.walk` of a task still has to write a channel (R312). -/
def writesChan (key : Nat) (o : NmOp) : Bool :=
  let mc := key % 512
  let w := o.blk.getD 0 0
  (o.kind = 2 && decide (fld w 8 0 ≤ mc ∧ mc < fld w 8 0 + fld w 25 16)) || (o.kind = 3 && fld w 8 0 = mc)

/-- NM_TABLE_START (R312): word 0 may issue at the tick, the release performed, earlier broadcasts and walk fills written; a table whose
task is away waits for it (R325). Reads `arg.unit`. -/
def tableStart (key : Nat) (s : State) : State :=
  let c := s.chan key
  let s := s.at c.owner .c
  let t := s.task
  if c.held || !s.resident || t.id ≠ c.task then (if c.state = 2 then s.post .nmTableStart { unit := key } else s)
  else match t.nms.find? fun o => o.kind = 0 && o.left.contains key with
  | none => s
  | some o =>
    let earlier := t.nms.takeWhile (· ≠ o)
    let T := o.blk.getD 1 0
    if c.state = 2 ∧ ¬ c.live ∧ ¬ (T ≤ s.tick ∧ performedBefore t o.seq ∧ ¬ earlier.any (writesChan key)) then s.post .nmTableStart { unit := key }
    else
      let s := if c.state = 2 then (s.modChan key fun c => { c with late := decide (T < s.tick) }).post .matinsPassStart { unit := key } else s
      let left := o.left.filter (· ≠ key)
      let s := s.modTask fun t => { t with nms := t.nms.map fun x => if x = o then { x with left := left } else x }
      if left = [] then s.post .timelineMarkAdvance { unit := s.cur.core, k := o.tl, n := o.num, v := t.id } else s

/-- A channel could not start (R312, R423): the task stop of its record. -/
def startFails (a : Args) (s : State) : State :=
  let t := s.at a.unit .c
  if !t.resident || t.task.id ≠ a.v then s
  else chanFault { cls := 0x15, reason := a.j / 512, whn := a.n % 2 ^ 60 + a.k * 2 ^ 60, i0 := a.j % 512 } a.unit s

/-- NM_TABLE_START (R312). Reads `arg.unit` (channel), or with `arg.flag` false, of a channel that could not start, `arg.unit` (core), `arg.k`
(counter), `arg.n` (number), `arg.j` (reason × 512 + channel), `arg.v` (`taskid`). -/
def execNmTableStart (s : State) : Host.Outcome State Fault Refusal :=
  onEvent s fun s => if s.arg.flag then tableStart s.arg.unit s else startFails s.arg s

/-! ### Collecting, broadcasting, filling (R315 to R317) -/

/-- The shape of a block form whose work is done after issue. -/
def nmExec (kind n a : Nat) (s : State) : Host.Outcome State Fault Refusal :=
  onStream s (reading [a] (withNmBlock kind a fun blk s =>
    (nmAccept kind n blk [] s).post .timelineMarkAdvance { unit := s.cur.core, k := n, n := (s.tl n).count + 1, v := s.task.id }))

/-- `nm.coll` (R315). -/
def execNmColl (n a : Nat) (s : State) : Host.Outcome State Fault Refusal := nmExec 1 n a s

/-- `nm.qbc` (R316). -/
def execNmQbc (n a : Nat) (s : State) : Host.Outcome State Fault Refusal := nmExec 2 n a s

/-- `nm.walk` (R317). -/
def execNmWalk (n a : Nat) (s : State) : Host.Outcome State Fault Refusal := nmExec 3 n a s

/-- The address of an operand of kind 0 or 1. -/
def operandAddr (w : Nat) : Nat := if fld w 57 56 = 0 then fld w 55 0 else fld w 18 0

/-- The words an `nm.coll` collects (R315). -/
def collected (s : State) (blk : List Nat) : List Nat :=
  let off := fld (blk.getD 1 0) 11 0
  let l := fld (blk.getD 1 0) 44 32
  ((chanRange s (blk.getD 0 0)).getD []).flatMap fun mc => (List.range l).map fun w => tabGet 0 (s.chan (chanKey s mc)).out (off + w)

/-- The place of the first poisoned word among those that an `nm.coll` collects. -/
def collPoisoned (s : State) (blk : List Nat) : Option Nat :=
  if s.poison.isEmpty then none
  else
    let off := fld (blk.getD 1 0) 11 0
    let l := fld (blk.getD 1 0) 44 32
    (((chanRange s (blk.getD 0 0)).getD []).flatMap fun mc => (List.range l).map fun w => (mc, w)).findIdx? fun e =>
      basePoisoned s (chanKey s e.1) (544 + 2048 + (off + e.2) / 2) 1

/-- A fault in the work of a block form (R274, R311): a replayable one halts it, any other is a task stop. -/
def nmWorkFault (o : NmOp) (x : Stop) (s : State) : State :=
  let r : Rec := { cls := x.cls, reason := x.reason, agent := 10, flags := (if x.cls = 0x0B then 1 else 0), whn := o.num % 2 ^ 60 + o.tl * 2 ^ 60, addr := x.addr,
                   i0 := if x.cls = 0x0B then 7 else if x.cls = 0x14 then (if x.unreach then 8 else x.loc) else 0, i1 := x.level }
  if x.cls = 0x0B then
    let seq := recSeq s (pkgOf s.cur.core) s.task.ctx
    (reportTask r s).modTask fun t => { t with nms := t.nms.map fun y => if y = o then { y with pf := some seq } else y }
  else taskStop r .stop s

/-! ### Fences, ratio and status (R313, R314, R318) -/

/-- The commands of a channel that a fence waits for (R313): those issued before a count, of one bank or of all. -/
def fenceOpen (c : Chan) (n : Nat) (bank : Option Nat) : Bool :=
  let mine (b : Nat) : Bool := match bank with | some x => b = x | none => true
  (c.flights.any fun f => decide (f.seq < n) && mine f.bank) || c.nums.any fun m => decide (m.seq < n) && mine m.bank

/-- `nm.fence` after its translation (R313): the stream's stores, then the commands issued before they were performed; their writes
are seen by every agent as they take effect. -/
def fenceAt' (all : Bool) (va pa : Nat) (s : State) : State :=
  let pkg := pkgOf s.cur.core
  if pa / 2 ^ 45 ≠ pkg ∨ hbmTop ≤ pa % 2 ^ 45 then
    takeFault { cls := 0x06, reason := 0x05, addr := va } .stop s
  else
    let loc := hbmLoc s pkg (pa % 2 ^ 45) % 2 ^ 45
    let key := pkg * 512 + loc / 2 ^ 36 * 32 + loc / 2 ^ 31 % 32
    let bank := if all then none else some (loc % 2 ^ 31 / 1024 % 64)
    if s.str.phase = 0 ∧ !s.str.sbuf.isEmpty then freezeAfter 0x9 s
    else
      let n := if s.str.phase = 0 then (s.chan key).seq else s.str.phase - 1
      if (s.chan key).state ≠ 3 ∧ fenceOpen (s.chan key) n bank then freezeAfter 0x9 (s.modStr fun x => { x with phase := n + 1 })
      else s

/-- The shape of `nm.fence`'s meaning: the address is translated and its page checked as a load's (R124, R313). -/
def nmFence (all : Bool) (a : Nat) (s : State) : Host.Outcome State Fault Refusal :=
  onStream s (reading [a] fun s => withPage 0 (s.reg a).toNat s fun p s =>
    if pteCmp p.pte then takeFault { cls := 0x03, addr := (s.reg a).toNat } .stop s
    else if pteCf p.pte then nmFaultAfter s else fenceAt' all (s.reg a).toNat p.pa s)
where
  /-- A constant-fill page is no location of the package's HBM (R313). -/
  nmFaultAfter (s : State) : State := takeFault { cls := 0x06, reason := 0x05, addr := (s.reg a).toNat } .stop s

/-- `nm.fence.bank` (R313). -/
def execNmFenceBank (a : Nat) (s : State) : Host.Outcome State Fault Refusal := nmFence false a s

/-- `nm.fence.chan` (R313). -/
def execNmFenceChan (a : Nat) (s : State) : Host.Outcome State Fault Refusal := nmFence true a s

/-- `nm.ratio` (R314). -/
def execNmRatio (d a : Nat) (s : State) : Host.Outcome State Fault Refusal :=
  onStream s (reading [a] fun s => result 14 (.regs [(d, BitVec.ofNat 64 ((s.reg a).toNat % 2 ^ 32 * min s.task.nmr 64 / 64))]) 0 s)

/-- `nm.stat` (R318). -/
def execNmStat (d a : Nat) (s : State) : Host.Outcome State Fault Refusal :=
  onStream s (reading [a] fun s =>
    let mc := (s.reg a).toNat % 512
    landReply d (if chanMine s mc then (s.chan (chanKey s mc)).mcst else 0) s)

end Sys2Proof.Machine
end

