-- ==== Sys2Proof/Machine/Kv.lean ====
section
/-!
DEFINITION. Sys2Proof/Machine/Kv.lean: the page manager: pairs and free lists, sequences and their position maps, and the `kv`
instructions with the operations they ask for (R326 to R349).
-/

namespace Sys2Proof.Machine

/-! ### Pairs (R326 to R328, R331) -/

/-- The name of a pair in its holder's table. -/
def pairKey (mc p : Nat) : Nat := mc * 2 ^ 17 + p

/-- A pair's reference count, kept by its holder (R328). -/
def pairCount (s : State) (pkg mc p : Nat) : Nat := tabGet 0 (s.pkg pkg).pairs (pairKey mc p)

/-- A pair's count changed. A pair of count 0 in a linear part of a live channel is in the free list (R327, R328). -/
def setPair (pkg mc p n : Nat) (s : State) : State := s.modPkg pkg fun x => { x with pairs := tabSet 0 x.pairs (pairKey mc p) n }

/-- First frame of a channel's linear part, and the pairs it holds (R234, R326). -/
def linPairs (s : State) (pkg mc : Nat) : Nat × Nat :=
  let l := linGiB s pkg (mc / 32)
  ((64 - l) * 2 ^ 11, l * 2 ^ 10)

/-- The frames of a channel with a count. -/
def heldFrames (s : State) (pkg mc : Nat) : List Nat :=
  ((s.pkg pkg).pairs.filter fun e => e.1 / 2 ^ 17 = mc).map fun e => e.1 % 2 ^ 17

/-- Free pairs of a channel (R327): none while the manager is off or the channel is retired. -/
def freePairs (s : State) (pkg mc : Nat) : Nat :=
  if !(s.pkg pkg).kvEn || (s.chan (pkg * 512 + mc)).state = 3 then 0
  else
    let l := linPairs s pkg mc
    l.2 - ((heldFrames s pkg mc).filter fun p => l.1 ≤ p).length

/-- Free pairs of a package (R327). -/
def freeTotal (s : State) (pkg : Nat) : Nat := ((List.range 512).map (freePairs s pkg)).sum

/-- The lowest frame from p on that is not held. -/
def lowestFree (held : List Nat) : Nat → Nat → Nat
  | 0, p => p
  | n + 1, p => if held.contains p then lowestFree held n (p + 2) else p

/-- A pair taken from a package (R331): in the named channel, or in the channel with the most free pairs, the lowest among
equals; the lowest free frame. -/
def takePair (pkg : Nat) (mc : Option Nat) (s : State) : Option ((Nat × Nat) × State) :=
  let best := match mc with
    | some m => m
    | none => (List.range 512).foldl (fun b m => if freePairs s pkg b < freePairs s pkg m then m else b) 0
  if freePairs s pkg best = 0 then none
  else
    let held := heldFrames s pkg best
    let p := lowestFree held held.length (linPairs s pkg best).1
    some ((best, p), countPkg pkg 0xD2 1 (setPair pkg best p 1 s))

/-- A pair's count lowered by one (R328). -/
def dropPair (pkg mc p : Nat) (s : State) : State := setPair pkg mc p (pairCount s pkg mc p - 1) s

/-- The device location of byte 0 of a frame's page (R326). -/
def pageLoc (pkg mc p : Nat) : Nat := chanLoc (pkg * 512 + mc) (p * 16384)

/-- n bytes of memory moved between device locations, with their poison; no agent sees older ones at the destination (R208). -/
def moveBytes (src dst n : Nat) (s : State) : State :=
  let cells := s.mem.filter fun c => src ≤ c.1 ∧ c.1 < src + n
  let rest := s.mem.filter fun c => !(dst ≤ c.1 && c.1 < dst + n)
  let bad := s.poison.filterMap fun p => match p with
    | .hbm c => if src ≤ 32 * c ∧ 32 * c < src + n then some (ErrLoc.hbm (c - src / 32 + dst / 32)) else none
    | _ => none
  { s with
    olds := s.olds.map fun e => { e with cells := e.cells.filter fun c => let a := hbmLoc s (c.1 / 2 ^ 45) (c.1 % 2 ^ 45); !(decide (dst ≤ a) && decide (a < dst + n)) }
    mem := cells.foldl (fun m c => Memory.set m (c.1 - src + dst) c.2) rest
    poison := (s.poison.filter fun p => match p with | .hbm c => !(dst ≤ 32 * c && 32 * c < dst + n) | _ => true) ++ bad }

/-! ### Sequences (R329, R330, R332) -/

/-- The home package of a sequence ID (R329). -/
def seqHome (id : Nat) : Nat := fld id 28 16

/-- A sequence by its ID; none where its home holds none (R329). -/
def State.seq (s : State) (id : Nat) : Option KvSeq :=
  if fld id 31 29 ≠ 0 then none else ((s.pkg (seqHome id)).seqs.find? fun e => e.1 = id % 2 ^ 16).map Prod.snd

/-- A sequence put back. -/
def setSeq (id : Nat) (q : KvSeq) (s : State) : State :=
  s.modPkg (seqHome id) fun p => { p with seqs := p.seqs.map fun e => if e.1 = id % 2 ^ 16 then (e.1, q) else e }

/-- The sink entries of a sequence (R330). -/
def KvSeq.sinks (q : KvSeq) : Nat := (q.sink + 63) / 64

/-- The entries of a sequence (R329). -/
def KvSeq.size (q : KvSeq) : Nat := q.sinks + q.win

/-- A map entry. -/
def KvSeq.ent (q : KvSeq) (e : Nat) : KvEnt := tabGet {} q.ents e

/-- A map entry set. -/
def KvSeq.setEnt (q : KvSeq) (e : Nat) (x : KvEnt) : KvSeq := { q with ents := tabSet {} q.ents e x }

/-- Where a position lies: entry, token, wrap (R330). -/
def KvSeq.place (q : KvSeq) (p : Nat) : Nat × Nat × Nat :=
  if p < q.sink then (p / 64, p % 64, 0)
  else
    let k := p - q.sink
    let slot := k % (64 * q.win)
    (q.sinks + slot / 64, slot % 64, k / (64 * q.win) % 65536)

/-- The start of an entry for a wrap (R330). -/
def KvSeq.start (q : KvSeq) (e w : Nat) : Nat := if e < q.sinks then 64 * e else q.sink + 64 * q.win * w + 64 * (e - q.sinks)

/-- A map entry's 16 bytes (R332). -/
def KvEnt.bytes (x : KvEnt) : List Nat :=
  toBytes 8 (x.wgen * 2 ^ 48 + x.mgen * 2 ^ 32) ++
  toBytes 8 (x.pkg * 2 ^ 51 + x.chan * 2 ^ 42 + x.frame * 2 ^ 25 + x.state * 2 ^ 23 + x.fill * 2 ^ 16)

/-- The physical address of an entry in the map area (R339). -/
def KvSeq.entPa (q : KvSeq) (e : Nat) : Nat :=
  let va := q.area + 16 * e
  q.frames.getD (va / 2 ^ 16 - q.area / 2 ^ 16) 0 + va % 2 ^ 16

/-- Entries written into the map area, each in one write (R332). -/
def writeEnts (q : KvSeq) (l : List Nat) (s : State) : State :=
  l.foldl (fun s e => storeCells s (cellsOf (q.entPa e) 16 (ofBytes (q.ent e).bytes))) s

/-- A sequence put back with its map area brought up to date; plans bound to another generation become stale (R372). -/
def putSeq (id : Nat) (q : KvSeq) (l : List Nat) (s : State) : State := stalePlans id q.gen (writeEnts q l (setSeq id q s))

/-- The holder of an entry (R331). -/
def KvSeq.holder (q : KvSeq) (e : Nat) : Nat := q.holders.getD (e % q.holders.length) 0

/-! ### Issue (R335 to R337) -/

/-- A `kv` operation sent (R335): its result waits for the page manager's reply. -/
def kvSend (ins : Instr) (d za zb : Nat) (blk : List Nat) (frames : Option (List Nat)) (remote : Nat) (s : State) : State :=
  let x := s.str
  let pkg := pkgOf s.cur.core
  let id := (s.pkg pkg).kvNext
  let op : KvOp := { ins := ins, za := za, zb := zb, blk := blk, core := s.cur.core, task := s.task.id, fseq := x.seq, seq := x.seq, remote := remote, org := s.org, frames := frames }
  let s := s.modStr fun x => { x with flights := x.flights ++ [{ due := x.cyc + s.task.lat 4, iss := x.cyc, seq := x.seq, land := .regs [(d, 0)], wait := 3 }], seq := x.seq + 1 }
  ((s.modPkg pkg fun p => { p with kvOps := p.kvOps ++ [(id, op)], kvNext := id + 1 }).modCore s.cur.core fun c => { c with remote := c.remote + remote }).post
    .kvOperationComplete { unit := pkg, n := id }

/-- The homes other than the executing package, each one unplanned request (R329, R341); too many freeze the stream. What a list of
more homes than a core may have requests asks of the rest goes out as the first are answered. -/
def kvIssueWith (frames : Option (List Nat)) (ins : Instr) (d za zb : Nat) (blk : List Nat) (homes : List Nat) (s : State) : State :=
  let r := min 64 (homes.filter fun h => h ≠ pkgOf s.cur.core).dedup.length
  if 64 < s.curCore.remote + r then freezeBefore 0x5 s else kvSend ins d za zb blk frames r s

/-- The issue of an operation that needs no frames. -/
def kvIssue (ins : Instr) (d za zb : Nat) (blk : List Nat) (homes : List Nat) (s : State) : State := kvIssueWith none ins d za zb blk homes s

/-- The checks of a block form (R337). -/
def withKvBlock (a : Nat) (f : List Nat → State → State) (s : State) : State :=
  let za := (s.reg a).toNat
  if fld za 63 19 ≠ 0 then nmFault 0x01 s else withBlock (fld za 18 0) f s

/-- A block form whose sequence ID stands in double-word 0 (R337). -/
def kvBlockExec (ins : Instr) (d a : Nat) (s : State) : Host.Outcome State Fault Refusal :=
  onStream s (reading [a] (withKvBlock a fun blk s => kvIssue ins d (s.reg a).toNat 0 blk [seqHome (blk.getD 0 0 % 2 ^ 32)] s))

/-- A form whose sequence ID stands in a register. -/
def kvIdExec (ins : Instr) (d a b : Nat) (s : State) : Host.Outcome State Fault Refusal :=
  onStream s (reading [a, b] fun s => kvIssue ins d (s.reg a).toNat (s.reg b).toNat [] [seqHome ((s.reg a).toNat % 2 ^ 32)] s)

/-- The frames of a map area (R339): none where a page is refused. -/
def areaFrames (s : State) (core ctx va n : Nat) : Option (List Nat) :=
  (List.range ((va + n - 1) / 2 ^ 16 - va / 2 ^ 16 + 1)).mapM fun i =>
    match coreXlate s core ctx ((va / 2 ^ 16 + i) * 2 ^ 16) with
    | .error _ => none
    | .ok p =>
      if pteCf p.pte || !pteW p.pte || pteCmp p.pte || pteBo p.pte || p.pa / 2 ^ 45 ≠ pkgOf core || hbmTop ≤ p.pa % 2 ^ 45 then none else some p.pa

/-- `kv.alloc` (R339): the pages of its map area are translated at issue. -/
def execKvAlloc (d a : Nat) (s : State) : Host.Outcome State Fault Refusal :=
  onStream s (reading [a] (withKvBlock a fun blk s =>
    kvIssueWith (areaFrames s s.cur.core s.task.ctx (fld (blk.getD 1 0) 55 0) (16 * ((fld (blk.getD 0 0) 12 0 + 63) / 64 + fld (blk.getD 0 0) 47 32)))
      (.kvAlloc d a) d (s.reg a).toNat 0 blk [] s))

/-- `kv.free` (R340). -/
def execKvFree (d a : Nat) (s : State) : Host.Outcome State Fault Refusal := kvIdExec (.kvFree d a) d a 0 s

/-- `kv.app` (R341). -/
def execKvApp (d a b : Nat) (s : State) : Host.Outcome State Fault Refusal :=
  onStream s (reading [a, b] fun s =>
    let za := (s.reg a).toNat
    let zb := (s.reg b).toNat
    let n := zb % 2048
    let at' := fld za 18 0
    if fld za 63 19 ≠ 0 ∨ 2048 ≤ zb ∨ n = 0 ∨ 1024 < n then nmFault 0x01 s
    else if at' % 8 ≠ 0 then fault 0x02 0 at' s
    else if s.task.spadBytes < at' + 8 * n then fault 0x07 0 at' s
    else if spadPoisoned s at' (8 * n) then dataLoss 3 at' s
    else
      let l := wordsOf 8 n (s.curCore.spadBytes at' (8 * n))
      kvIssue (.kvApp d a b) d za zb l (l.map fun w => seqHome (w % 2 ^ 32)) s)

/-- The kind, address and rules of a `kv.map` destination (R342): none where a field rule is broken. -/
def mapDest (w al : Nat) : Option (Nat × Nat) :=
  match nmOperand w al with | .ok x => some x | .error _ => none

/-- The block rules of `kv.map` (R342). -/
def mapBlockOk (blk : List Nat) : Bool :=
  let dw (k : Nat) : Nat := blk.getD k 0
  let walk := fld (dw 0) 32 32 = 1
  fld (dw 0) 33 33 = 0 && fld (dw 0) 46 35 = 0 && fld (dw 1) 63 40 = 0 && fld (dw 2) 63 40 = 0 && fld (dw 3) 15 13 = 0 && fld (dw 3) 30 25 = 0 &&
  fld (dw 3) 63 32 = 0 && fld (dw 5) 63 13 = 0 && decide (1 ≤ dw 5 ∧ dw 5 ≤ 4096) && dw 6 = 0 && dw 7 = 0 && (mapDest (dw 4) (if walk then 4 else 16)).isSome

/-- The pages of a range in ascending order: entry, wrap, start (R342). -/
def pagesGo (q : KvSeq) (p1 : Nat) : Nat → Nat → List (Nat × Nat × Nat)
  | 0, _ => []
  | n + 1, p =>
    if p1 ≤ p then []
    else
      let x := q.place p
      let next := if p < q.sink then min (p / 64 * 64 + 64) q.sink else p - x.2.1 + 64
      (x.1, x.2.2, p) :: pagesGo q p1 n next

/-- What `kv.map` writes for a page (R342): the bytes, or nothing. -/
def mapPage (q : KvSeq) (blk : List Nat) (x : Nat × Nat × Nat) : Option (List Nat) :=
  let dw (k : Nat) : Nat := blk.getD k 0
  let e := q.ent x.1
  if fld (dw 0) 32 32 = 0 then some e.bytes
  else
    let all := fld (dw 3) 31 31 = 1
    if e.state = 2 ∨ e.state = 3 then (if all then some (toBytes 4 (2 ^ 30)) else none)
    else if e.state = 0 then (if all then some (toBytes 4 (2 ^ 31)) else none)
    else if e.wgen ≠ x.2.1 then (if all then some (toBytes 4 (2 ^ 29)) else none)
    else if e.pkg = fld (dw 3) 12 0 ∧ e.chan = fld (dw 3) 24 16 ∧ e.frame % 4 = 2 * fld (dw 0) 34 34 then
      some (toBytes 4 (min e.fill (dw 2 - q.start x.1 x.2.1) * 2 ^ 16 + e.frame / 4))
    else none

/-- What `kv.map` answers before it writes (R342): a status, or the bytes and their count. -/
def mapResult (s : State) (blk : List Nat) (lim : Nat) : Nat × List (List Nat) :=
  let dw (k : Nat) : Nat := blk.getD k 0
  let id := dw 0 % 2 ^ 32
  if !mapBlockOk blk then (0x06, [])
  else if !(s.pkg (seqHome id)).kvEn then (0x0C, [])
  else match s.seq id with
    | none => (0x02, [])
    | some q =>
      let p0 := dw 1
      let p1 := dw 2
      let x := q.place p0
      if p1 < p0 ∨ q.n < p1 ∨ ¬ (p0 = 0 ∨ p0 = q.start x.1 x.2.2) then (0x03, [])
      else if fld (dw 0) 47 47 = 1 ∧ fld (dw 0) 63 48 ≠ q.gen then (0x04, [])
      else
        let out := (pagesGo q p1 ((p1 - p0) / 64 + q.sinks + 2) p0).filterMap (mapPage q blk)
        let bytes := (out.map List.length).sum
        if dw 5 < out.length then (0x06, [])
        else if fld (dw 4) 57 56 = 1 ∧ bytes ≠ 0 ∧ lim < fld (dw 4) 18 0 + bytes then (0x06, [])
        else (0, out)

/-- `kv.map` (R342): the pages of a kind 0 destination are checked as a store's before it is sent. -/
def execKvMap (d a : Nat) (s : State) : Host.Outcome State Fault Refusal :=
  onStream s (reading [a] (withKvBlock a fun blk s =>
    let r := mapResult s blk s.task.spadBytes
    let n := (r.2.map List.length).sum
    let w := blk.getD 4 0
    let send := kvIssue (.kvMap d a) d (s.reg a).toNat 0 blk [seqHome (blk.getD 0 0 % 2 ^ 32)]
    if r.1 = 0 ∧ fld w 57 56 = 0 ∧ n ≠ 0 then withPages 1 storePageFault send (pagesOf (fld w 55 0) n) s else send s))

/-- `kv.share` (R347). -/
def execKvShare (d a : Nat) (s : State) : Host.Outcome State Fault Refusal := kvBlockExec (.kvShare d a) d a s

/-- `kv.move` (R344). -/
def execKvMove (d a : Nat) (s : State) : Host.Outcome State Fault Refusal := kvBlockExec (.kvMove d a) d a s

/-- `kv.stat.len` (R343). -/
def execKvStatLen (d a : Nat) (s : State) : Host.Outcome State Fault Refusal := kvIdExec (.kvStatLen d a) d a 0 s

/-- `kv.stat.gen` (R343). -/
def execKvStatGen (d a : Nat) (s : State) : Host.Outcome State Fault Refusal := kvIdExec (.kvStatGen d a) d a 0 s

/-- `kv.stat.free` (R343): it reads the executing package. -/
def execKvStatFree (d a : Nat) (s : State) : Host.Outcome State Fault Refusal :=
  onStream s (reading [a] fun s => kvIssue (.kvStatFree d a) d 0 0 [] [] s)

/-- `kv.gen` (R346). -/
def execKvGen (d a b : Nat) (s : State) : Host.Outcome State Fault Refusal := kvIdExec (.kvGen d a b) d a b s

/-! ### Operations of the page manager -/

/-- A free sequence slot of a package; which one is open (log 4). -/
def freeSlot (s : State) (pkg : Nat) : Option Nat :=
  let used := (s.pkg pkg).seqs.map Prod.fst
  let n := Config.freeChoice s.nfree % 65536
  let rec go : Nat → Nat → Option Nat
    | 0, _ => none
    | k + 1, x => if used.contains x then go k ((x + 1) % 65536) else some x
  if 65536 ≤ used.length then none else go (used.length + 1) n

/-- `kv.alloc` at its home (R339): the result with the state after it. -/
def kvAlloc (pkg : Nat) (blk : List Nat) (frames : Option (List Nat)) (s : State) : Nat × State :=
  let dw (k : Nat) : Nat := blk.getD k 0
  let S := fld (dw 0) 12 0
  let W := fld (dw 0) 47 32
  let nh := fld (dw 2) 3 0
  let hs := (List.range 8).map fun i => fld (dw (3 + i / 4)) (16 * (i % 4) + 15) (16 * (i % 4))
  let bad := fld (dw 0) 31 13 ≠ 0 ∨ fld (dw 0) 63 48 ≠ 0 ∨ fld (dw 1) 63 56 ≠ 0 ∨ fld (dw 2) 63 4 ≠ 0 ∨ 4096 < S ∨ W = 0 ∨
    32768 < W ∨ nh = 0 ∨ 8 < nh ∨ fld (dw 1) 55 0 % 64 ≠ 0 ∨ (hs.take nh).any (fun h => decide (8192 ≤ h)) ∨ (hs.drop nh).any (fun h => decide (h ≠ 0))
  if !(s.pkg pkg).kvEn then (0x0C, s)
  else if bad then (0x06, s)
  else match frames with
    | none => (0x06, s)
    | some fr => match freeSlot s pkg with
      | none => (0x05, s)
      | some slot =>
        let q : KvSeq := { sink := S, win := W, holders := hs.take nh, area := fld (dw 1) 55 0, frames := fr }
        let id := pkg * 2 ^ 16 + slot
        let s := { s.modPkg pkg fun p => { p with seqs := p.seqs ++ [(slot, q)] } with nfree := s.nfree + 1 }
        (id * 2 ^ 32, writeEnts q (List.range q.size) s)

/-- Every pair of a sequence's entries loses one (R340). -/
def dropSeq (q : KvSeq) (s : State) : State :=
  q.ents.foldl (fun s e => if e.2.state = 0 then s else dropPair e.2.pkg e.2.chan e.2.frame s) s

/-- `kv.free` (R340). -/
def kvFree (id : Nat) (s : State) : Nat × State :=
  match s.seq id with
  | none => (0x02, s)
  | some q => (0, (dropSeq q s).modPkg (seqHome id) fun p => { p with seqs := p.seqs.filter fun e => e.1 ≠ id % 2 ^ 16 })

/-- One position appended (R341): none where a holder has no pair. -/
def appendPos (q : KvSeq) (p : Nat) (s : State) : Option (KvSeq × Nat × State) :=
  let x := q.place p
  let e := q.ent x.1
  if x.2.1 = 0 ∨ e.state = 0 then
    let fresh := { e with wgen := x.2.2, fill := x.2.1 + 1 }
    if e.state = 0 ∨ 1 < pairCount s e.pkg e.chan e.frame then
      let h := q.holder x.1
      match takePair h none s with
      | none => none
      | some ((mc, f), s) =>
        let s := if e.state = 0 then s else dropPair e.pkg e.chan e.frame s
        some (q.setEnt x.1 { fresh with pkg := h, chan := mc, frame := f, state := 1 }, x.1, s)
    else some (q.setEnt x.1 fresh, x.1, s)
  else some (q.setEnt x.1 { e with fill := x.2.1 + 1 }, x.1, s)

/-- n positions appended from p on (R341), with the entries changed. -/
def appendGo : Nat → Nat → KvSeq → List Nat → State → Option (KvSeq × List Nat × State)
  | 0, _, q, l, s => some (q, l, s)
  | n + 1, p, q, l, s =>
    match appendPos q p s with
    | none => none
    | some (q, e, s) => appendGo n (p + 1) q (if l.contains e then l else l ++ [e]) s

/-- One entry of an append list at its home (R341): status, whether the free list ran dry, the state. -/
def appendEntry (w : Nat) (dry : Bool) (s : State) : Nat × Bool × State :=
  let id := w % 2 ^ 32
  let c := fld w 44 32
  if !(s.pkg (seqHome id)).kvEn then (0x0C, dry, s)
  else if dry then (0x01, dry, s)
  else if fld w 55 45 ≠ 0 ∨ c = 0 ∨ 4096 < c then (0x06, dry, s)
  else match s.seq id with
    | none => (0x02, dry, s)
    | some q =>
      if 64 * q.win < c then (0x06, dry, s)
      else if q.sink + 64 * q.win * 65536 < q.n + c then (0x07, dry, s)
      else match appendGo c q.n q [] s with
        | none => (0x01, true, s)
        | some (q', l, s') => (0, dry, putSeq id { q' with n := q.n + c } l s')

/-- `kv.move` (R344). `ok` says that no chunk of its copy failed a fourth send. -/
def kvMove (blk : List Nat) (ok : Bool) (s : State) : Nat × State :=
  let dw (k : Nat) : Nat := blk.getD k 0
  let id := dw 0
  let e := dw 1
  if 2 ^ 32 ≤ id ∨ 2 ^ 32 ≤ e ∨ fld (dw 2) 15 13 ≠ 0 ∨ fld (dw 2) 30 25 ≠ 0 ∨ 2 ^ 32 ≤ dw 2 ∨ (blk.drop 3).any (· ≠ 0) then (0x06, s)
  else if !(s.pkg (seqHome id)).kvEn then (0x0C, s)
  else match s.seq id with
    | none => (0x02, s)
    | some q =>
      if q.size ≤ e then (0x06, s)
      else
        let x := q.ent e
        let g := (q.gen + 1) % 65536
        let tp := fld (dw 2) 12 0
        if x.state = 0 ∨ x.state = 3 then (0x08, s)
        else match takePair tp (if fld (dw 2) 31 31 = 1 then none else some (fld (dw 2) 24 16)) s with
          | none => (0x01, s)
          | some ((mc, f), s') =>
            if x.state = 1 then
              if !ok then (0x0A, s)
              else
                let s' := moveBytes (pageLoc x.pkg x.chan x.frame) (pageLoc tp mc f) 32768 s'
                (0, dropPair x.pkg x.chan x.frame (putSeq id { q.setEnt e { x with pkg := tp, chan := mc, frame := f, mgen := g } with gen := g } [e] s'))
            else (0, dropPair x.pkg x.chan x.frame (putSeq id { q.setEnt e { x with pkg := tp, chan := mc, frame := f, state := 3, mgen := g } with gen := g } [e] s'))

/-- `kv.gen` (R346). -/
def kvGen (id e : Nat) (s : State) : Nat × State :=
  match s.seq id with
  | none => (0x02, s)
  | some q =>
    let g := (q.gen + 1) % 65536
    if e = 0xFFFFFFFF then (g * 2 ^ 16, putSeq id { q with gen := g } [] s)
    else
      let e := e % 2 ^ 32
      let x := q.ent e
      if q.size ≤ e ∨ x.state ≠ 3 then (0x08 + q.gen * 2 ^ 16, s)
      else (g * 2 ^ 16, putSeq id { q.setEnt e { x with state := 1, mgen := g } with gen := g } [e] s)

/-- One entry shared whole (R347): the pair's count rises. -/
def shareEnt (x : KvEnt) (s : State) : State := setPair x.pkg x.chan x.frame (pairCount s x.pkg x.chan x.frame + 1) s

/-- `kv.share` (R347). -/
def kvShare (blk : List Nat) (ok : Bool) (s : State) : Nat × State :=
  let dw (k : Nat) : Nat := blk.getD k 0
  let new := dw 0
  let src := dw 1
  let L := dw 2
  if 2 ^ 32 ≤ new ∨ 2 ^ 32 ≤ src ∨ 2 ^ 40 ≤ L ∨ (blk.drop 3).any (· ≠ 0) then (0x06, s)
  else if !(s.pkg (seqHome new)).kvEn then (0x0C, s)
  else if seqHome new ≠ seqHome src then (0x02, s)
  else match s.seq new, s.seq src with
    | some q, some r =>
      if q.n ≠ 0 ∨ q.sink ≠ r.sink ∨ q.win ≠ r.win then (0x09, s)
      else if L = 0 ∨ r.n < L ∨ r.sink + 64 * r.win < L then (0x03, s)
      else
        let pages := pagesGo r L (L / 64 + r.sinks + 2) 0
        let full (x : Nat × Nat × Nat) : Bool := decide (min (x.2.2 + 64) (if x.2.2 < r.sink then r.sink else x.2.2 + 64) ≤ L)
        let whole := pages.filter full
        let part := pages.filter fun x => !full x
        if pages.any fun x => (r.ent x.1).state ≠ 1 then (0x08, s)
        else if whole.any fun x => pairCount s (r.ent x.1).pkg (r.ent x.1).chan (r.ent x.1).frame = 65535 then (0x08, s)
        else
          let s1 := whole.foldl (fun s x => shareEnt (r.ent x.1) s) s
          let q1 := whole.foldl (fun q x => q.setEnt x.1 { r.ent x.1 with mgen := 0 }) q
          match part with
          | [] => (0, putSeq new { q1 with n := L } (pages.map Prod.fst) s1)
          | x :: _ =>
            let h := q.holder x.1
            match takePair h none s1 with
            | none => (0x01, s)
            | some ((mc, f), s2) =>
              if !ok then (0x0A, s)
              else
                let y := r.ent x.1
                let k := L - x.2.2
                let s2 := moveBytes (pageLoc y.pkg y.chan y.frame) (pageLoc h mc f) (256 * k) s2
                let s2 := moveBytes (pageLoc y.pkg y.chan (y.frame + 1)) (pageLoc h mc (f + 1)) (256 * k) s2
                let q2 := { q1.setEnt x.1 { pkg := h, chan := mc, frame := f, state := 1, fill := k } with n := L }
                (0, putSeq new q2 (pages.map Prod.fst) s2)
    | _, _ => (0x02, s)

/-- `kv.stat.gen`'s value (R343). -/
def KvSeq.genWord (q : KvSeq) : Nat := q.gen + (q.ents.filter fun e => e.2.state = 2 ∨ e.2.state = 3).length * 2 ^ 16

/-- The issuing task is still there: its writes and its result are not dropped (R335). -/
def kvAlive (op : KvOp) (s : State) : Bool := match (s.core op.core).task with | some t => t.id = op.task | none => false

/-- The issuing task is saved with its gang (R335, R342). -/
def kvAway (op : KvOp) (s : State) : Bool := s.saved.any fun g => g.tasks.any fun x => x.task.id = op.task

/-- Bytes written into the issuing task's scratchpad, or into what is saved of it; none for a task that has ended (R335). -/
def kvSpad (op : KvOp) (l : List (Nat × Byte)) (s : State) : State :=
  if kvAlive op s then s.modCore op.core fun c => c.spadWrite l
  else { s with saved := s.saved.map fun g => { g with tasks := g.tasks.map fun x =>
      if x.task.id = op.task then { x with spad := l.foldl (fun m e => spadPut m e.1 e.2) x.spad } else x } }

/-- A page of a `kv.map` fails when its writes come (R342): the C stream stops as for a store; a replayable fault runs the
operation again from its start, any other leaves it without a result. -/
def kvMapStops (pkg id : Nat) (op : KvOp) (x : Stop) (s : State) : State :=
  let s := s.at op.core .c
  let seq := recSeq s pkg s.task.ctx
  let put (f : List (Nat × KvOp) → List (Nat × KvOp)) (s : State) : State := s.modPkg pkg fun p => { p with kvOps := f p.kvOps }
  if x.cls = 0x0B then put (·.map fun e => if e.1 = id then (id, { op with pf := some seq }) else e)
    (takeFaultOf op.org { cls := 0x0B, reason := x.reason, addr := x.addr, i0 := 1, i1 := x.level } .retry s)
  else put (·.filter fun e => e.1 ≠ id) (takeFaultOf op.org { cls := x.cls, addr := x.addr } .never s)

/-! ### Append lists (R341) -/

/-- The entries of an append list without a status, with their places. -/
def KvOp.open' (op : KvOp) : List (Nat × Nat) := (op.blk.zipIdx).filter fun e => (op.stats.getD e.2 none).isNone

/-- The home of a list entry. -/
def entHome (w : Nat) : Nat := seqHome (w % 2 ^ 32)

/-- Entry i of a list has its status. -/
def KvOp.done (op : KvOp) (i st : Nat) : KvOp := { op with stats := (op.stats ++ List.replicate (op.blk.length - op.stats.length) none).set i (some st) }

/-- One entry of an append list taken at its home (R334, R341): the first that is left of one of the homes that the package reaches;
which home is open, as the homes work independently (log 4). None where no such entry is left. -/
def appendStep (pkg : Nat) (op : KvOp) (s : State) : Option (KvOp × State) :=
  let homes := ((op.open'.map fun e => entHome e.1).dedup).filter fun h => reachable s pkg (h * 2 ^ 45)
  match homes[Config.freeChoice s.nfree % homes.length]? with
  | none => none
  | some h => match op.open'.find? fun e => entHome e.1 = h with
    | none => none
    | some (w, i) =>
      let r := appendEntry w (op.dry.contains h) { s with nfree := s.nfree + 1 }
      some ({ op.done i r.1 with dry := if r.2.1 && !op.dry.contains h then h :: op.dry else op.dry }, r.2.2)

/-- An append list whose every entry has its status (R341): its result, with the statuses written into the list. -/
def appendEnd (op : KvOp) (s : State) : Nat × State :=
  let st := op.stats.map (·.getD 0)
  let s := kvSpad op ((st.zipIdx).map fun e => (fld op.za 18 0 + 8 * e.2 + 7, BitVec.ofNat 8 e.1)) s
  ((st.filter (· = 0)).length + (st.find? (· ≠ 0)).getD 0 * 2 ^ 56, s)

/-- An operation carried out whole (R334), but for `kv.map`: the result's value and the state. -/
def kvDo (pkg : Nat) (op : KvOp) (ok : Bool) (s : State) : Nat × State :=
  let id := op.za % 2 ^ 32
  let on (f : Nat × State) : Nat × State := if (s.pkg (seqHome id)).kvEn then f else (0x0C, s)
  let stat (f : KvSeq → Nat) : Nat × State :=
    if !(s.pkg (seqHome id)).kvEn then (0x0C * 2 ^ 56, s) else match s.seq id with | some q => (f q, s) | none => (0x02 * 2 ^ 56, s)
  match op.ins with
  | .kvAlloc _ _ => kvAlloc pkg op.blk op.frames s
  | .kvFree _ _ => on (kvFree id s)
  | .kvApp _ _ _ => appendEnd op s
  | .kvShare _ _ => kvShare op.blk ok s
  | .kvMove _ _ => kvMove op.blk ok s
  | .kvStatLen _ _ => stat fun q => q.n
  | .kvStatGen _ _ => stat KvSeq.genWord
  | .kvStatFree _ _ => (freeTotal s pkg, s)
  | .kvGen _ _ _ => on (kvGen id op.zb s)
  | _ => (0, s)

/-- The home an operation needs (R329): the executing package where none is named. -/
def KvOp.home (op : KvOp) (pkg : Nat) : Nat :=
  match op.ins with
  | .kvAlloc _ _ | .kvStatFree _ _ | .kvApp _ _ _ => pkg
  | .kvMap _ _ | .kvShare _ _ | .kvMove _ _ => seqHome (op.blk.getD 0 0 % 2 ^ 32)
  | _ => seqHome (op.za % 2 ^ 32)

/-- Where a status stands in an operation's result (R338 to R347). -/
def kvStatus (ins : Instr) (st : Nat) : Nat :=
  match ins with
  | .kvApp _ _ _ | .kvStatLen _ _ | .kvStatGen _ _ => st * 2 ^ 56
  | _ => st

/-- The reply of an operation reaches its task: the result in flight is there (R335), and its remote requests are outstanding no more
(R22). -/
def kvReply (pkg id : Nat) (op : KvOp) (v : Nat) (s : State) : State :=
  let s := s.modPkg pkg fun p => { p with kvOps := p.kvOps.filter fun e => e.1 ≠ id }
  let s := s.modTaskId op.core op.task fun t => { t with c := { t.c with flights := t.c.flights.map fun f =>
    if f.seq = op.fseq then { f with wait := 0, land := (match f.land with | .regs [(d, _)] => .regs [(d, BitVec.ofNat 64 v)] | l => l) } else f } }
  if kvAlive op s then s.modCore op.core fun c => { c with remote := c.remote - op.remote } else s

/-- An operation of the same task was sent before and has not been carried out (R334, R335); one that a fault holds for a task that is gone
never will be. -/
def kvBehind (pkg id : Nat) (op : KvOp) (s : State) : Bool :=
  (s.pkg pkg).kvOps.any fun e => decide (e.1 < id) && e.2.core = op.core && e.2.task = op.task && (e.2.pf.isNone || kvAlive e.2 s || kvAway e.2 s)

/-! ### Registers and losses (R327, R345, R348) -/

/-- KVCTL_ENABLE (R327). Reads `arg.unit` (package). The free list is every pair of the linear parts of live channels whose
count is 0. -/
def execKvctlEnable (s : State) : Host.Outcome State Fault Refusal :=
  onEvent s fun s => s.modPkg s.arg.unit fun p => { p with kvEn := true }

/-- The page manager stops (R327): its sequences are discarded and their pairs lose one each. -/
def kvDisable (pkg : Nat) (s : State) : State :=
  ((s.pkg pkg).seqs.foldl (fun s e => dropSeq e.2 s) s).modPkg pkg fun p => { p with seqs := [], kvEn := false }

/-- KVCTL_DISABLE (R327). Reads `arg.unit` (package). -/
def execKvctlDisable (s : State) : Host.Outcome State Fault Refusal :=
  onEvent s fun s => if (s.pkg s.arg.unit).kvEn then kvDisable s.arg.unit s else s

/-- Entries of a home's sequences that a loss takes away become absent (R345): one event for each sequence it touches. -/
def loseEnts (home : Nat) (gone : KvEnt → Bool) (s : State) : State :=
  (s.pkg home).seqs.foldl (fun (s : State) (e : Nat × KvSeq) =>
    let q := e.2
    let hit : List Nat := (q.ents.filter fun x => (x.2.state = 1 ∨ x.2.state = 3) && gone x.2).map Prod.fst
    if hit.isEmpty then s
    else
      let g := (q.gen + 1) % 65536
      let q' := hit.foldl (fun q i => q.setEnt i { q.ent i with state := 2, mgen := g }) q
      putSeq (home * 2 ^ 16 + e.1) { q' with gen := g } hit s) s

/-- KVLOST_WRITE (R345, R348). Reads `arg.unit` (package) and `arg.v`, the written word. -/
def execKvlostWrite (s : State) : Host.Outcome State Fault Refusal :=
  onEvent s fun s => if fld s.arg.v 31 31 = 1 then loseEnts s.arg.unit (fun x => x.pkg = fld s.arg.v 12 0) s else s

end Sys2Proof.Machine
end

