-- ==== Sys2Proof/Machine/End.lean ====
section
/-!
DEFINITION. Sys2Proof/Machine/End.lean: how tasks, gangs, packets and contexts end: barriers and hours return, tables stop, a
failed packet's signals are written, a context is aborted (R143 to R146, R325, R388, R391, R402, R403, R436).
-/

namespace Sys2Proof.Machine

/-! ### Tasks and gangs -/

/-- The gang a `taskid` belongs to: context, grid number and gang index (R389). -/
def gangOf (id : Nat) : Nat := id / 512

/-- The cores of a package that hold a task of which f holds. -/
def coresWith (pkg : Nat) (f : Task → Bool) (s : State) : List Nat :=
  (s.cores.filter fun c => pkgOf c.1 = pkg && (match c.2.task with | some t => f t | none => false)).map Prod.fst

/-- What the end of a task does to one barrier of its gang (R146): `phase` is that of the task's most recent arrival. -/
def GBar.leave (b : GBar) (phase : Option Nat) : GBar :=
  if phase = some b.phase then { b with next := b.next + 1 } else { b with expected := b.expected - 1 }.settle

/-- A table is stopped at a word boundary by an abort (R325): its numbers are discarded, its output buffer is undefined. -/
def dropTable (key : Nat) (s : State) : State :=
  { s.modChan key fun c => { c.modBanks Bank.close with
      state := if c.state = 3 then 3 else 1, held := false, live := false, widx := 0, flights := [], nums := [], mask := 0
      out := (List.range 4096).map fun i => (i, (Config.freeValue (s.nfree + i)).toNat % 2 ^ 32) } with nfree := s.nfree + 4096 }

/-- The channels whose running table a core's task has started (R312). -/
def tablesOf (core : Nat) (s : State) : List Nat := (s.chans.filter fun c => c.2.state = 2 && !c.2.held && c.2.owner = core).map Prod.fst

/-- A placement is tried again in every partition of a package that has a packet or a saved gang waiting (R224, R398). -/
def pokePlacement (pkg : Nat) (s : State) : State :=
  let ks := (((s.pkg pkg).queues.filter fun e => e.2.head.isSome).map fun e => e.2.part) ++ (s.saved.filter fun g => g.pkg = pkg && g.resume).map (·.part)
  ks.dedup.foldl (fun s k => s.postOnce .gangPlacement { unit := pkg, k := k }) s

/-- Hours that a task held are free again: a launch that waits for them is retried (R224). -/
def freedHours (pkg : Nat) (t : Task) (s : State) : State :=
  if !t.domHours.isEmpty then s.pkgs.foldl (fun s p => pokePlacement p.1 s) s
  else if !t.pkgHours.isEmpty then pokePlacement pkg s else s

/-- A task leaves its core (R143, R146, R391): its barriers treat it as ended; with the last task of its gang they return. The
core may be placed on again, or be replaced. -/
def leaveCore (core : Nat) (s : State) : State :=
  match (s.core core).task with
  | none => s
  | some t =>
    let s := (t.bars.zipIdx).foldl (fun s e => s.modDie (dieOf core) fun d =>
      { d with gbars := tabSet {} d.gbars e.1 ((tabGet {} d.gbars e.1).leave (t.mine.getD e.2 none)) }) s
    let s := (s.modCore core fun c => { c with task := none, remote := 0 }).postOnce .gangPlacement { unit := pkgOf core, k := t.part }
    let s := freedHours (pkgOf core) t s
    let s := if (s.core core).failed then s.postOnce .coreSpareTakeover { unit := core } else s
    if (coresWith (pkgOf core) (fun x => gangOf x.id = gangOf t.id) s).isEmpty then
      s.modDie (dieOf core) fun d => { d with gbars := t.bars.foldl (fun g i => tabSet {} g i {}) d.gbars }
    else s

/-- A task ends at once (R388): its results, copies, commands and actions go with it, its tables stop. -/
def abortTask (core : Nat) (s : State) : State := leaveCore core ((tablesOf core s).foldl (fun s k => dropTable k s) s)

/-- A saved gang is discarded (R388): the tables held for it stop. -/
def dropSaved (f : Saved → Bool) (s : State) : State :=
  let gone := s.saved.filter f
  { (gone.flatMap fun g => g.tasks.flatMap (·.chans)).foldl (fun s k => dropTable k s) s with saved := s.saved.filter fun g => !f g }

/-! ### Packets (R395 to R403) -/

/-- A host queue of a package. -/
def State.queue (s : State) (pkg q : Nat) : Queue := tabGet {} (s.pkg pkg).queues q

/-- A host queue changed. -/
def State.modQueue (s : State) (pkg q : Nat) (f : Queue → Queue) : State :=
  s.modPkg pkg fun p => { p with queues := tabSet {} p.queues q (f (tabGet {} p.queues q)) }

/-- The eight double-words of packet i of a queue, read from its slot (R394). -/
def slotWords (s : State) (pkg q i : Nat) : Option (List Nat) :=
  let x := s.queue pkg q
  (readVirt s pkg x.ctx (x.base + 64 * (i % 2 ^ x.lg)) 64).map (wordsOf 8 8)

/-- A double-word stored at a virtual address of a context (R400); an address that cannot be written takes nothing (log 24). -/
def signalStore (pkg ctx va v : Nat) (s : State) : State :=
  if va % 8 ≠ 0 then s
  else match virtCells s pkg ctx va (toBytes 8 v) with
    | some l => storeCells s l
    | none => s

/-- A double-word at a virtual address of a context added to (R400). -/
def signalAdd (pkg ctx va v : Nat) (s : State) : State :=
  match readVirt s pkg ctx va 8 with
  | some b => signalStore pkg ctx va ((ofBytes b + v) % 2 ^ 64) s
  | none => s

/-- −1 as a double-word. -/
def minusOne : Nat := 2 ^ 64 - 1

/-- The tasks of a packet's grid end, and its saved gangs are discarded (R403). -/
def dropGrid (pkg q i : Nat) (s : State) : State :=
  let mine (t : Task) : Bool := t.queue = q && t.pidx = i
  let s := (coresWith pkg mine s).foldl (fun s c => abortTask c s) s
  let s := dropSaved (fun g => g.pkg = pkg && g.tasks.any fun x => mine x.task) s
  s.modPkg pkg fun p => { p with grids := p.grids.filter fun g => !(g.queue = q && g.idx = i) }

/-- The context of a packet that a queue has read. -/
def packetCtx (x : Queue) (w : List Nat) : Nat := (w[8]?).getD x.ctx

/-- The context of an open packet of a queue, by its index (R389, R393). -/
def openCtx (x : Queue) (i : Nat) : Nat := match x.opens.find? fun e => e.1 = i with | some e => packetCtx x e.2 | none => x.ctx

/-- −1 swapped into the completion signal of packet j of a queue (R403); one that has completed, or whose signal is written, has none. -/
def swapSignal (pkg q j : Nat) (s : State) : State :=
  let x := s.queue pkg q
  let words := match x.opens.find? fun e => e.1 = j with
    | some e => some e.2
    | none =>
      if x.head.isSome ∧ j = x.hidx then x.head
      else if !x.en ∨ j < max x.rd x.swapped ∨ x.wr ≤ j then none else slotWords s pkg q j
  match words with
  | some w => if w.getD 7 0 = 0 then s else signalStore pkg (packetCtx x w) (w.getD 7 0) minusOne s
  | none => s

/-- −1 swapped into the completion signals of packets i to n − 1 of a queue, in index order (R403). -/
def swapSignals (pkg q i n : Nat) (s : State) : State :=
  let s := (List.range (n - i)).foldl (fun s k => swapSignal pkg q (i + k) s) s
  s.modQueue pkg q fun x => { x with swapped := max x.swapped n }

/-! ### The Midnight timer (R413) -/

/-- A partition of a package. -/
def State.part (s : State) (pkg k : Nat) : Part := tabGet {} (s.pkg pkg).parts k

/-- A partition changed. -/
def State.modPart (s : State) (pkg k : Nat) (f : Part → Part) : State :=
  s.modPkg pkg fun p => { p with parts := tabSet {} p.parts k (f (tabGet {} p.parts k)) }

/-- A packet that counts for the Midnight timer: launch, copy or table load (R413). -/
def timed (w : List Nat) : Bool := let t := fld (w.headD 0) 7 0; t = 1 || t = 4 || t = 6

/-- The Midnight timer of a partition runs while a taken packet that counts is incomplete, but for launches whose placed gangs are all
saved (R413). -/
def midnightBusy (s : State) (pkg k : Nat) : Bool :=
  (s.pkg pkg).queues.any fun e => e.2.part = k && e.2.opens.any fun o => timed o.2 &&
    match (s.pkg pkg).grids.find? fun g => g.queue = e.1 && g.idx = o.1 with
    | none => true
    | some g => !(coresWith pkg (fun t => t.queue = g.queue && t.pidx = g.idx) s).isEmpty || (s.saved.filter fun v => v.pkg = pkg && v.gang / 2 ^ 15 = g.ctx * 2 ^ 24 + g.num).isEmpty

/-- The Midnight timer brought in step with what the partition holds: it reloads when it starts counting, and on a kick or a
completion (`reload`) (R413). -/
def midnight (reload : Bool) (pkg k : Nat) (s : State) : State :=
  let x := s.part pkg k
  if midnightBusy s pkg k then
    if x.run.isNone || reload then
      (s.modPart pkg k fun p => { p with run := some (s.tick + 1000 * p.per) })
    else s
  else s.modPart pkg k fun p => { p with run := none, rem := if reload then p.per else match p.run with | some t => (t - s.tick) / 1000 | none => p.rem }

/-- A packet fails with a code (R403). One of a queue that has been disabled since it was read fails alone. -/
def failPacket (pkg q i code : Nat) (s : State) : State :=
  let s := s.modQueue pkg q fun x => { x with state := 2, code := code, idx := i }
  let s := dropGrid pkg q i s
  let x := s.queue pkg q
  let n := if x.en ∧ i / 2 ^ 64 = x.epoch then max x.wr (i + 1) else i + 1
  let s := swapSignals pkg q i n s
  midnight false pkg x.part (s.modQueue pkg q fun x =>
    { x with opens := x.opens.filter fun e => decide (e.1 < i ∨ n ≤ e.1), head := if x.hidx < i ∨ n ≤ x.hidx then x.head else none, ready := none })

/-- The packet with which a queue that enters the error state stands: its oldest that is not complete. -/
def oldest (x : Queue) : Nat := ((x.opens.map Prod.fst) ++ if x.head.isSome then [x.hidx] else []).foldl min x.rd

/-- A queue enters the error state (R388, R414, R431); every packet that it has read and not completed fails with it. -/
def errQueue (pkg q code : Nat) (s : State) : State :=
  let x := s.queue pkg q
  let s := failPacket pkg q (oldest x) code s
  (((s.queue pkg q).opens.map Prod.fst) ++ if (s.queue pkg q).head.isSome then [(s.queue pkg q).hidx] else []).foldl (fun s i =>
    let y := s.queue pkg q
    let s := swapSignal pkg q i s
    s.modQueue pkg q fun _ => { y with opens := y.opens.filter fun e => e.1 ≠ i, head := if y.hidx = i then none else y.head }) s

/-! ### Contexts (R388, R436) -/

/-- The counters of a context return to the host with en = 0 (R436). -/
def returnEcs (ctx : Nat) (t : Tab Ec) : Tab Ec := t.map fun e => if e.2.kind = 1 ∧ e.2.ctx = ctx then (e.1, { e.2 with kind := 0, ctx := 0, en := false }) else e

/-- The counters of an ended context (R436). -/
def endCounters (pkg ctx : Nat) (s : State) : State :=
  { s.modPkg pkg fun p => { p with ec := returnEcs ctx p.ec } with
    dies := s.dies.map fun d => if d.1 / 8 = pkg then (d.1, { d.2 with ec := returnEcs ctx d.2.ec }) else d
    cores := s.cores.map fun c => if pkgOf c.1 = pkg then (c.1, { c.2 with ec := returnEcs ctx c.2.ec }) else c }

/-- A pre-emption under way of a gang that ends otherwise is refused (R412). -/
def refusePm (pkg : Nat) (why : Nat) (f : Nat → Bool) (s : State) : State :=
  s.modPkg pkg fun p => { p with parts := p.parts.map fun e => if (e.2.pm = 1 ∨ e.2.pm = 2) ∧ f e.2.gang then (e.1, { e.2 with pm := 4, why := why }) else e }

/-- A context is aborted (R388): a copy packet that waits for a queue copy engine tries again (R399). -/
def abortContext (pkg ctx : Nat) (s : State) : State :=
  let s := refusePm pkg 0x04 (fun g => g / 2 ^ 39 = ctx) s
  let s := (coresWith pkg (fun t => t.ctx = ctx) s).foldl (fun s c => abortTask c s) s
  let s := dropSaved (fun g => g.pkg = pkg && g.gang / 2 ^ 39 = ctx) s
  let s : State := { s with dies := s.dies.map fun d => if d.1 / 8 = pkg then (d.1, { d.2 with leases := d.2.leases.filter fun e => e.2.ctx ≠ ctx }) else d }
  let s := (s.plans.filter fun e => e.2.ctx = ctx && e.2.pkgs.contains pkg).foldl (fun s e => endPlan e.1 s) s
  let s : State := { s with dies := s.dies.map fun d => if d.1 / 8 = pkg then (d.1, { d.2 with qcopies := d.2.qcopies.filter fun c => openCtx (s.queue pkg c.1) c.2.1 ≠ ctx }) else d }
  let s := ((s.pkg pkg).queues.filter fun e => e.2.ctx = ctx && (e.2.en || !e.2.opens.isEmpty)).foldl (fun s e =>
    let x := s.queue pkg e.1
    errQueue pkg e.1 0x03 (x.opens.foldl (fun s o => dropGrid pkg e.1 o.1 s) s)) s
  endCounters pkg ctx (((s.pkg pkg).queues.filter fun e => e.2.head.isSome).foldl (fun s e => s.postOnce .copyPacket { unit := pkg, k := e.1 }) s)

/-! ### Interrupts (R443) -/

/-- A host interrupt raised. -/
def raiseMsi (pkg v : Nat) (s : State) : State := countPkg pkg 0xD6 1 (s.modPkg pkg fun p => { p with msix := p.msix ||| 2 ^ v })

end Sys2Proof.Machine
end

