-- ==== Sys2Proof/Machine/Health.lean ====
section
/-!
DEFINITION. Sys2Proof/Machine/Health.lean: spares and retirement, the health state, and errors of arrays and HBM (R427 to
R432).
-/

namespace Sys2Proof.Machine

/-! ### The health state (R430 to R432) -/

/-- The dies of a package, by key. -/
def diesOf (pkg : Nat) : List Nat := (List.range 8).map (pkg * 8 + ·)

/-- The cores of a die that are out of service (R429). -/
def outCores (s : State) (die : Nat) : Nat := (s.cores.filter fun c => dieOf c.1 = die && c.2.out).length

/-- The retired channels of a package, by their number. -/
def retiredChans (s : State) (pkg : Nat) : List Nat := (s.chans.filter fun c => c.1 / 512 = pkg && c.2.state = 3).map fun c => c.1 % 512

/-- The retired units of a package from number lo (R379). -/
def retiredUnits (s : State) (pkg lo : Nat) : Nat := ((s.pkg pkg).units.filter fun u => lo ≤ u.1 && u.1 < lo + 16 && u.2.ret).length

/-- Ports with the spare in use or narrowed, and ports that have gone down (R432). -/
def portCounts (s : State) (pkg : Nat) : Nat × Nat :=
  (((s.pkg pkg).ports.filter fun p => !p.2.down && (p.2.spu || (p.2.width = 2 || p.2.width = 3))).length, ((s.pkg pkg).ports.filter fun p => p.2.down).length)

/-- The fewest spare cores left on a die. -/
def spareMin (s : State) (pkg : Nat) : Nat := ((diesOf pkg).map fun d => (s.die d).spares).foldl min 16

/-- The classes that have reached Dusk, as bits 4:0 of `dusk` (R430, R432). -/
def duskBits (s : State) (pkg : Nat) : Nat :=
  let p := portCounts s pkg
  (if spareMin s pkg ≤ 2 then 1 else 0) + (if 8 ≤ (retiredChans s pkg).length then 2 else 0) +
  (if 4 ≤ p.1 + p.2 ∨ (s.pkg pkg).ports.any (fun e => e.2.down || e.2.width = 2 || e.2.width = 3) then 4 else 0) +
  (if 4 ≤ retiredUnits s pkg 0 then 8 else 0) + (if 4 ≤ retiredUnits s pkg 16 then 16 else 0)

/-- A threshold of Offline holds (R430). -/
def offline (s : State) (pkg : Nat) : Bool :=
  (diesOf pkg).any (fun d => decide (64 ≤ outCores s d)) || decide (64 ≤ (retiredChans s pkg).length) ||
  ((List.range 16).any fun h => ((retiredChans s pkg).filter fun c => c / 32 = h).length = 32) || decide (9 ≤ (portCounts s pkg).2) ||
  retiredUnits s pkg 0 = 16 || retiredUnits s pkg 16 = 16

/-- `hlth` (R432). -/
def hlthWord (s : State) (pkg : Nat) : Nat :=
  let p := s.pkg pkg
  let c := portCounts s pkg
  p.health * 2 ^ 62 + p.why * 2 ^ 56 + p.dusk * 2 ^ 48 + spareMin s pkg * 2 ^ 40 + min (((diesOf pkg).map (outCores s)).sum) 255 * 2 ^ 32 +
  (retiredChans s pkg).length * 2 ^ 22 + c.1 * 2 ^ 16 + c.2 * 2 ^ 10 + retiredUnits s pkg 0 * 2 ^ 5 + retiredUnits s pkg 16

/-- Every enabled queue enters the error state with a code (R414, R431). -/
def errQueues (pkg code : Nat) (f : Queue → Bool) (s : State) : State :=
  ((s.pkg pkg).queues.filter fun e => e.2.en && f e.2).foldl (fun s e => errQueue pkg e.1 code s) s

/-- The health state after a loss: it moves only forwards; entering Offline stops every queue (R430, R431). -/
def updateHealth (pkg : Nat) (s : State) : State :=
  let s := s.modPkg pkg fun p => { p with dusk := p.dusk ||| duskBits s pkg }
  let p := s.pkg pkg
  if p.health = 2 then s
  else if offline s pkg then errQueues pkg 0x07 (fun _ => true) (s.modPkg pkg fun p => { p with health := 2, why := 2 })
  else if p.dusk ≠ 0 then s.modPkg pkg fun p => { p with health := 1 }
  else s

/-- A sparing or retirement (R429): vector 8, and the health state. -/
def spared (pkg : Nat) (s : State) : State := updateHealth pkg (raiseMsi pkg 8 s)

/-- The times of errors with a new one, those within the last second kept, the newest first (R378, R429). -/
def recentErrs (tick : Nat) (l : List Nat) : List Nat := tick :: l.filter fun t => decide (tick < t + 10 ^ 9)

/-! ### Retirement (R323, R345, R378, R429) -/

/-- A channel is retired (R429): its table is stood in for, every home loses the entries it held. -/
def retireChan (key : Nat) (s : State) : State :=
  if (s.chan key).state = 3 then s
  else
    let s := if (s.chan key).state = 2 then ghostTable key s else s.modChan key fun c => { c with state := 3 }
    let s := s.pkgs.foldl (fun s p => loseEnts p.1 (fun x => x.pkg = key / 512 && x.chan = key % 512) s) s
    spared (key / 512) s

/-- An uncorrectable error of a channel: the fourth within a second retires it (R429). -/
def chanError (key : Nat) (s : State) : State :=
  let l := recentErrs s.tick (s.chan key).errs
  let s := s.modChan key fun c => { c with errs := l }
  if 4 ≤ l.length then retireChan key s else s

/-- What is left of the poison when another core takes a core's number: it brings its own arrays (R17, R428). -/
def freshCore (core : Nat) (l : List ErrLoc) : List ErrLoc :=
  l.filter fun p => match p with
    | .reg c _ _ | .file c _ _ | .icache c _ | .spad c _ | .l1 c _ | .utlb c _ _ | .tlb c _ => c ≠ core
    | _ => true

/-- A core out of its tasks takes a spare of its die, or is out of service for good (R429, R17). -/
def takeSpare (core : Nat) (s : State) : State :=
  let c := s.core core
  if !c.failed || c.task.isSome || c.out then s
  else
    let d := dieOf core
    if (s.die d).spares = 0 then spared (pkgOf core) (s.modCore core fun c => { c with out := true })
    else
      let s := s.modDie d fun x => { x with spares := x.spares - 1 }
      spared (pkgOf core) { s.modCore core fun c => { ec := c.ec, seed := s.nfree } with poison := freshCore core s.poison }

/-- CORE_SPARE_TAKEOVER (R429). Reads `arg.unit` (core). -/
def execCoreSpareTakeover (s : State) : Host.Outcome State Fault Refusal :=
  onEvent s fun s => { takeSpare s.arg.unit s with nfree := s.nfree + 1 }

/-- An uncorrectable error of a core's arrays: the fourth within a second marks the core failed (R429). -/
def coreError (core : Nat) (s : State) : State :=
  let l := recentErrs s.tick (s.core core).errs
  let s := s.modCore core fun c => { c with errs := l }
  if 4 ≤ l.length ∧ !(s.core core).failed then (s.modCore core fun c => { c with failed := true }).post .coreSpareTakeover { unit := core } else s

/-! ### Errors (R427, R428) -/

/-- Where an error is counted (R434): core, die or package codes for corrected errors; it has none for the router's buffers, which belong
to no core or die. -/
def countCorrected (pkg : Nat) : ErrLoc → State → State
  | .reg c _ _ => countCore c 0x4B 1
  | .l1 c _ => countCore c 0x4B 1
  | .icache c _ => countCore c 0x4B 1
  | .spad c _ => countCore c 0x4B 1
  | .l2 d _ => countDie d 0x8A 1
  | .base ch _ => countDie (dieOfChan ch) 0x8A 1
  | .hbm _ => countPkg pkg 0xCC 1
  | .router _ => id
  | .file c _ _ => countCore c 0x4B 1
  | .utlb c _ _ => countCore c 0x4B 1
  | .tlb c _ => countCore c 0x4B 1
  | .dtlb d _ => countDie d 0x8A 1

/-- CORRECTED_ERROR (R427): delivered corrected and counted. Reads `arg.unit` (package) and `arg.loc`. -/
def execCorrectedError (s : State) : Host.Outcome State Fault Refusal := onEvent s fun s => countCorrected s.arg.unit s.arg.loc s

/-- The channel of an HBM column, by key (R234). -/
def columnChan (col : Nat) : Nat :=
  let a := col * 32
  a / 2 ^ 45 * 512 + a % 2 ^ 45 / 2 ^ 36 * 32 + a % 2 ^ 36 / 2 ^ 31

/-- A dirty L1 line. -/
def l1Dirty (s : State) (core line : Nat) : Bool := (s.core core).l1.any fun e => e = (line, true)

/-- TLB entries of a page with their unit poisoned. -/
def spoilTlb (page : Nat) (l : List TlbEnt) : List TlbEnt := l.map fun e => if e.vpn = page * 2 ^ 16 / 2 ^ e.bits then { e with bad := true } else e

/-- An uncorrectable error (R428, R429): a clean L1 line is fetched again; any other unit is poisoned. Poison of a
router's buffer meets the next chunk or answer that passes there. -/
def uncorrectable (pkg : Nat) (l : ErrLoc) (s : State) : State :=
  let poison (e : ErrLoc) (s : State) : State := { s with poison := if s.poison.contains e then s.poison else e :: s.poison }
  match l with
  | .l1 c word =>
    let s := coreError c s
    let line := word / 16
    if l1Dirty s c line then poison l s
    else countCore c 0x4B 1 (s.modCore c fun x => { x with l1 := x.l1.filter fun e => e.1 ≠ line })
  | .reg c _ _ => poison l (coreError c s)
  | .icache c _ => poison l (coreError c s)
  | .spad c _ => poison l (coreError c s)
  | .hbm col => poison l (chanError (columnChan col) (countPkg pkg 0xCD 1 s))
  | .base ch _ => poison l (chanError ch s)
  | .l2 _ _ => poison l s
  | .router _ => poison l s
  | .file c _ _ => poison l (coreError c s)
  | .utlb c st page => coreError c (s.modCore c fun x => { x with task := x.task.map fun t => t.setStr st { t.str st with utlb := spoilTlb page (t.str st).utlb } })
  | .tlb c page => coreError c (s.modCore c fun x => { x with tlb := spoilTlb page x.tlb })
  | .dtlb d page => s.modDie d fun x => { x with tlb := spoilTlb page x.tlb }

/-- UNCORRECTABLE_ERROR (R428). Reads `arg.unit` (package) and `arg.loc`. -/
def execUncorrectableError (s : State) : Host.Outcome State Fault Refusal := onEvent s fun s => uncorrectable s.arg.unit s.arg.loc s

end Sys2Proof.Machine
end

