-- ==== Sys2Proof/Machine/Plan.lean ====
section
/-!
DEFINITION. Sys2Proof/Machine/Plan.lean: fabric ports and routes, the set-up of plans, their rounds, trees and chunks, and the
`pl` instructions (R350 to R384, R459, R460, R468).
-/

namespace Sys2Proof.Machine

/-! ### Ports and routes (R350 to R356, R468) -/

/-- One hop of a route: node and port it leaves, node and port it enters. A node is a package, or 8,192 + a switch ID. -/
structure Hop where
  out : Nat
  outPort : Nat
  into : Nat
  inPort : Nat
  deriving DecidableEq, Repr

/-- The other end of a port's link. -/
def Port.far (p : Port) : Nat × Nat := (p.peer, p.pport)

/-- The state of the link that leaves by a port (R353): the lower of its two ends'. -/
def linkAt (s : State) (e : Nat × Nat) : Nat := min (s.portOf e).state (s.portOf (s.portOf e).far).state

/-- A link can be a route's: it is up, or a port that was up retrains and only holds its traffic (R351). -/
def linkUp (s : State) (e : Nat × Nat) : Bool := decide (1 ≤ linkAt s e) && !(s.portOf e).fresh && !(s.portOf (s.portOf e).far).fresh

/-- The links of a node that are up. -/
def linksOf (s : State) (node : Nat) : List Hop :=
  ((if node < 8192 then (s.pkg node).ports.map fun p => (p.1, p.2)
    else (s.switches.filter fun p => p.1 / 256 = node - 8192).map fun p => (p.1 % 256, p.2)).filter fun p => linkUp s (node, p.1)).map
      fun p => ⟨node, p.1, p.2.peer, p.2.pport⟩

/-- The search for a route over links that f takes, breadth first: nodes reached with their hops, latest first. -/
def routeGo (s : State) (f : Hop → Bool) (dst : Nat) : Nat → List (Nat × List Hop) → List Nat → Option (List Hop)
  | 0, _, _ => none
  | n + 1, front, seen =>
    match front.find? fun e => e.1 = dst with
    | some e => some e.2.reverse
    | none =>
      let next := front.flatMap fun e => ((linksOf s e.1).filter fun h => f h && !seen.contains h.into).map fun h => (h.into, h :: e.2)
      if next.isEmpty then none else routeGo s f dst n next (seen ++ next.map Prod.fst)

/-- A route between two nodes that is up, over links that f takes; which one is the model's choice (log 14). -/
def routeBy (s : State) (f : Hop → Bool) (a b : Nat) : Option (List Hop) := routeGo s f b (s.pkgs.length + s.switches.length + 2) [(a, [])] [a]

/-- A route between two nodes that is up. -/
def route (s : State) (a b : Nat) : Option (List Hop) := routeBy s (fun _ => true) a b

/-- A route of a plan: over the ports that it has reserved where there is one (R354, R378). -/
def planRoute (s : State) (p : Plan) (a b : Nat) : Option (List Hop) :=
  match routeBy s (fun h => p.res.contains (h.out, h.outPort)) a b with
  | some l => some l
  | none => route s a b

/-- The points of the chunk path on a hop (R356, R375): the fabric port it leaves by, the port it enters. -/
def Hop.points (h : Hop) : List (Nat × Nat) :=
  (if h.out < 8192 then [(h.out, h.outPort)] else []) ++ [(h.into, if h.into < 8192 then h.inPort else 0x8000 + h.inPort)]

/-- The reachability tables after ports or routes have changed (R468). -/
def refreshReach (s : State) : State :=
  { s with pkgs := s.pkgs.map fun p => (p.1, { p.2 with reach := s.members.filter fun m => m ≠ p.1 && (route s p.1 m).isSome }) }

/-- A port of a package. -/
def State.port (s : State) (pkg k : Nat) : Port := tabGet {} (s.pkg pkg).ports k

/-- A port changed. -/
def State.modPort (s : State) (pkg k : Nat) (f : Port → Port) : State :=
  s.modPkg pkg fun p => { p with ports := tabSet {} p.ports k (f (tabGet {} p.ports k)) }

/-- Both ends of the link of a port changed. -/
def State.modLink (s : State) (e : Nat × Nat) (f : Port → Port) : State :=
  let far := (s.portOf e).far
  (s.modPortOf e f).modPortOf far f

/-! ### Trees (R362 to R364) -/

/-- What a chunk carries: 2i for member i of its group, 2k + 1 for the output of node k. -/
def memberItem (i : Nat) : Nat := 2 * i
/-- The item of a node's output. -/
def nodeItem (k : Nat) : Nat := 2 * k + 1

/-- The node that takes an item of a group of m members, or none where it is the group's result (R363). A chain's nodes are
numbered 1 to m − 1 from its start; a binary tree's as a heap, the root 1 (log 14). -/
def parentOf (shape m item : Nat) : Option Nat :=
  let k := item / 2
  if shape = 0 then
    if item % 2 = 0 then (if m ≤ 1 then none else some (max k 1)) else (if k + 1 < m then some (k + 1) else none)
  else
    let x := if item % 2 = 0 then pow2Above m + k else k
    if x ≤ 1 then none else some (x / 2)

/-- The leftmost leaf below a heap position of a tree of K leaves. -/
def leftLeaf (K : Nat) : Nat → Nat → Nat
  | 0, x => x - K
  | n + 1, x => if K ≤ x then x - K else leftLeaf K n (2 * x)

/-- The two inputs of a node; none is the pad (R363). -/
def nodeInputs (shape m k : Nat) : Option Nat × Option Nat :=
  if shape = 0 then (some (if k = 1 then memberItem 0 else nodeItem (k - 1)), some (memberItem k))
  else
    let K := pow2Above m
    let inp (x : Nat) : Option Nat :=
      let l := leftLeaf K K.log2 x
      if m ≤ l then none else if K ≤ x then some (memberItem (x - K)) else some (nodeItem x)
    (inp (2 * k), inp (2 * k + 1))

/-- The height of a node: the level of its output's chunk (R373). -/
def nodeLevel (shape m k : Nat) : Nat := if shape = 0 then k else (pow2Above m).log2 - k.log2

/-- An item's position in its group's tree (R373): counted along its level, a member at its number (R461; log 14). -/
def nodePos (shape item : Nat) : Nat := if item % 2 = 0 then item / 2 else if shape = 0 then 0 else item / 2 - 2 ^ (item / 2).log2

/-- The lowest member below an item (R373). -/
def lowMember (shape m item : Nat) : Nat :=
  if item % 2 = 0 then item / 2 else if shape = 0 then 0 else leftLeaf (pow2Above m) (pow2Above m).log2 (item / 2)

/-- The items from a member up to its group's result. -/
def pathUp (shape m : Nat) : Nat → Nat → List Nat
  | 0, x => [x]
  | n + 1, x => x :: (match parentOf shape m x with | some k => pathUp shape m n (nodeItem k) | none => [])

/-- The item that is a group's result. -/
def topItem (shape m : Nat) : Nat := if m ≤ 1 then memberItem 0 else nodeItem (if shape = 0 then m - 1 else 1)

/-- The combine of a plan as a copy's (R268, R363). -/
def Plan.asCopy (p : Plan) : Copy := { fn := 7 + p.op, blk := [0, 0, 0, 0, 0, 0, p.fmt * 2 ^ 20 + p.d * 2 ^ 32] }

/-- The element width in bytes, or the bytes of a triple (R268). -/
def Plan.unit (p : Plan) : Nat := if p.op = 3 then 4 * (p.d + 3) else match redFmt p.fmt with | some f => f.bits / 8 | none => 1

/-- The combine f of R363 over two payloads, the first as t1. -/
def Plan.combine (p : Plan) (x y : List Nat) : List Nat :=
  if p.op = 0 then y
  else if p.op = 3 then
    (List.range (x.length / p.unit)).flatMap fun i => redBytes p.asCopy ((x.drop (i * p.unit)).take p.unit) ((y.drop (i * p.unit)).take p.unit)
  else redBytes p.asCopy x y

/-- The pad of a payload (R363). -/
def Plan.pad (p : Plan) : List Nat :=
  let e := match redFmt p.fmt with
    | some f => match f.flt with
      | some g => toBytes (f.bits / 8) (if p.op = 1 then g.signBit else infBits g true)
      | none => toBytes (f.bits / 8) (if p.op = 1 then 0 else ofSigned f.bits f.lo)
    | none => []
  (List.range (p.len / p.unit)).flatMap fun _ => if p.op = 3 then bytes32 (emptyPartial p.d) else e

/-- The package of a group's destination. -/
def Plan.destPkg (p : Plan) (q g : Nat) : Nat := (p.rank (p.peer q (g / p.iters) (g % p.iters))).pkg

/-- The packages that may place a group's nodes (R364): its destination's, and those on its members' routes. -/
def nodePkgs (s : State) (p : Plan) (q g : Nat) : List Nat :=
  let d := p.destPkg q g
  (d :: (p.members q g).flatMap fun m => (p.rank m.1).pkg :: ((planRoute s p (p.rank m.1).pkg d).getD []).map (·.into)).dedup.filter (· < 8192)

/-- The merge units of a package that are not retired, for a merge, else its reduce units. -/
def liveUnits (s : State) (p : Plan) (pkg : Nat) : List Nat :=
  ((List.range 16).map (· + if p.op = 3 then 0 else 16)).filter fun u => !(tabGet {} (s.pkg pkg).units u).ret

/-- The number of a node in its group's tree, counted from 0 level by level from the members up (log 14; R461's worked example). -/
def nodeNo (shape m k : Nat) : Nat := if shape = 0 then k - 1 else pow2Above m - 2 * 2 ^ k.log2 + (k - 2 ^ k.log2)

/-- The first unit from number x on, in turn, that is not retired (R378). -/
def unitFrom (l : List Nat) (x : Nat) : Option Nat := ((List.range 16).map fun i => (x + i) % 16).findSome? fun i => l.find? fun u => u % 16 = i

/-- The package and unit that a node of a group is placed on: in the destination's package where a unit is left there (R364; log 14);
none where all are retired. -/
def unitOf (s : State) (p : Plan) (q g k : Nat) : Option (Nat × Nat) :=
  let d := p.destPkg q g
  let pkg := if !(liveUnits s p d).isEmpty then some d else (nodePkgs s p q g).find? fun x => !(liveUnits s p x).isEmpty
  pkg.bind fun x => (unitFrom (liveUnits s p x) (g + nodeNo p.shape (p.members q g).length k)).map fun u => (x, u)

/-- The hop code of a unit (R356). -/
def unitCode (u : Nat) : Nat := if u < 16 then 0x50 + u else 0x60 + (u - 16)

/-! ### Paths (R375) -/

/-- The die at which a physical address of a package ends: of its scratchpad's core, or of its stack (R18). -/
def dieAt (pa : Nat) : Nat := match regionOf (pa % 2 ^ 45) with | .spad n _ => n / 512 | _ => pa % 2 ^ 45 / 2 ^ 36 / 2

/-- The last points before a destination is written (R375). -/
def destPoints (r : PRank) (pa : Nat) : List (Nat × Nat) :=
  let d := dieAt pa
  (r.pkg, 0x40 + d) :: (match regionOf (pa % 2 ^ 45) with
    | .spad _ _ => [(r.pkg, 0x48 + d)]
    | _ => if d = r.core / 512 then [(r.pkg, 0x48 + d)] else [])

/-- The points at the end of an item's way: a unit's input, or the destination (R375). -/
def endPoints (s : State) (p : Plan) (q g item : Nat) : Option (List (Nat × Nat)) :=
  let x := (g / p.iters, g % p.iters)
  let r := p.rank (p.peer q x.1 x.2)
  match parentOf p.shape (p.members q g).length item with
  | none => some (destPoints r (p.pa (p.dst q x.1 x.2).toNat))
  | some k => (unitOf s p q g k).map fun u => [(u.1, unitCode u.2)]

/-- The whole path of an item, from the core or unit that sends it; none where no route or unit is left. -/
def itemPath (s : State) (p : Plan) (q g item : Nat) : Option (List (Nat × Nat)) := do
  let tail ← endPoints s p q g item
  let dest := (tail.headD (0, 0)).1
  if item % 2 = 0 then
    let m := (p.members q g).getD (item / 2) (0, 0)
    let a := p.rank m.1
    let hops ← planRoute s p a.pkg dest
    some ([(a.pkg, 0x1000 + a.core), (a.pkg, 0x48 + a.core / 512), (a.pkg, 0x40 + a.core / 512)] ++ hops.flatMap Hop.points ++ tail)
  else
    let u ← unitOf s p q g (item / 2)
    let hops ← planRoute s p u.1 dest
    some ((u.1, unitCode u.2) :: hops.flatMap Hop.points ++ tail)

/-- A plan that finds no unit or route fails (R378): its started parts stop, and its chunks are dropped where they come next (R379). -/
def failPlan (k : Nat) (status : Nat) (s : State) : State := s.modPlan k fun p => { p with state := 3, status := status }

/-- A chunk is sent on its way (R373, R374). -/
def sendChunk (k q g item sends : Nat) (payload : List Nat) (s : State) : State :=
  let p := s.plan k
  match itemPath s p q g item with
  | none => failPlan k (if (endPoints s p q g item).isNone then 0x05 else 0x06) s
  | some path =>
    let c : Chunk := { plan := k, q := q, g := g, item := item, good := payload, cur := payload, sends := sends, tick := s.tick, path := path }
    { s with chunks := s.chunks ++ [(s.nchunk, c)], nchunk := s.nchunk + 1 }.post .chunkHopVerify { k := s.nchunk }

/-! ### Reservations (R354) -/

/-- The sixty-fourths reserved on a port. -/
def shareOf (s : State) (e : Nat × Nat) : Nat := (s.portOf e).share

/-- The pairs of packages between which a plan's chunks travel: from a member to its destination, or by the package of its group's
nodes. -/
def Plan.pairs (s : State) (p : Plan) : List (Nat × Nat) :=
  ((List.range p.period).flatMap fun q => p.transfers.flatMap fun x =>
    let a := (p.rank x.1).pkg
    let d := (p.rank (p.peer q x.1 x.2)).pkg
    match (if p.op = 0 then none else unitOf s p q (p.groupOf q x) 1) with
    | some u => [(a, u.1), (u.1, d)]
    | none => [(a, d)]).dedup

/-- The ports that a plan's chunks leave by, for each direction once (R354), on routes whose links f takes. -/
def planPorts (s : State) (p : Plan) (f : Hop → Bool) : Option (List (Nat × Nat)) := do
  let hops ← (p.pairs s).mapM fun e => routeBy s f e.1 e.2
  some ((hops.flatMap fun l => l.map fun h => (h.out, h.outPort)).dedup)

/-- A link on which a plan can reserve a share: less than 56 are, or one is its own (R354). -/
def roomOn (s : State) (p : Plan) (h : Hop) : Bool := decide (shareOf s (h.out, h.outPort) < 56) || p.res.contains (h.out, h.outPort)

/-! ### Writing (R363, R370, R371) -/

/-- A group under way changed. -/
def State.modGrp (s : State) (k q g : Nat) (f : Grp → Grp) : State := s.modPlan k fun p => p.setGrp (f (p.grp q g))

/-- The physical bytes of a group's destination. -/
def Plan.destBytes (p : Plan) (q g : Nat) : List Nat :=
  let x := (g / p.iters, g % p.iters)
  (List.range p.len).map fun i => p.pa ((p.dst q x.1 x.2).toNat + i)

/-- The bytes of a destination, by their places in the payload, that a reader sees wholly old or wholly new (R371): the columns of 32
bytes of memory, the granules of 64 bytes of a scratchpad. -/
def columnsOf (l : List Nat) : List (List Nat) :=
  let grain (a : Nat) : Nat := match regionOf (a % 2 ^ 45) with | .spad _ _ => a / 64 * 2 | _ => a / 32
  let e := (l.map grain).zipIdx
  ((l.map grain).dedup).map fun x => (e.filter fun y => y.1 = x).map Prod.snd

/-- A group is written whole (R363): what waits for it goes on. -/
def groupWritten (k q g : Nat) (s : State) : State :=
  let p := s.plan k
  let s := ((p.grp q g).redos).foldl (fun s op => completeOp op.1 op.2 s) s
  s.modGrp k q g fun x => { x with ins := [], sends := [], written := true, faults := [], redos := [], out := [], cols := [] }

/-- The result of a group goes to its destination (R363, R371): a merge into old contents at once, which triples across columns need
whole; else column by column. A destination whose old contents are needed and poisoned is not written; its data-loss fault is the
router's (R428). -/
def writeDest (k q g : Nat) (v : List Nat) (s : State) : State :=
  let p := s.plan k
  let x := (g / p.iters, g % p.iters)
  let j := p.peer q x.1 x.2
  let pas := p.destBytes q g
  let old := p.acc && p.op ≠ 0
  match (if old then pas.find? (poisonedAt s) else none) with
  | some a =>
    writeRecord (p.rank j).pkg p.ctx { cls := 0x14, agent := 11, task := p.ctx * 2 ^ 48, addr := (p.dst q x.1 x.2).toNat + pas.findIdx (· = a), i0 := lossPlace s a }
      (s.modGrp k q g fun x => { x with faults := x.faults ++ [topItem p.shape (p.members q g).length] })
  | none =>
    (if old ∧ p.op = 3 then
      groupWritten k q g (storeCells s (pas.zip ((p.combine (pas.map fun a => (readByte s a).toNat) v).map (BitVec.ofNat 8))))
    else s.modGrp k q g fun x => { x with out := v, cols := columnsOf pas }).post .planPartComplete { unit := (p.rank j).pkg, k := k, j := j }

/-- The places in the payload of the column that a group writes next; which one is open (R371; log 4). -/
def Grp.column (x : Grp) (s : State) : List Nat := x.cols.getD (Config.freeChoice s.nfree % x.cols.length) []

/-- The next column of a group is written, combined with its old bytes where the plan accumulates (R371). -/
def writeColumn (k : Nat) (x : Grp) (s : State) : State :=
  let p := s.plan k
  let l := x.column s
  let pas := l.map fun i => (p.destBytes x.q x.g).getD i 0
  let v := l.map fun i => x.out.getD i 0
  let v := if p.acc && p.op ≠ 0 then p.combine (pas.map fun a => (readByte s a).toNat) v else v
  let s : State := { storeCells s (pas.zip (v.map (BitVec.ofNat 8))) with nfree := s.nfree + 1 }
  if x.cols.length ≤ 1 then groupWritten k x.q x.g s else s.modGrp k x.q x.g fun y => { y with cols := y.cols.erase l }

/-- An item has passed its last point: it is an input of its node, or its group's result. -/
def arrive (k q g item : Nat) (v : List Nat) (s : State) : State :=
  let p := s.plan k
  let m := (p.members q g).length
  match parentOf p.shape m item with
  | none => writeDest k q g v s
  | some n =>
    let s := s.modGrp k q g fun x => { x with ins := (x.ins.filter fun e => e.1 ≠ item) ++ [(item, v)] }
    let have' (i : Option Nat) : Bool := match i with | some i => ((s.plan k).grp q g).ins.any fun e => e.1 = i | none => true
    let i := nodeInputs p.shape m n
    if have' i.1 && have' i.2 then
      s.post .mergeNodeCompute { unit := p.destPkg q g, k := k, n := q * 2 ^ 32 + g, j := n }
    else s

/-! ### Charges and chunk faults (R375, R376, R378, R460) -/

/-- A fault charged to a unit (R378): the eighth within a second retires it. -/
def chargeUnit (pkg u : Nat) (s : State) : State :=
  let x : Unit' := tabGet {} (s.pkg pkg).units u
  let l := recentErrs s.tick x.times
  let ret := x.ret || decide (8 ≤ l.length)
  let s := s.modPkg pkg fun p => { p with units := tabSet {} p.units u { ret := ret, flt := sat x.flt, times := l } }
  if ret && !x.ret then spared pkg s else s

/-- A mismatch charged to a point (R375). -/
def charge (pt : Nat × Nat) (s : State) : State :=
  if 8192 ≤ pt.1 then s
  else if pt.2 < 0x24 then s.modPort pt.1 pt.2 fun x => { x with ckf := sat x.ckf }
  else if 0x40 ≤ pt.2 ∧ pt.2 < 0x50 then countDie (pt.1 * 8 + pt.2 % 8) 0x90 1 s
  else if 0x50 ≤ pt.2 ∧ pt.2 < 0x60 then chargeUnit pt.1 (pt.2 - 0x50) s
  else if 0x60 ≤ pt.2 ∧ pt.2 < 0x70 then chargeUnit pt.1 (pt.2 - 0x60 + 16) s
  else s

/-- A point is a merge or reduce unit. -/
def isUnit (pt : Nat × Nat) : Bool := 0x50 ≤ pt.2 && pt.2 < 0x70

/-- i2 of a chunk or checksum record (R425). -/
def hopWord (pt : Nat × Nat) (sends : Nat) : Nat := pt.2 + pt.1 % 8192 * 2 ^ 16 + (if isUnit pt then 2 ^ 32 else 0) + sends * 2 ^ 33

/-- The package on which a chunk fault is recorded (R460). -/
def faultPkg (path : List (Nat × Nat)) (found charged : Nat × Nat) : Nat :=
  if found.1 < 8192 then found.1
  else if charged.1 < 8192 ∧ charged.2 < 0x24 then charged.1
  else (((path.takeWhile fun e => e ≠ found).filter fun e => e.1 < 8192 && e.2 < 0x24).getLast?.map Prod.fst).getD charged.1

/-- A chunk fault (R376, R460): the group that the chunk feeds stops. -/
def chunkFault (k q g item sends pkg : Nat) (charged : Nat × Nat) (s : State) : State :=
  let p := s.plan k
  let ms := p.members q g
  let low := ms.getD (lowMember p.shape ms.length item) (0, 0)
  let node := item % 2 = 1
  let s := (s.modGrp k q g fun x => { x with faults := x.faults ++ [item] }).modPlan k fun p => { p with flt := sat p.flt }
  let s := countPkg pkg 0xC6 1 (s.modPkg pkg fun x => { x with plCflt := sat x.plCflt })
  writeRecord pkg p.ctx
    { cls := 0x13, agent := 11, task := p.ctx * 2 ^ 48
      i0 := p.id + p.gen * 2 ^ 16 + (if node then nodeLevel p.shape ms.length (item / 2) else 0) * 2 ^ 24 + q % 2 ^ 32 * 2 ^ 32
      i1 := (if node then 0x3FFF else low.1) + nodePos p.shape item * 2 ^ 16 + (if node then lowMember p.shape ms.length item else low.2) * 2 ^ 32
      i2 := hopWord charged sends } s

/-! ### Chunks on their way (R373 to R376) -/

/-- Bit 0 of payload word 1, or of word 0 of a short payload, inverted (R459). -/
def flipWord (l : List Nat) : List Nat := l.modify (if l.length < 8 then 0 else 4) fun b => b ^^^ 1

/-- A chunk in flight. -/
def State.chunk (s : State) (n : Nat) : Option Chunk := (s.chunks.find? fun e => e.1 = n).map Prod.snd

/-- A chunk put back, or taken out. -/
def State.setChunk (s : State) (n : Nat) (c : Option Chunk) : State :=
  { s with chunks := s.chunks.filterMap fun e => if e.1 = n then c.map fun c => (n, c) else some e }

/-- A chunk that leaves a point meets the injector of the point's package (R459). -/
def inject (c : Chunk) (pt : Nat × Nat) (s : State) : Chunk × State :=
  let w := (s.pkg pt.1).ckinj
  if pt.1 < 8192 ∧ fld w 39 32 ≠ 0 ∧ fld w 31 16 = (s.plan c.plan).id ∧ fld w 15 0 = pt.2 then
    ({ c with cur := flipWord c.cur }, s.modPkg pt.1 fun p => { p with ckinj := w - 2 ^ 32 })
  else (c, s)

/-- The flits of a chunk (R373), counted at a fabric port it leaves or enters. -/
def countFlits (c : Chunk) (pt : Nat × Nat) (code : Nat) (s : State) : State :=
  if pt.1 < 8192 ∧ pt.2 < 0x24 then countPkg pt.1 code ((64 + c.good.length + 239) / 240) s else s

/-- A chunk dropped at a point (R376): resent, or on its fourth send a chunk fault. -/
def dropChunk (n : Nat) (c : Chunk) (found charged : Nat × Nat) (s : State) : State :=
  if 4 ≤ c.sends then chunkFault c.plan c.q c.g c.item c.sends (faultPkg c.path found charged) charged (s.setChunk n none)
  else (s.setChunk n (some c)).post .chunkResend { k := n }

/-- The port whose link a chunk crosses from one point of its path to the next: the fabric port that it leaves by, or the one that it
enters; none within a package. -/
def linkPort (src dst : Nat × Nat) : Option (Nat × Nat) :=
  if src.1 = dst.1 then none else if src.1 < 8192 then some src else some dst

/-- The state of the link that a chunk crosses (R353), of its two ends the lower: up where it crosses none. -/
def linkState (s : State) (src dst : Nat × Nat) : Nat :=
  match linkPort src dst with
  | some e => linkAt s (e.1, e.2 % 0x8000)
  | none => 2

/-- A chunk's plan is current where it goes, and has not failed (R367, R378). -/
def chunkCurrent (s : State) (c : Chunk) : Bool := !(s.plan c.plan).ranks.isEmpty && (s.plan c.plan).state ≠ 3

/-- A chunk of a plan that has ended or failed is dropped, and counted by the package that it comes to (R367, R379). -/
def dropStale (n : Nat) (pkg : Nat) (s : State) : State :=
  let s := s.setChunk n none
  if pkg < 8192 then countStale pkg s else s

/-- CHUNK_HOP_VERIFY (R375): a chunk comes to the next point of its path. A link that retrains holds it; over one that has gone down it
is resent, which does not count (R351, R352). Reads `arg.k` (chunk) and `arg.flag` (nothing damaged it on the way). -/
def hopVerify (n : Nat) (ok : Bool) (s : State) : State :=
  match s.chunk n with
  | none => s
  | some c =>
    let src := c.path.getD c.pos (0, 0)
    let dst := c.path.getD (c.pos + 1) (0, 0)
    if linkState s src dst = 1 then s.post .chunkHopVerify { k := n, flag := ok }
    else if linkState s src dst = 0 then s.post .chunkResend { k := n, flag := false }
    else if !chunkCurrent s c && dst.1 < 8192 then dropStale n dst.1 s
    else
    let ok := ok && !s.poison.contains (.router src.1)
    let r := inject c src (unpoison (· = .router src.1) s)
    let c := if ok ∨ r.1.cur ≠ r.1.good then r.1 else { r.1 with cur := flipWord r.1.cur }
    let s := countFlits c dst 0xC1 (countFlits c src 0xC0 r.2)
    if ck64 (words32 c.cur) ≠ ck64 (words32 c.good) then dropChunk n c dst src (charge src s)
    else if c.tick + 2000000 < s.tick ∨ 64 < c.hops + 1 then
      dropChunk n c dst src (if dst.1 < 8192 then s.modPkg dst.1 fun p => { p with plAge := sat p.plAge } else s)
    else if c.path.length ≤ c.pos + 2 then
      if isUnit dst then arrive c.plan c.q c.g c.item c.good (s.setChunk n none)
      else
        let e := inject c dst s
        arrive c.plan c.q c.g c.item e.1.cur (e.2.setChunk n none)
    else (s.setChunk n (some { c with pos := c.pos + 1, hops := c.hops + 1 })).post .chunkHopVerify { k := n }

/-- CHUNK_HOP_VERIFY (R375). -/
def execChunkHopVerify (s : State) : Host.Outcome State Fault Refusal := onEvent s fun s => hopVerify s.arg.k s.arg.flag s

/-- The path of a chunk that its holder resends (R376, R378): over a link that has gone down, another route from the node of the point
that holds it; the port that it was to leave by is its way no more. -/
def resendPath (s : State) (c : Chunk) : Option (List (Nat × Nat) × Nat) :=
  let pt := c.path.getD c.pos (0, 0)
  if linkState s pt (c.path.getD (c.pos + 1) (0, 0)) = 0 then do
    let p := s.plan c.plan
    let tail ← endPoints s p c.q c.g c.item
    let hops ← planRoute s p pt.1 (tail.headD (0, 0)).1
    let keep := if pt.1 < 8192 then c.pos else c.pos + 1
    some (c.path.take keep ++ hops.flatMap Hop.points ++ tail, keep - 1)
  else some (c.path, c.pos)

/-- CHUNK_RESEND (R376). Reads `arg.k` (chunk) and `arg.flag` (the resend counts towards the limit). -/
def resend (n : Nat) (counts : Bool) (s : State) : State :=
  match s.chunk n with
  | none => s
  | some c => if !chunkCurrent s c then dropStale n (c.path.getD c.pos (0, 0)).1 s else match resendPath s c with
    | none => failPlan c.plan 0x06 s
    | some (path, pos) =>
      let s := countPkg (c.path.getD c.pos (0, 0)).1 0xC5 1 s
      (s.setChunk n (some { c with path := path, pos := pos, cur := c.good, sends := c.sends + (if counts then 1 else 0), tick := s.tick })).post
        .chunkHopVerify { k := n }

/-- CHUNK_RESEND (R376). -/
def execChunkResend (s : State) : Host.Outcome State Fault Refusal := onEvent s fun s => resend s.arg.k s.arg.flag s

/-- MERGE_NODE_COMPUTE (R363, R374 to R376): a unit combines the verified inputs of a node and sends its output; a failed
residue check is charged to the unit, which computes again. Reads `arg.k` (plan), `arg.n` (round × 2^32 + group), `arg.j`
(node) and `arg.flag` (the residues agree). -/
def nodeCompute (k q g n : Nat) (ok : Bool) (s : State) : State :=
  let p := s.plan k
  let x := p.grp q g
  let inp (i : Option Nat) : Option (List Nat) := match i with | some i => (x.ins.find? fun e => e.1 = i).map Prod.snd | none => some p.pad
  let i := nodeInputs p.shape (p.members q g).length n
  match inp i.1, inp i.2, unitOf s p q g n with
  | some a, some b, some (pkg, u) =>
    if x.written then s
    else
      let sends := tabGet 1 x.sends n
      let s := countPkg pkg (if p.op = 3 then 0xC8 else 0xC9) 1 s
      if ok then sendChunk k q g (nodeItem n) sends (p.combine a b) s
      else
        let s := charge (pkg, unitCode u) s
        if 4 ≤ sends then chunkFault k q g (nodeItem n) sends pkg (pkg, unitCode u) s
        else (s.modGrp k q g fun x => { x with sends := tabSet 1 x.sends n (sends + 1) }).post .mergeNodeCompute { unit := pkg, k := k, n := q * 2 ^ 32 + g, j := n }
  | some _, some _, none => failPlan k 0x05 s
  | _, _, _ => s

/-- MERGE_NODE_COMPUTE (R363). -/
def execMergeNodeCompute (s : State) : Host.Outcome State Fault Refusal :=
  onEvent s fun s => nodeCompute s.arg.k (s.arg.n / 2 ^ 32) (s.arg.n % 2 ^ 32) s.arg.j s.arg.flag s

/-! ### Rounds (R361, R369, R370) -/

/-- The parts of a plan's ranks that may go on: one event for each. -/
def pokeParts (k : Nat) (s : State) : State :=
  (((s.plan k).ranks.zipIdx).filter fun e => !e.1.trigs.isEmpty || (match e.1.part with | some (_, l) => !l.isEmpty | none => false)).foldl
    (fun s e => s.post .planPartStart { unit := e.1.pkg, k := k, j := e.2 }) s

/-- Iteration `it` of the part under way may be sent (R361, R369): its destination has completed the round before, and a slot
source has its chunk. -/
def maySend (p : Plan) (j it : Nat) : Bool :=
  let r := p.rank j
  decide (p.state ≠ 3) && decide (r.done ≤ (p.rank (p.peer r.done j it)).done) && (p.skind = 0 || r.slots.any fun c => c.slot = it)

/-- The physical bytes of a member's source in memory; none of a slot's. -/
def sourcePas (p : Plan) (q j it : Nat) : List Nat :=
  if p.skind = 1 then [] else (List.range p.len).map fun i => p.pa ((p.src q j it).toNat + i)

/-- The bytes a member sends: from memory, or of the oldest chunk of its slot; none where the source is poisoned (R428). -/
def sourceBytes (s : State) (p : Plan) (q j it : Nat) : Option (List Nat) :=
  if p.skind = 1 then
    match (p.rank j).taken.find? fun e => e.1 = it with
    | some e => some e.2
    | none => ((p.rank j).slots.find? fun c => c.slot = it).map (·.bytes)
  else
    let pas := sourcePas p q j it
    if pas.any (poisonedAt s) then none else some (pas.map fun a => (readByte s a).toNat)

/-- A member's place in its group, as an item. -/
def Plan.itemOf (p : Plan) (q j it : Nat) : Nat × Nat :=
  let g := p.groupOf q (j, it)
  (g, memberItem ((p.members q g).findIdx fun x => x = (j, it)))

/-- A member is read from its source and sent (R374); a poisoned source is the router's data-loss fault, and its group stops. -/
def sendMember (k q j it : Nat) (s : State) : State :=
  let p := s.plan k
  let x := p.itemOf q j it
  match sourceBytes s p q j it with
  | some b => countPkg (p.rank j).pkg 0xC4 1 (sendChunk k q x.1 x.2 1 b s)
  | none =>
    let pas := sourcePas p q j it
    let i := pas.findIdx (poisonedAt s)
    writeRecord (p.rank j).pkg p.ctx { cls := 0x14, agent := 11, task := p.ctx * 2 ^ 48, addr := (p.src q j it).toNat + i, i0 := lossPlace s (pas.getD i 0) }
      (s.modGrp k q x.1 fun y => { y with faults := y.faults ++ [x.2] })

/-- The oldest chunk of a slot is taken by a part: it leaves the core, and its drain is complete (R198, R361). -/
def takeSlot (k j it : Nat) (s : State) : State :=
  let r := (s.plan k).rank j
  match r.slots.find? fun c => c.slot = it with
  | none => s
  | some c =>
    (s.modRank k j fun r => { r with slots := r.slots.erase c, taken := r.taken ++ [(it, c.bytes)] }).post .matrixDrainComplete
      { unit := r.key, k := (c.tl.map (· + 1)).getD 0, n := c.num, v := c.task }

/-- A round of a plan begins with a rank's part: no rank has started its part of that round (R378). -/
def Plan.begins (p : Plan) (j : Nat) : Bool :=
  let r := p.rank j
  r.part.isNone && !r.trigs.isEmpty && p.ranks.all fun x => decide (x.done + (if x.part.isSome then 1 else 0) ≤ r.done)

/-- A plan whose reserved ports no longer hold a route for each of its pairs moves to other routes, under its shares where they fit, else it
takes new ones; with no route it fails (R378). -/
def reroute (k : Nat) (s : State) : State :=
  let p := s.plan k
  if p.state ≠ 2 ∨ (planPorts s p fun h => p.res.contains (h.out, h.outPort)).isSome then s
  else match planPorts s p (roomOn s p) with
    | none => failPlan k 0x06 s
    | some l =>
      let s := (l.filter fun e => !p.res.contains e).foldl (fun s e => moveShare true e s) ((p.res.filter fun e => !l.contains e).foldl (fun s e => moveShare false e s) s)
      s.modPlan k fun x => { x with res := l }

/-- PLAN_PART_START (R361, R369, R370): a waiting trigger starts a rank's part, and a part under way sends its next transfer when the
round gate lets it go and its channels serve it (R295). With `arg.flag` false a faulted member is read again (R377). Reads `arg.k`
(plan), `arg.j` (rank) and then `arg.n` (round × 2^32 + iteration). -/
def partStart (k j : Nat) (s : State) : State :=
  let s := if (s.plan k).begins j then reroute k s else s
  let p := s.plan k
  let r := p.rank j
  let again (s : State) : State := s.post .planPartStart { unit := r.pkg, k := k, j := j }
  if p.ranks.length ≤ j then s
  else match r.part with
    | none =>
      match r.trigs with
      | [] => s
      | t :: rest =>
        if p.state ≠ 2 then s
        else
          let ready := match t.op, (s.core r.key).task with
            | some op, some x => x.id ≠ op.1 || performedBefore x t.seq
            | _, _ => true
          if !ready then again s
          else (s.modRank k j fun r => { r with trigs := rest, part := some (t, List.range p.iters), taken := [] }).post .planPartStart { unit := r.pkg, k := k, j := j }
    | some (t, l) =>
      match l with
      | [] => s
      | it :: rest =>
        if !maySend p j it then s
        else whenServed (sourcePas p r.done j it) again (fun s =>
          let s := if p.skind = 1 then takeSlot k j it s else s
          let s := sendMember k r.done j it (s.modRank k j fun r => { r with part := some (t, rest) })
          if rest.isEmpty then s.post .planPartComplete { unit := r.pkg, k := k, j := j } else again s) s

/-- A faulted member is read from its source again and sent (R377). -/
def memberAgain (k j n : Nat) (s : State) : State :=
  whenServed (sourcePas (s.plan k) (n / 2 ^ 32) j (n % 2 ^ 32)) (·.post .planPartStart { unit := ((s.plan k).rank j).pkg, k := k, j := j, n := n, flag := false })
    (sendMember k (n / 2 ^ 32) j (n % 2 ^ 32)) s

/-- PLAN_PART_START (R369). -/
def execPlanPartStart (s : State) : Host.Outcome State Fault Refusal := 
  onEvent s fun s => if s.arg.flag then partStart s.arg.k s.arg.j s else memberAgain s.arg.k s.arg.j s.arg.n s

/-- A rank's part is complete (R369): everything sent has been read, every group that writes to the rank is written. -/
def partDone (p : Plan) (j : Nat) : Bool :=
  let r := p.rank j
  (match r.part with | some (_, l) => l.isEmpty | none => false) && (p.groupsTo r.done j).all fun g => (p.grp r.done g).written

/-- The scratchpad pages of a rank's core that a round wrote, rising (R370). -/
def roundPages (p : Plan) (q j : Nat) : List Nat :=
  let r := p.rank j
  sortBy (· ≤ ·) (((p.groupsTo q j).flatMap (p.destBytes q)).filterMap fun pa => match regionOf (pa % 2 ^ 45) with
    | .spad n o => if pa / 2 ^ 45 = r.pkg ∧ n = r.core then some (o / 2048) else none
    | _ => none).dedup

/-- A complete part of a rank (R369, R370): tags, then the arrival word and the numbered operation; the next round may start. -/
def endPart (k j : Nat) (s : State) : State :=
  let p := s.plan k
  let r := p.rank j
  let q := r.done
  let s := if p.tw then (roundPages p q j).foldl (fun s g => s.modCore r.key fun c => { c with tags := tabSet 0 c.tags g ((p.tag + q) % 65536) }) s else s
  let s := if r.aword = 0 then s
    else
      let a := p.pa r.aword
      storeCells s (cellsOf a 8 (ofBytes (readBytes s a 8) + 1))
  let s := match r.part with | some (t, _) => dropTrig r.key t s | none => s
  let gs := p.groupsTo q j
  pokeParts k ((s.modRank k j fun r => { r with done := q + 1, part := none, taken := [] }).modPlan k fun p => { p with grps := p.grps.filter fun x => !(x.q = q && gs.contains x.g) })

/-- PLAN_PART_COMPLETE (R369 to R371): the next column of a group that writes to the rank, or the end of the rank's part; each waits for
the channels it reaches (R295). Reads `arg.k` (plan) and `arg.j` (rank). -/
def partComplete (k j : Nat) (s : State) : State :=
  let p := s.plan k
  let r := p.rank j
  let again (s : State) : State := s.post .planPartComplete { unit := r.pkg, k := k, j := j }
  if p.ranks.length ≤ j then s
  else match p.grps.find? fun x => !x.cols.isEmpty && p.peer x.q (x.g / p.iters) (x.g % p.iters) = j with
    | some x => whenServed ((x.column s).map fun i => (p.destBytes x.q x.g).getD i 0) again (fun s => again (writeColumn k x s)) s
    | none =>
      if !partDone p j ∨ p.state = 3 then s
      else whenServed (if r.aword = 0 then [] else [p.pa r.aword]) again (endPart k j) s

/-- PLAN_PART_COMPLETE (R370). -/
def execPlanPartComplete (s : State) : Host.Outcome State Fault Refusal := onEvent s fun s => partComplete s.arg.k s.arg.j s

/-! ### Triggers (R369, R372) -/

/-- A trigger comes to a rank: queued, or dropped beyond 255 (R369). -/
def queueTrig (k j : Nat) (t : Trig) (s : State) : State :=
  let r := (s.plan k).rank j
  let s := countPkg r.pkg 0xD3 1 s
  if 255 ≤ r.trigs.length then dropTrig r.key t (s.modPkg r.pkg fun p => { p with plTovf := sat p.plTovf })
  else (s.modRank k j fun r => { r with trigs := r.trigs ++ [t] }).post .planPartStart { unit := r.pkg, k := k, j := j }

/-- The plan that a trigger value names in a package's table, when the trigger is accepted there (R369). -/
def trigPlan (s : State) (pkg v : Nat) : Option Nat :=
  match planAt s pkg (fld v 15 0) (fld v 23 16) with
  | none => none
  | some k =>
    let p := s.plan k
    if fld v 63 39 ≠ 0 ∨ p.state = 3 ∨ p.state = 4 ∨ (fld v 38 38 = 0 ∧ p.ranks.length ≤ fld v 37 24) then none else some k

/-- PLTRIG_WRITE (R369): checked against the package's own table, and delivered to the package of each rank it names. Reads
`arg.unit` (package) and `arg.v`. -/
def pltrig (pkg v : Nat) (s : State) : State :=
  match trigPlan s pkg v with
  | none => countStale pkg s
  | some k =>
    let p := s.plan k
    let js := if fld v 38 38 = 1 then List.range p.ranks.length else [fld v 37 24]
    js.foldl (fun s j => s.post .planTriggerDelivery { unit := (p.rank j).pkg, k := j, j := pkg, v := v }) s

/-- PLTRIG_WRITE (R369). -/
def execPltrigWrite (s : State) : Host.Outcome State Fault Refusal := onEvent s fun s => pltrig s.arg.unit s.arg.v s

/-- PLAN_TRIGGER_DELIVERY (R369): a trigger reaches a rank's package. Reads `arg.unit` (package), `arg.k` (rank), `arg.v`; `arg.j` is
the package it came through. -/
def execPlanTriggerDelivery (s : State) : Host.Outcome State Fault Refusal :=
  onEvent s fun s => match trigPlan s s.arg.unit s.arg.v with
    | some k => queueTrig k s.arg.k {} s
    | none => countStale s.arg.unit s

/-! ### Set-up (R357 to R360, R365 to R367) -/

/-- A plan's record and rank table as numbers: header and levels, 24 double-words; the table, 4 for each rank. -/
def planRanks (p : Plan) (tab : List Nat) (n : Nat) : List PRank :=
  (List.range n).map fun j =>
    let dw (k : Nat) : Nat := tab.getD (4 * j + k) 0
    { pkg := fld (dw 0) 12 0, core := fld (dw 0) 27 16, sbase := if p.skind = 1 then 0 else fld (dw 1) 55 0, dbase := fld (dw 2) 55 0, aword := fld (dw 3) 55 0 }

/-- The levels of a record (R359). -/
def planLevels (dws : List Nat) (n : Nat) : List PLevel :=
  (List.range n).map fun l =>
    let dw (k : Nat) : Nat := dws.getD (8 + 4 * l + k) 0
    { bound := fld (dw 0) 19 0, sstride := toSigned 32 (fld (dw 1) 31 0), dstride := toSigned 32 (fld (dw 1) 63 32)
      pa := toSigned 16 (fld (dw 2) 15 0), pb := toSigned 16 (fld (dw 2) 31 16), pc := toSigned 16 (fld (dw 2) 47 32) }

/-- The header of a record (R358). -/
def planHeader (dws : List Nat) : Plan :=
  let dw (k : Nat) : Nat := dws.getD k 0
  { op := fld (dw 0) 21 20, shape := fld (dw 0) 22 22, acc := fld (dw 0) 24 24 = 1, skind := fld (dw 0) 25 25, step := fld (dw 0) 26 26 = 1
    tw := fld (dw 0) 27 27 = 1, fmt := fld (dw 0) 35 32, d := fld (dw 0) 48 40, len := fld (dw 1) 12 0, tag := fld (dw 1) 47 32
    seq := fld (dw 2) 31 0, mgen := fld (dw 2) 47 32, bind := fld (dw 2) 48 48 = 1, levels := planLevels dws (fld (dw 0) 17 16 + 1) }

/-- Reserved fields and ranges of header, levels and rank table (R358 to R360): true where all hold. -/
def planFieldsOk (dws tab : List Nat) : Bool :=
  let dw (k : Nat) : Nat := dws.getD k 0
  let n := fld (dw 0) 13 0
  let lv := fld (dw 0) 17 16
  let p := planHeader dws
  decide (1 ≤ n ∧ n ≤ 8192 ∧ fld (dw 0) 15 14 = 0 ∧ fld (dw 0) 19 18 = 0 ∧ fld (dw 0) 23 23 = 0 ∧ fld (dw 0) 31 28 = 0 ∧ fld (dw 0) 39 36 = 0 ∧ fld (dw 0) 63 49 = 0 ∧
    1 ≤ p.len ∧ p.len ≤ 4096 ∧ fld (dw 1) 31 13 = 0 ∧ fld (dw 1) 63 48 = 0 ∧ fld (dw 2) 63 49 = 0 ∧ fld (dw 3) 63 56 = 0 ∧ dw 3 % 32 = 0) &&
  ((dws.drop 4).take 4).all (· = 0) && (dws.drop (8 + 4 * (lv + 1))).all (· = 0) &&
  ((List.range (lv + 1)).all fun l => decide (1 ≤ fld (dw (8 + 4 * l)) 19 0 ∧ fld (dw (8 + 4 * l)) 63 20 = 0 ∧ fld (dw (10 + 4 * l)) 63 48 = 0 ∧ dw (11 + 4 * l) = 0)) &&
  (p.op ≠ 3 || decide (1 ≤ p.d ∧ p.d ≤ 256)) && ((p.op ≠ 1 && p.op ≠ 2) || (redFmt p.fmt).isSome) &&
  (List.range n).all fun j =>
    let t (k : Nat) : Nat := tab.getD (4 * j + k) 0
    decide (fld (t 0) 15 13 = 0 ∧ fld (t 0) 63 28 = 0 ∧ (p.skind = 1 ∨ fld (t 1) 63 56 = 0) ∧ fld (t 2) 63 56 = 0 ∧ fld (t 3) 63 56 = 0)

/-- The layout rules of R268 that R363 applies to len, bases and strides. -/
def planLayoutOk (p : Plan) : Bool :=
  p.op = 0 ||
  (let w := if p.op = 3 then 4 else p.unit
   decide (p.len % p.unit = 0) && (p.levels.all fun l => l.sstride % w = 0 && l.dstride % w = 0) && p.ranks.all fun r => r.sbase % w = 0 && r.dbase % w = 0)

/-- The generation a new plan takes in an ID (R367): none where no value meets both conditions. -/
def newGen (s : State) (home id : Nat) (pkgs : List Nat) : Option Nat :=
  let last := tabGet 0 (s.pkg home).planGen id
  ((List.range 256).map fun i => (last + 1 + i) % 256).find? fun g =>
    pkgs.all fun k => tabGet 0 (s.pkg k).planGen id ≠ g && !((s.pkg k).planFreed.any fun e => e.1 = id && e.2.1 = g && decide (s.tick < e.2.2 + 2000000))

/-- An ID that is free in every package named, with its generation (R365, R367); which one is open (log 4). -/
def freePlanId (s : State) (home : Nat) (pkgs : List Nat) : Option (Nat × Nat) :=
  let first := Config.freeChoice s.nfree % 65536
  (List.range 65536).findSome? fun i =>
    let id := (first + i) % 65536
    if pkgs.any fun k => tabGet 0 (s.pkg k).plans id ≠ 0 then none else (newGen s home id pkgs).map fun g => (id, g)

/-- A plan handle (R357). -/
def handle (rank : Option Nat) (gen id : Nat) : Nat := 2 ^ 63 + rank.getD 0x3FFF * 2 ^ 32 + gen * 2 ^ 16 + id

/-- A handle register that holds no handle, with its reason (R357). -/
def noHandle (reason : Nat) : Nat := reason * 2 ^ 48

/-- A handle register landed with class ld, late where the wait for it is longer (R365, R381). -/
def landH (k v : Nat) : State → State := lateReply (.hreg k (BitVec.ofNat 64 v))

/-- The record read by the home (R365): its header and levels, none where a page is missing. -/
def readHeader (s : State) (va : Nat) : Option (List Nat) := (readVirt s (pkgOf s.cur.core) s.task.ctx va 192).map (wordsOf 8 24)

/-- The rank table that a record names (R360, R365). -/
def readRanks (s : State) (dws : List Nat) : Option (List Nat) :=
  (readVirt s (pkgOf s.cur.core) s.task.ctx (fld (dws.getD 3 0) 55 0) (32 * fld (dws.getD 0 0) 13 0)).map fun b => wordsOf 8 (b.length / 8) b

/-- The record and its rank table, or the status they are refused with (R365, R366): the header is looked at before the table
that it names is read. -/
def readRecord (s : State) (va : Nat) : Except Nat (List Nat × List Nat) :=
  match readHeader s va with
  | none => .error 0x03
  | some dws =>
    if !planFieldsOk dws [] then .error 0x02
    else match readRanks s dws with
      | none => .error 0x03
      | some tab => if planFieldsOk dws tab then .ok (dws, tab) else .error 0x02

/-- `pl.setup` after its alignment check (R365): numbered; refused it is complete at once with a reason; else the plan is
entered everywhere as setting up, and set-up goes on. -/
def setupIssue (n va h : Nat) (s : State) : State :=
  let pkg := pkgOf s.cur.core
  let num := (s.tl n).count + 1
  let s := takeNumber n s
  let refuse (r : Nat) : State := completeNum n num (landH h (noHandle r) s)
  match readRecord s va with
  | .error r => refuse r
  | .ok (dws, tab) =>
    let p := planHeader dws
    let p := { p with ranks := planRanks p tab (fld (dws.getD 0 0) 13 0) }
    if !planLayoutOk p then refuse 0x02
    else
      let p := { p with home := pkg, ctx := s.task.ctx, setup := some (s.cur.core, s.task.id, n, num) }
      if p.pkgs.any fun k => k ≠ pkg && !(s.pkg pkg).reach.contains k then refuse 0x06
      else match freePlanId s pkg p.pkgs with
        | none => refuse 0x01
        | some (id, gen) =>
          let k := s.nplan
          let s := { s with plans := tabSet {} s.plans k { p with id := id, gen := gen }, nplan := k + 1, nfree := s.nfree + 1 }
          let s := p.pkgs.foldl (fun s g => s.modPkg g fun x => { x with plans := tabSet 0 x.plans id k, planGen := tabSet 0 x.planGen id gen }) s
          (landH h (handle (p.rankOf s.cur.core) gen id) s).post .planSetupComplete { unit := pkg, k := k }

/-- `pl.setup` (R365). -/
def execPlSetup (n a k : Nat) (s : State) : Host.Outcome State Fault Refusal :=
  onStream s (reading [a] fun s => if (s.reg a).toNat % 64 ≠ 0 then fault 0x02 0 (s.reg a).toNat s else setupIssue n (s.reg a).toNat k s)

/-- The virtual ranges of a plan: rank, first address, bytes, written (R360). -/
def Plan.ranges (p : Plan) : List (Nat × Int × Nat × Bool) :=
  (List.range p.period).flatMap fun q => p.transfers.flatMap fun x =>
    (if p.skind = 1 then [] else [(x.1, p.src q x.1 x.2, p.len, false)]) ++ [(p.peer q x.1 x.2, p.dst q x.1 x.2, p.len, true)]

/-- The frame of a page of a plan's range, or nothing where R360 or R366 (0x0A) refuses it. -/
def planFrame (s : State) (p : Plan) (r : PRank) (vpn : Nat) (write arrival : Bool) : Option Nat :=
  match walk s p.home p.ctx (vpn * 2 ^ 16) with
  | .error _ => none
  | .ok g =>
    let place := match regionOf (g.pa % 2 ^ 45) with
      | .hbm => true
      | .spad n _ => n = r.core || arrival
      | _ => false
    if pteCf g.pte || pteCmp g.pte || (write && !pteW g.pte) || (!arrival && (g.pa / 2 ^ 45 ≠ r.pkg || !place)) then none else some g.pa

/-- The frames of every page that a plan names (R360); none where one is refused. -/
def planFrames (s : State) (p : Plan) : Option (Tab Nat) :=
  let data := (p.ranges.flatMap fun e =>
    if e.2.1 < 0 ∨ (2 ^ 56 : Int) < e.2.1 + e.2.2.1 then [(e.1, 2 ^ 60, e.2.2.2, false)]
    else
      let a := e.2.1.toNat
      (List.range ((a + e.2.2.1 - 1) / 2 ^ 16 - a / 2 ^ 16 + 1)).map fun i => (e.1, a / 2 ^ 16 + i, e.2.2.2, false)).dedup
  let words := ((p.ranks.zipIdx).filter fun e => e.1.aword ≠ 0).map fun e => (e.2, if e.1.aword % 8 = 0 then e.1.aword / 2 ^ 16 else 2 ^ 60, true, true)
  (data ++ words).foldl (fun (t : Option (Tab Nat)) e => do
    let t ← t
    let f ← planFrame s p (p.rank e.1) e.2.1 e.2.2.1 e.2.2.2
    some (tabSet 0 t e.2.1 f)) (some [])

/-- The physical pieces that a round's groups write, by address (R362). -/
def Plan.pieces (p : Plan) (q : Nat) : List (Nat × Nat) :=
  let firsts := p.transfers.filter fun x => p.groupOf q x = x.1 * p.iters + x.2
  sortBy (fun a b => a.1 ≤ b.1) (firsts.flatMap fun x =>
    let a := (p.dst q x.1 x.2).toNat
    let cut := min p.len (2 ^ 16 - a % 2 ^ 16)
    (p.pa a, cut) :: (if cut < p.len then [(p.pa (a + cut), p.len - cut)] else []))

/-- Two pieces in order overlap. -/
def overlapGo : List (Nat × Nat) → Bool
  | a :: b :: t => decide (b.1 < a.1 + a.2) || overlapGo (b :: t)
  | _ => false

/-- A drain can meet the slots of a plan (R197, R361): whole rows of FP32 or BF16. -/
def slotsOk (p : Plan) : Bool :=
  p.skind = 0 ||
  ([(0, 128), (1, 64)].any fun e => ((p.op = 0 || p.op = 3) || p.fmt = e.1) && p.len % e.2 = 0 && decide (p.len ≤ 32 * e.2))

/-- The statuses for which step 4 of a set-up fails (R366), each with its condition. A plan takes one sixty-fourth of each
port on its routes (log 14). -/
def setupStatuses (s : State) (p : Plan) : List Nat :=
  if 2 ^ 24 < p.iters * p.ranks.length then [0x09]
  else
    let groups := (List.range p.period).any fun q => decide (2 ^ 20 < (p.transfers.map (p.groupOf q)).dedup.length)
    let noUnit := p.op ≠ 0 && (List.range p.period).any fun q => p.transfers.any fun x =>
      1 < (p.members q (p.groupOf q x)).length && (unitOf s p q (p.groupOf q x) 1).isNone
    let fr := planFrames s p
    let routes := (planPorts s p fun _ => true).isSome
    let gen := (s.seq p.seq).map (·.gen)
    [(0x04, routes && (planPorts s p (roomOn s p)).isNone), (0x05, noUnit), (0x06, !routes || p.pkgs.any fun k => k ≠ p.home && !(s.pkg p.home).reach.contains k),
     (0x07, p.bind && gen ≠ some p.mgen),
     (0x08, (p.ranks.map (·.key)).dedup.length ≠ p.ranks.length ||
       (match fr with | some f => (List.range p.period).any fun q => overlapGo ({ p with frames := f }.pieces q) | none => false)),
     (0x09, groups), (0x0A, fr.isNone || !slotsOk p)].filterMap fun e => if e.2 then some e.1 else none

/-- PLAN_SETUP_COMPLETE (R365, R366): set-up ends ready or failed; several failures leave open which status it has (log 4).
Reads `arg.k` (plan). -/
def setupComplete (k : Nat) (s : State) : State :=
  let p := s.plan k
  if p.ranks.isEmpty ∨ p.state ≠ 1 then s
  else
    let r := anyStatus (setupStatuses s p) s
    let op (s : State) : State := match p.setup with | some o => completeOp o.1 o.2 s | none => s
    if (setupStatuses s p).isEmpty then
      let ports := (planPorts s p (roomOn s p)).getD []
      let s := ports.foldl (fun s e => moveShare true e s) s
      pokeParts k (op (s.modPlan k fun x => { x with state := 2, frames := (planFrames s p).getD [], res := ports, setup := none }))
    else dropTrigs k (op (r.2.modPlan k fun x => { x with state := 3, status := r.1, setup := none }))

/-- PLAN_SETUP_COMPLETE (R365). -/
def execPlanSetupComplete (s : State) : Host.Outcome State Fault Refusal := onEvent s fun s => setupComplete s.arg.k s

/-! ### The other `pl` instructions (R368, R377, R381 to R384) -/

/-- A plan handle register. -/
def State.h (s : State) (k : Nat) : Nat := (s.task.h.getD k 0).toNat

/-- The plan of a handle register: v = 1, current in the executing package, of the task's context (R384). -/
def handlePlan (s : State) (k : Nat) : Option Nat :=
  let w := s.h k
  if fld w 63 63 = 0 then none
  else match planAt s (pkgOf s.cur.core) (fld w 15 0) (fld w 23 16) with
    | some n => if (s.plan n).ctx = s.task.ctx then some n else none
    | none => none

/-- A plan fault (R384). -/
def planFault (reason : Nat) : State → State := fault 0x11 reason 0

/-- `pl.fire` (R369, R382, R384). -/
def fireIssue (n k : Nat) (s : State) : State :=
  match handlePlan s k with
  | none => planFault 0x01 s
  | some x =>
    let p := s.plan x
    match p.rankOf s.cur.core with
    | none => planFault 0x02 s
    | some j =>
      if p.state = 3 ∨ p.state = 4 then planFault 0x04 s
      else queueTrig x j { op := some (s.task.id, n, (s.tl n).count + 1), seq := s.task.c.seq } (takeNumber n s)

/-- `pl.fire` (R382). -/
def execPlFire (n k : Nat) (s : State) : Host.Outcome State Fault Refusal := onStream s (readingFile 1 [k] (fireIssue n k))

/-- `pl.free` (R368): numbered; the plan ends in every peer, and the operation is complete. -/
def freeIssue (n k : Nat) (s : State) : State :=
  match handlePlan s k with
  | none => planFault 0x01 s
  | some x =>
    let num := (s.tl n).count + 1
    (endPlan x (takeNumber n s)).post .timelineMarkAdvance { unit := s.cur.core, k := n, n := num, v := s.task.id }

/-- `pl.free` (R368). -/
def execPlFree (n k : Nat) (s : State) : Host.Outcome State Fault Refusal := onStream s (readingFile 1 [k] (freeIssue n k))

/-- The entry `pl.stat` samples (R383). The least count over no ranks is not stated (log 4). -/
def planStat (s : State) (k : Nat) : Nat :=
  let w := s.h k
  if fld w 63 63 = 0 then fld w 55 48 * 2 ^ 56
  else match planAt s (pkgOf s.cur.core) (fld w 15 0) (fld w 23 16) with
    | none => 0
    | some n =>
      let p := s.plan n
      let mine := (p.ranks.filter fun r => r.pkg = pkgOf s.cur.core).map (·.done)
      let rounds := match p.rankOf s.cur.core with
        | some j => (p.rank j).done
        | none => match mine with
          | [] => (Config.freeValue s.nfree).toNat
          | x :: t => t.foldl min x
      p.status * 2 ^ 56 + p.state * 2 ^ 52 + p.flt * 2 ^ 32 + rounds % 2 ^ 32

/-- `pl.stat` (R383). -/
def execPlStat (d k : Nat) (s : State) : Host.Outcome State Fault Refusal :=
  onStream s (readingFile 1 [k] fun s => landReply d (planStat s k) { s with nfree := s.nfree + 1 })

/-- `pl.redo` after its checks (R377): a group of the current round with an outstanding fault at or above the member is run again
from the member's source, which the router reads at its own place of the wall cycle (R422). -/
def redoRun (x n j it num : Nat) (s : State) : State :=
  let p := s.plan x
  let done := s.post .timelineMarkAdvance { unit := s.cur.core, k := n, n := num, v := s.task.id }
  let hit := p.grps.find? fun y => !y.faults.isEmpty && (p.members y.q y.g).contains (j, it) &&
    (let up := pathUp p.shape (p.members y.q y.g).length (p.members y.q y.g).length (p.itemOf y.q j it).2
     y.faults.any fun f => up.contains f)
  match hit with
  | none => done
  | some y =>
    let up := pathUp p.shape (p.members y.q y.g).length (p.members y.q y.g).length (p.itemOf y.q j it).2
    let s := s.modGrp x y.q y.g fun y =>
      { y with faults := y.faults.filter fun f => !up.contains f, redos := y.redos ++ [(s.cur.core, s.task.id, n, num)]
               ins := y.ins.filter fun e => !up.contains e.1, sends := y.sends.filter fun e => !up.contains (nodeItem e.1) }
    s.post .planPartStart { unit := (p.rank j).pkg, k := x, j := j, n := y.q * 2 ^ 32 + it, flag := false }

/-- `pl.redo` (R377, R384). -/
def redoIssue (n a k : Nat) (s : State) : State :=
  let za := (s.reg a).toNat
  match handlePlan s k with
  | none => planFault 0x01 s
  | some x =>
    let p := s.plan x
    if p.state = 3 ∨ p.state = 4 then planFault 0x04 s
    else if fld za 15 14 ≠ 0 ∨ fld za 63 40 ≠ 0 ∨ p.ranks.length ≤ fld za 13 0 then planFault 0x05 s
    else redoRun x n (fld za 13 0) (fld za 39 16) ((s.tl n).count + 1) (takeNumber n s)

/-- `pl.redo` (R377). -/
def execPlRedo (n a k : Nat) (s : State) : Host.Outcome State Fault Refusal := onStream s (reading [a] (readingFile 1 [k] (redoIssue n a k)))

/-- `pl.geth` (R381). -/
def execPlGeth (d k : Nat) (s : State) : Host.Outcome State Fault Refusal :=
  onStream s (readingFile 1 [k] fun s => result 14 (.regs [(d, BitVec.ofNat 64 (s.h k))]) 0 s)

/-- `pl.seth` (R382, R384). -/
def sethIssue (a k : Nat) (s : State) : State :=
  let za := (s.reg a).toNat
  if fld za 63 24 ≠ 0 then planFault 0x05 s
  else match planAt s (pkgOf s.cur.core) (fld za 15 0) (fld za 23 16) with
    | some n => if (s.plan n).ctx = s.task.ctx then landH k (handle ((s.plan n).rankOf s.cur.core) (s.plan n).gen (s.plan n).id) s else landH k (noHandle 0x0C) s
    | none => landH k (noHandle 0x0C) s

/-- `pl.seth` (R382). -/
def execPlSeth (a k : Nat) (s : State) : Host.Outcome State Fault Refusal := onStream s (reading [a] (sethIssue a k))

/-! ### Flits, lanes and routes (R351 to R353, R378, R468) -/

/-- FLIT_RECEIVE (R351): a flit that fails its check is replayed; after 16 replays in a row the port retrains,
and both ends of its link hold their traffic. Reads
`arg.unit` (package), `arg.k` (port), `arg.flag` (the check passes). -/
def flitReceive (pkg k : Nat) (ok : Bool) (s : State) : State :=
  let s := countPkg pkg 0xC1 1 s
  if ok then s.modPort pkg k fun p => { p with replays := 0 }
  else
    let s := countPkg pkg 0xC2 1 s
    if 16 ≤ (s.port pkg k).replays then
      (countPkg pkg 0xC3 1 ((s.modPort pkg k fun p => { p with replays := 0, ev := sat p.ev }).modLink (pkg, k) fun p => { p with state := 1 })).post .routeRecovery { unit := pkg, j := k, k := (s.port pkg k).peer }
    else s.modPort pkg k fun p => { p with replays := p.replays + 1 }

/-- FLIT_RECEIVE (R351). -/
def execFlitReceive (s : State) : Host.Outcome State Fault Refusal := onEvent s fun s => flitReceive s.arg.unit s.arg.k s.arg.flag s

/-- A port goes down with the end of its link at the peer (R352): the flits on it are ended, and their chunks resent, which does not
count. -/
def portDown (pkg k : Nat) (s : State) : State :=
  let far := (s.port pkg k).peer
  let s := s.modLink (pkg, k) fun p => { p with state := 0, width := 0, down := true }
  let s := if far < 8192 then spared far s else s
  let hit := s.chunks.filter fun c => linkState s (c.2.path.getD c.2.pos (0, 0)) (c.2.path.getD (c.2.pos + 1) (0, 0)) = 0
  let s := { s with agenda := s.agenda.filter fun e => !(e.1 = .chunkHopVerify && hit.any fun c => c.1 = e.2.k) }
  refreshReach (hit.foldl (fun s c => s.postOnce .chunkResend { k := c.1, flag := false }) s)

/-- LANE_FAILURE (R352): the spare takes the position, then the port narrows, then goes down; a port in training as one that is up. Reads
`arg.unit` (package) and `arg.k` (port). -/
def laneFailure (pkg k : Nat) (s : State) : State :=
  let p := s.port pkg k
  if p.state = 0 then s
  else
    let w := if p.width = 0 then 4 else p.width
    let s := countPkg pkg 0xC3 1 s
    let s := if !p.spu then s.modPort pkg k fun p => { p with spu := true, ev := sat p.ev }
      else if 2 < w then s.modPort pkg k fun p => { p with width := w - 1, state := if p.state = 1 then 1 else 3, ev := sat p.ev }
      else portDown pkg k s
    spared pkg s

/-- LANE_FAILURE (R352). -/
def execLaneFailure (s : State) : Host.Outcome State Fault Refusal := onEvent s fun s => laneFailure s.arg.unit s.arg.k s

/-- An end of a link that has finished training (R352, R353). -/
def Port.trained (p : Port) : Port :=
  { p with width := if p.width = 0 then 4 else p.width, state := if p.width = 2 ∨ p.width = 3 then 3 else 2, down := false, fresh := false }

/-- ROUTE_RECOVERY (R353, R468): a fabric port's link finishes training (`arg.flag`, port `arg.j`), or a route to a member is up again
(`arg.k`): the reachability tables follow. Reads `arg.unit` (package). -/
def routeRecovery (pkg k j : Nat) (port : Bool) (s : State) : State :=
  let s := if port then
      if (s.port pkg j).peer < 8192 ∧ !(s.pkg (s.port pkg j).peer).on then s else refreshReach (s.modLink (pkg, j) Port.trained)
    else s
  if k = pkg ∨ !s.members.contains k then s
  else s.modPkg pkg fun p => { p with reach := if p.reach.contains k then p.reach else p.reach ++ [k] }

/-- ROUTE_RECOVERY (R468). -/
def execRouteRecovery (s : State) : Host.Outcome State Fault Refusal := onEvent s fun s => routeRecovery s.arg.unit s.arg.k s.arg.j s.arg.flag s

end Sys2Proof.Machine
end

