-- ==== Sys2Proof/Machine/Image.lean ====
section
/-!
DEFINITION. Sys2Proof/Machine/Image.lean: code images as the dispatcher checks them: header, tables, SHA3-512 digest (R81, R82,
R421).
-/

namespace Sys2Proof.Machine

/-! ### SHA3-512 (R81) -/

/-- A lane of the 1600-bit string: column x = i mod 5 of row i div 5. -/
def shaLane (a : List Word64) (i : Nat) : Word64 := a.getD i 0

/-- Every lane takes the parity of the column before its own and, turned by one bit, that of the column after it. -/
def mixColumns (a : List Word64) : List Word64 :=
  let parity := (List.range 5).map fun x => (List.range 5).foldl (fun w y => w ^^^ shaLane a (5 * y + x)) 0
  (a.zipIdx).map fun e => e.1 ^^^ shaLane parity ((e.2 + 4) % 5) ^^^ (shaLane parity ((e.2 + 1) % 5)).rotateLeft 1

/-- The 24 lanes beside lane 0 move along one cycle, from (x, y) to (y, 2x + 3y) beginning at (1, 0); the t-th of them is turned by
the triangular number of t + 1. -/
def turnLanes (a : List Word64) : List Word64 :=
  ((List.range 24).foldl (fun (r : Nat × List Word64) t =>
    let next := r.1 / 5 + (2 * (r.1 % 5) + 3 * (r.1 / 5)) % 5 * 5
    (next, r.2.set next ((shaLane a r.1).rotateLeft ((t + 1) * (t + 2) / 2 % 64)))) (1, a)).2

/-- Every lane takes, where its right neighbour in the row is 0, the bits of the one after that. -/
def mixRows (a : List Word64) : List Word64 :=
  (a.zipIdx).map fun e => e.1 ^^^ (shaLane a (e.2 / 5 * 5 + (e.2 + 2) % 5) &&& ~~~ shaLane a (e.2 / 5 * 5 + (e.2 + 1) % 5))

/-- A round's constant from its shift register: bit 2^j − 1 is the j-th of seven output bits. The register is of 8 bits with the
polynomial x^8 + x^6 + x^5 + x^4 + 1. -/
def roundBits (reg : Nat) : Nat × Nat :=
  (List.range 7).foldl (fun r j => (r.1 + r.2 % 2 * 2 ^ (2 ^ j - 1), if r.2 < 128 then 2 * r.2 else (2 * r.2 - 256) ^^^ 0x71)) (0, reg)

/-- A round, with the shift register that its constant comes from. -/
def shaRound (r : List Word64 × Nat) : List Word64 × Nat :=
  let k := roundBits r.2
  match mixRows (turnLanes (mixColumns r.1)) with
  | [] => ([], k.2)
  | x :: l => ((x ^^^ BitVec.ofNat 64 k.1) :: l, k.2)

/-- The permutation: 24 rounds. -/
def shaPermute (a : List Word64) : List Word64 := ((List.range 24).foldl (fun r _ => shaRound r) (a, 1)).1

/-- Blocks of nine double-words taken into the first nine lanes, each followed by the permutation. -/
def shaTake : Nat → List Nat → List Word64 → List Word64
  | 0, _, a => a
  | n + 1, ws, a => shaTake n (ws.drop 9) (shaPermute ((a.zipIdx).map fun e => if e.2 < 9 then e.1 ^^^ BitVec.ofNat 64 (ws.getD e.2 0) else e.1))

/-- The SHA3-512 digest of bytes, as its public standard gives it (PRESUMED, log 36; R81 names the function only): the message ends with a byte 0x06, zeros up to a multiple of 72 bytes, and the top bit of the last. -/
def sha3_512 (m : List Nat) : List Nat :=
  let n := m.length / 72 + 1
  let last := n * 72 - 1
  let padded := (List.range (n * 72)).map fun i => m.getD i 0 + (if i = m.length then 6 else 0) + if i = last then 128 else 0
  ((shaTake n (wordsOf 8 (9 * n) padded) (List.replicate 25 0)).take 8).flatMap fun x => toBytes 8 x.toNat

/-! ### Images (R81, R82) -/

/-- A field of an image of n bytes at an offset. -/
def imgField (img : List Nat) (o n : Nat) : Nat := ofBytes ((img.drop o).take n)

/-- What the header of an image names: the regions of the four streams and the data, as offset and length. -/
def imgRegions (img : List Nat) : List (Nat × Nat) :=
  ((List.range 4).map fun k => (imgField img (0x10 + 8 * k) 4, imgField img (0x14 + 8 * k) 4)) ++ [(imgField img 0x5C 4, imgField img 0x60 4)]

/-- The size that the header gives. -/
def imgSize (img : List Nat) : Nat := imgField img 0x08 4

/-- The entry point of a stream. -/
def imgEntry (img : List Nat) (k : Nat) : Nat := imgField img (0x30 + 4 * k) 4

/-- Two regions with bytes overlap. -/
def regionsMeet (a b : Nat × Nat) : Bool := decide (a.2 ≠ 0 ∧ b.2 ≠ 0 ∧ a.1 < b.1 + b.2 ∧ b.1 < a.1 + a.2)

/-- No two of a list's regions overlap. -/
def apart : List (Nat × Nat) → Bool
  | [] => true
  | a :: t => !(t.any (regionsMeet a)) && apart t

/-- The vesper entries of an image, eight double-words each (R421). -/
def imgVesper (img : List Nat) : List (List Nat) :=
  (List.range (imgField img 0x58 4)).map fun i => (List.range 8).map fun k => imgField img (imgField img 0x54 4 + 64 * i + 8 * k) 8

/-- n rises strictly. -/
def rising : List Nat → Bool
  | a :: b :: t => decide (a < b) && rising (b :: t)
  | _ => true

/-- A word is `vesper n`, whatever its guard. -/
def isVesper (w n : Nat) : Bool := match decode .s w with | .ok (.vesper _ i) => i = n | _ => false

/-- A vesper entry obeys R421. -/
def vesperOk (img : List Nat) (e : List Nat) : Bool :=
  let dw (k : Nat) : Nat := e.getD k 0
  let off := fld (dw 0) 63 32
  let s := (imgRegions img).headD (0, 0)
  fld (dw 0) 31 15 = 0 && dw 3 / 2 ^ 16 = 0 && decide (off % 4 = 0 ∧ off + 4 ≤ s.2) && isVesper (imgField img (s.1 + off) 4) (fld (dw 0) 14 0) &&
  (List.range 4).all fun k =>
    let w := dw (4 + k)
    fld w 31 19 = 0 && fld w 63 52 = 0 && (fld w 51 32 = 0 || decide (fld w 18 0 + fld w 51 32 ≤ imgField img 0x48 4))

/-- The dispatcher accepts an image (R82, R421). DESIGN CHOICE (log 34): a region of length 0 lies nowhere outside the image, whatever its
offset. -/
def imageOk (img : List Nat) : Bool :=
  let size := imgSize img
  let code := (imgRegions img).take 4
  let inside (o n : Nat) : Bool := decide (o + n ≤ size)
  let st := imgField img 0x4C 4
  let vt := imgField img 0x54 4
  let vn := imgField img 0x58 4
  decide (img.length = size ∧ imgField img 0 4 = 0x4E5A4A38 ∧ imgField img 4 2 = 0x0300 ∧ imgField img 0x0C 4 = 256 ∧ imgField img 6 2 < 2) &&
  decide (256 ≤ size ∧ size ≤ 0xFFFFFFC0 ∧ size % 64 = 0) &&
  (code.all fun r => r.1 % 64 = 0 && r.2 % 4 = 0) && ((imgRegions img).all fun r => r.2 = 0 || inside r.1 r.2) && apart (imgRegions img) &&
  ((List.range 4).all fun k =>
    let n := (code.getD k (0, 0)).2
    let e := imgEntry img k
    if n = 0 then e = 0 else decide (e % 4 = 0 ∧ e < n)) &&
  ((List.range 16).all fun k => imgField img 0x40 8 / 16 ^ k % 16 ≠ 0) && decide (imgField img 0x48 4 ≤ 524288) &&
  (st = 0 || (st % 4 = 0 && inside st 256 && (List.range 64).all fun k => decide (imgField img (st + 4 * k) 2 ≤ imgField img (st + 4 * k + 2) 2))) &&
  decide (imgField img 0x50 1 ≤ 16 ∧ imgField img 0x51 1 ≤ 16) && imgField img 0x52 2 = 0 && ((img.drop 0x64).take 92).all (· = 0) &&
  (decide (imgField img 6 2 = 1) == decide (vn ≠ 0)) && (vn = 0 || inside vt (64 * vn)) &&
  rising ((imgVesper img).map fun e => fld (e.getD 0 0) 14 0) && (imgVesper img).all (vesperOk img) &&
  sha3_512 (img.take 0xC0 ++ List.replicate 64 0 ++ img.drop 0x100) = (img.drop 0xC0).take 64

/-- Virtual bytes for an agent of a package, none of which may be poisoned: none where a page is missing or a unit is poisoned. -/
def readClean (s : State) (pkg ctx va n : Nat) : Option (List Nat) :=
  if s.poison.isEmpty then readVirt s pkg ctx va n
  else if (List.range n).any fun i => match walk s pkg ctx (va + i) with | .ok p => !pteCf p.pte && poisonedAt s p.pa | .error _ => true then none
  else readVirt s pkg ctx va n

/-- The image of a launch read through the context's translation; none where it cannot be read or is refused (R82, R397). -/
def readImage (s : State) (pkg ctx va : Nat) : Option (List Nat) := do
  let h ← readClean s pkg ctx va 256
  let size := imgSize h
  if size < 256 ∨ 0xFFFFFFC0 < size then none
  else
    let img ← readClean s pkg ctx va size
    if imageOk img then some img else none

end Sys2Proof.Machine
end

