-- ==== Sys2Proof/Machine/Turn.lean ====
section
/-!
DEFINITION. Sys2Proof/Machine/Turn.lean: a stream's turn around the instruction it issues: results land, freezes hold,
the word is fetched and decoded (R57 to R60, R90 to R101), and a task's streams as they begin (R107).
-/

namespace Sys2Proof.Machine

/-! ### A task as it begins -/

/-- Scalar registers of a stream (R63, R107). -/
def regCount : StreamId → Nat
  | .s => 64 | .v => 16 | .c => 16 | .m => 0

/-- A stream at task start (R107): idle where its region has no words. -/
def freshStream (k : StreamId) (off len entry : Nat) : Stream :=
  { regs := List.replicate (regCount k) 0, b := List.replicate 8 0, lc := [{}, {}], pc := entry
    status := if len = 0 then .idle else .running, regOff := off, regLen := len }

/-- The registers of a task as they begin (R107, R128, R139, R151, R153, R163, R179, R181, R202, R217, R258, R357). -/
def freshTask (t : Task) : Task :=
  { t with
    cause := 0
    sems := if t.sems.isEmpty then List.replicate 64 {} else t.sems
    pnow := true :: List.replicate 15 false
    pview := List.replicate 4 (true :: List.replicate 15 false)
    tls := List.replicate 16 {}
    mine := List.replicate 16 none
    ch := (List.range 4).map fun k => { tl := k }
    h := List.replicate 8 0
    q := List.replicate 32 0
    d := List.replicate 8 0
    acc := List.replicate 8 (List.replicate 1024 0) }

/-! ### Instruction fetch -/

/-- The virtual address of a stream's fetch (R81, R102). -/
def fetchVa (s : State) : Nat := s.task.image + s.str.regOff + s.str.pc

/-- The instruction cache's name of a 64-byte line of a context. -/
def icKey (ctx va : Nat) : Nat := ctx * 2 ^ 64 + va / 64

/-- A word of a line's contents. -/
def icWord (line va : Nat) : Nat := line / 2 ^ (8 * (va % 64 / 4 * 4)) % 2 ^ 32

/-- What the fetch of the next word finds (R59, R95). -/
inductive Fetch where
  | outside
  | absent
  | lost
  | word (w : Nat)
  deriving DecidableEq, Repr

/-- The fetch of the executing stream's next word. -/
def fetch (s : State) : Fetch :=
  let x := s.str
  if x.pc % 4 ≠ 0 ∨ x.regLen < x.pc + 4 then .outside
  else
    let va := fetchVa s
    match s.curCore.icache.find? fun l => l.1 = icKey s.task.ctx va with
    | none => .absent
    | some l => if s.poison.contains (.icache s.cur.core (va / 8)) then .lost else .word (icWord l.2 va)

/-- The executing stream is frozen for the fetch of its next word. -/
def wantsFetch (s : State) : Bool :=
  let x := s.str
  x.status = .running && x.frozen.isSome && !x.redo && x.occ.isNone && fetch s = .absent

/-- A fetch is asked for, unless one is on its way. -/
def askFetch (s : State) : State :=
  if s.agenda.any fun e => e.1 = .unplannedRequestTimeout ∧ e.2.j = 5 ∧ e.2.unit = s.cur.core ∧ e.2.st = s.cur.st then s
  else s.postOnce .instructionFetchFill { unit := s.cur.core, st := s.cur.st }

/-- The clock throttle freezes every stream of a package in this wall cycle (R95, R441): `clk` cycles of each 64; which ones is
open (log 4). -/
def throttled (s : State) (pkg : Nat) : Bool := decide (0 < (s.pkg pkg).power.clk) && decide ((s.wall % 64 + Config.freeChoice (s.wall / 64)) % 64 < (s.pkg pkg).power.clk)

/-- The executing stream wants a word that is not in the instruction cache. -/
def fetchMiss (s : State) : Bool := s.str.occ.isNone && fetch s = .absent

/-- The causes for which the executing stream cannot issue in this wall cycle, whatever its word is (R95, R96): a word that is not
there, results that are late, the throttle. -/
def issueCauses (s : State) : List Nat :=
  (if fetchMiss s then [0x1] else []) ++ (lateCause s.str).toList ++ (if throttled s (pkgOf s.cur.core) then [0xD] else [])

/-- The stream is about to execute an instruction: nothing holds it in this attempt. -/
def holding (i : Instr) (s : State) : State := s.modStr fun x => { x with held := some i, frozen := none }

/-- The stream stays frozen, or freezes for the lowest cause that begins now (R96). -/
def staysFrozen (c : Nat) (s : State) : State := s.modStr fun x => { x with frozen := some (x.frozen.getD c) }

/-- The next word of a stream that nothing keeps from issuing (R57, R59, R91): it is fetched and decoded, and the results due land.
Outside its region there is no word, and the record of subcause 0x07 holds 0 for it (DESIGN CHOICE, log 19: R59 and R423 name none). -/
def nextWord (s : State) : Except State (Instr × State) :=
  match s.str.occ with
  | some o => .ok (o.ins, holding o.ins (landDue s))
  | none =>
    match fetch s with
    | .outside => .error (endCycle s.str.frozen (illegal .c07 (s.modStr fun x => { x with word := 0 })))
    | .lost => .error (endCycle s.str.frozen (dataLoss 2 (fetchVa s) s))
    | .absent => .error s
    | .word w =>
      let s := s.modStr fun x => { x with word := w }
      match decode s.cur.st w with
      | .error c => .error (endCycle s.str.frozen (illegal c s))
      | .ok i => .ok (i, holding i (landDue s))

/-- The M stream has stopped for lost operand data, and its other results land at their due cycles (R191). -/
def State.landsOn (s : State) : Bool :=
  s.cur.st = .m && s.str.phase = 1 && s.str.occ.isNone && match s.str.status with | .stopped _ .never => true | _ => false

/-- A stream's turn up to its instruction (R90 to R101): the instruction with the state to execute it in, or the state in
which the turn ends without one. The state given has `frozen` clear; `was` of endTurn is what it was. -/
def beginTurn (s : State) : Except State (Instr × State) :=
  let x := s.str
  if s.task.halt.isSome || decide (s.tick < s.task.start) then .error s
  else match x.status with
  | .running =>
    match (if x.redo then x.held else none) with
    | some i => if throttled s (pkgOf s.cur.core) then .error (staysFrozen 0xD s) else .ok (i, holding i s)
    | none => match (issueCauses s).min? with
      | some c => .error (staysFrozen c (if fetchMiss s then askFetch s else s))
      | none => nextWord s
  | .ended =>
    if x.flights.isEmpty || (lateCause x).isSome || throttled s (pkgOf s.cur.core) then .error s
    else .error ((landDue s).modStr fun x => { x with cyc := x.cyc + 1 })
  | _ =>
    if !s.landsOn || x.flights.isEmpty || (lateCause x).isSome || throttled s (pkgOf s.cur.core) then .error s
    else .error ((landDue s).modStr fun x => { x with cyc := x.cyc + 1 })

/-- The word of a stream that begins in this wall cycle to be kept from issuing, tried beside the causes that keep it (R96). -/
def triedWord (s : State) : Option (Instr × State) :=
  if s.str.frozen.isSome || s.str.status != .running || s.task.halt.isSome || decide (s.tick < s.task.start) then none
  else match (if s.str.redo then s.str.held else none) with
    | some i => some (i, holding i s)
    | none => match nextWord s with
      | .ok r => some r
      | .error _ => none

/-- The freeze that begins in state s records the lowest of its cause and the one that the tried word has met in t (R96). -/
def lowestCause (t s : State) : State :=
  match t.str.frozen with
  | some c => if t.str.status = .running && t.str.redo == s.str.redo then s.modStr fun x => { x with frozen := x.frozen.map (min c) } else s
  | none => s

/-- What a failed check of an instruction stops after its issue cycle (R101, R131): accesses to memory and scratchpad, and signals. -/
def isAccess : Instr → Bool
  | .ld .. | .ldC .. | .st .. | .stC .. | .ldsp .. | .stsp .. | .ldAcq .. | .stRel .. | .scLd .. | .scSt .. | .sysArg .. | .semSig ..
  | .amAddW .. | .amSwapW .. | .amCasW .. | .amAndW .. | .amOrW .. | .amXorW .. | .amMaxW .. | .amMinW ..
  | .amAddD .. | .amSwapD .. | .amCasD .. | .amAndD .. | .amOrD .. | .amXorD .. | .amMaxD .. | .amMinD .. => true
  | _ => false

/-- The executing word's failure stops its stream before it has issued (R101); an SC access without hours is one (R226). -/
def stopsBefore (s : State) : Bool :=
  match s.str.held with
  | some (.scLd _ _ _ _ x _) | some (.scSt _ _ _ _ x _) => (s.task.hours (x = 1)).isEmpty
  | some i => !isAccess i
  | none => true

/-- The word of this turn has not issued: its stream is held, or stopped, before the cycle (R94, R95, R101). -/
def notIssued (s : State) : Bool :=
  !s.str.redo && match s.str.status with
    | .running => s.str.frozen.isSome
    | .stopped _ .never => stopsBefore s
    | _ => false

/-- A cycle that has not come: what would have landed in it is pending still (R94, R101). -/
def unland (old s : State) : State :=
  if (dueFlights old.str).isEmpty then s
  else
    let o := old.task
    let s := (s.modTask fun t => { t with pnow := o.pnow, pview := o.pview, pprop := o.pprop, q := o.q, d := o.d, acc := o.acc, stg := o.stg, h := o.h }).modStr fun x =>
      { x with regs := old.str.regs, b := old.str.b, fflags := old.str.fflags, flights := old.str.flights }
    { s.modCore s.cur.core fun c => { c with spad := old.curCore.spad } with poison := old.poison }

/-- A stream's turn after its instruction (R94 to R96, R109, R434): a word that has issued in this turn has ended the freeze before
it, and may have begun another; one that has not leaves pending what was due. -/
def endTurn (was : State) (s : State) : State :=
  let old := was.str
  let wait := notIssued s
  let s := if wait then unland was s else s
  let s' :=
    if !wait && !old.redo && old.frozen.isSome then endCycle none (s.modStr fun x => { x with frz := old.frozen.getD 0, frzc := false })
    else endCycle old.frozen s
  if s'.str.cyc = old.cyc then s' else countCore s'.cur.core (1 + s'.cur.st.num) 1 s'

/-! ### Who moves (log 1) -/

/-- The cores that hold a task, by key. -/
def busyCores (s : State) : List Nat := (s.cores.filter fun c => c.2.task.isSome).map Prod.fst

/-- The memory channels that issue words. -/
def liveChans (s : State) : List Nat := (s.chans.filter fun c => c.2.state = 2 && c.2.live && !c.2.held).map Prod.fst

/-- The place of a stream's moves in the order of a wall cycle: S, V, M, and C after the follow-on arrivals (R134, R140, R150, R217). -/
def strPlace : StreamId → Nat
  | .s => 0 | .v => 1 | .m => 2 | .c => 4

/-- Of units in the order of a wall cycle: a sequencer comes after the streams and the operations of R217, in ascending channel
order (R309); a matrix array after the copy channels (R422). -/
def Mover.place : Mover → Nat
  | .stream _ k => strPlace k * 2 ^ 40
  | .matrix _ => 9 * 2 ^ 40
  | .chan c => 11 * 2 ^ 40 + c
  | .event _ => 0
  | .clock => 16 * 2 ^ 40

/-- What tells a unit from those that move at its place. -/
def Mover.key : Mover → Nat
  | .stream c k => c * 5 + strPlace k
  | .matrix c => c * 5 + 3
  | .chan c => 2 ^ 40 + c
  | _ => 0

/-- The place of an operation of a task among the agents: slice dot units or a sequencer's block form (R422). -/
def opPlace (s : State) (core tl num : Nat) : Nat :=
  if (s.core core).task.any fun t => t.ldots.any fun d => d.tl = tl && d.num = num then 10 else 11

/-- The place of an event in the order of a wall cycle: its agent's (R422, R423), with the follow-on arrivals after M and before C
(R198, R217). -/
def agentPlace (s : State) (i : Instr) (a : Args) : Nat :=
  match i with
  | .resultLanding | .interlockResultReady | .loadDataArrival | .storeBufferDrain | .instructionFetchFill | .semSignalApply | .gbArrivalApply => strPlace a.st
  | .scAccessIssue => 0
  | .matrixDrainComplete => 2
  | .followOnArrival | .followOnComplete => 3
  | .kvOperationComplete => 4
  | .copyStart | .copyComplete => 5 + a.k
  | .copyChunkResend => if a.flag then 5 + a.k else 13
  | .followOnStart => 9
  | .timelineMarkAdvance => opPlace s a.unit a.k a.n
  | .nmTableStart | .matinsPassStart | .matinsTableStop => 11
  | .planSetupComplete | .planTriggerDelivery | .planPartStart | .planPartComplete | .mergeNodeCompute | .chunkHopVerify | .chunkResend => 12
  | .unplannedRequestTimeout => match a.j with
    | 0 | 4 | 5 => strPlace a.st
    | 1 => 5 + a.k
    | 2 => opPlace s a.unit a.k (a.n % 2 ^ 256)
    | 3 => 4
    | 6 => 2
    | 7 => 15
    | _ => 13
  | .counterWrap => 14
  | _ => 13

/-- The place of an event. -/
def eventPlace (s : State) (e : Instr × Args) : Nat := agentPlace s e.1 e.2 * 2 ^ 40

/-- A trigger that came through the same package for the same rank was received before this one (R369). -/
def triggerBefore (s : State) (i : Nat) (e : Instr × Args) : Bool :=
  e.1 = .planTriggerDelivery && (s.agenda.take i).any fun d => d.1 = .planTriggerDelivery && d.2.unit = e.2.unit && d.2.k = e.2.k && d.2.j = e.2.j

/-- The units that move once in each wall cycle: the streams and the matrix arrays of the tasks, the sequencers. -/
def unitMovers (s : State) : List Mover :=
  (busyCores s).flatMap (fun c => [.stream c .s, .stream c .v, .stream c .m, .stream c .c, .matrix c]) ++ (liveChans s).map .chan

/-- A unit has not moved in this wall cycle, and its place has not been passed. -/
def unitReady (s : State) (m : Mover) : Bool := decide (s.rank ≤ m.place) && !s.moved.contains m.key

/-- A result that a stream waits for exists (R99): its event comes before the stream's move of the wall cycle. -/
def resultThere (s : State) (core : Nat) (st : StreamId) (e : Instr × Args) : Bool :=
  e.1 = .interlockResultReady && e.2.unit = core && e.2.st = st && decide (e.2.v ≤ s.wall)

/-- A mover may move now (log 1): nothing that comes after it in the wall cycle has moved; the clock moves last. -/
def mayMove (s : State) (m : Mover) : Bool :=
  match m with
  | .clock => !(unitMovers s).any (unitReady s)
  | .event i => match s.agenda[i]? with
    | some e => decide (s.rank ≤ eventPlace s e) && !triggerBefore s i e
    | none => false
  | .stream c k => unitReady s m && !(s.agenda.any (resultThere s c k))
  | m => unitReady s m

/-- The state in which a mover moves: its place in the wall cycle is reached. -/
def reachPlace (m : Mover) (s : State) : State :=
  match m with
  | .clock => s
  | .event i => match s.agenda[i]? with
    | some e => { s with rank := eventPlace s e }
    | none => s
  | m => { s with rank := m.place, moved := m.key :: s.moved }

/-- The places of events in a shrinking agenda: each has lost the events before it that were taken earlier. -/
def takenIndex : List Nat → List Nat → List Nat
  | _, [] => []
  | gone, i :: l => (i - (gone.filter (· < i)).length) :: takenIndex (i :: gone) l

/-- One round of the default order: the events that are due and the units that have not moved, by their places; then the clock. -/
def movers (s : State) : List Mover :=
  let evs := sortBy (fun a b => decide (a.1 ≤ b.1)) ((s.agenda.zipIdx).map fun e => (eventPlace s e.1, e.2))
  let evs := (evs.map Prod.fst).zip ((takenIndex [] (evs.map Prod.snd)).map Mover.event)
  (sortBy (fun a b => decide (a.1 ≤ b.1)) (evs ++ ((unitMovers s).filter (unitReady s)).map fun m => (m.place, m))).map Prod.snd ++ [.clock]

/-- The next mover, and the state in which it is taken from the order. -/
def nextMover (s : State) : Mover × State :=
  match s.sched with
  | m :: t => (m, { s with sched := t })
  | [] =>
    match movers s with
    | [] => (.clock, s)
    | m :: t => (m, { s with sched := t })

/-- The i-th due event taken from the agenda; none where there is no such event. -/
def takeEvent (i : Nat) (s : State) : Option (Instr × State) :=
  (s.agenda[i]?).map fun e => (e.1, { s with agenda := s.agenda.eraseIdx i, arg := e.2 })

end Sys2Proof.Machine
end

