-- ==== Sys2Proof/Machine/Launch.lean ====
section
/-!
DEFINITION. Sys2Proof/Machine/Launch.lean: host queues and their packets, the dispatcher, the start and the end of tasks, and the
resumption of saved gangs (R386 to R405, R411).
-/

namespace Sys2Proof.Machine

/-! ### Reading packets (R394 to R396) -/

/-- The event that works on a packet, by its type and form (R395). -/
def packetEvent (w : List Nat) : Option Instr :=
  let h := w.headD 0
  match fld h 7 0 with
  | 1 => some .launchPacket
  | 2 => some .barrierAndPacket
  | 3 => some .barrierOrPacket
  | 4 => some .copyPacket
  | 5 => match fld h 39 32 with
    | 0 => some .signalStorePacket
    | 1 => some .signalAddPacket
    | 2 => some .signalTriggerPacket
    | _ => none
  | 6 => some .tableLoadPacket
  | _ => none

/-- The header of a packet obeys R395, and its completion signal is aligned. -/
def headerOk (w : List Nat) : Bool := fld (w.headD 0) 31 9 = 0 && w.getD 7 0 % 8 = 0

/-- A packet's first failure: it is never started (R396, R403). -/
def malformed (pkg q : Nat) (s : State) : State := failPacket pkg q (s.queue pkg q).hidx 0x01 s

/-- The work on a queue's head goes on: its event is due. A head of no known type is malformed. -/
def pokeHead (pkg q : Nat) (s : State) : State :=
  let x := s.queue pkg q
  match x.head with
  | none => s
  | some w =>
    if x.state = 2 then s
    else match packetEvent w with
      | some e => if s.agenda.any fun a => a.1 = e ∧ a.2.unit = pkg ∧ a.2.k = q ∧ a.2.flag then s else s.post e { unit := pkg, k := q }
      | none => malformed pkg q s

/-- An active queue reads its next available packet, once (R394, R396); one that cannot be read is malformed (log 25). -/
def readNext (pkg q : Nat) (s : State) : State :=
  let x := s.queue pkg q
  if x.state ≠ 1 ∨ !x.en ∨ x.head.isSome ∨ x.wr ≤ x.rd ∨ (s.pkg pkg).health = 2 then s
  else match readClean s pkg x.ctx (x.base + 64 * (x.rd % 2 ^ x.lg)) 64 with
    | some b => pokeHead pkg q (s.modQueue pkg q fun x => { x with head := some (wordsOf 8 8 b ++ [x.ctx]), hidx := x.rd })
    | none => failPacket pkg q x.rd 0x01 s

/-- The head packet is taken (R396): the queue moves to the next. -/
def taken (pkg q : Nat) (s : State) : State :=
  let s := s.modQueue pkg q fun x =>
    { x with rd := if x.hidx = x.rd then x.rd + 1 else x.rd, head := none, ready := none, opens := match x.head with | some w => x.opens ++ [(x.hidx, w)] | none => x.opens }
  readNext pkg q (midnight false pkg (s.queue pkg q).part s)

/-- A packet completes (R402): −1 is added to its signal; a packet that waits for it may go on. -/
def completePacket (pkg q i : Nat) (s : State) : State :=
  match (s.queue pkg q).opens.find? fun e => e.1 = i with
  | none => s
  | some (_, w) =>
    let x := s.queue pkg q
    let s := if w.getD 7 0 = 0 then s else signalAdd pkg (packetCtx x w) (w.getD 7 0) minusOne s
    let s := (s.modQueue pkg q fun x => { x with opens := x.opens.filter fun e => e.1 ≠ i }).modPkg pkg fun p =>
      { p with grids := p.grids.filter fun g => !(g.queue = q && g.idx = i) }
    pokeHead pkg q (readNext pkg q (if timed w then midnight true pkg x.part s else s))

/-- PACKET_COMPLETION (R402). Reads `arg.unit` (package), `arg.k` (queue), `arg.n` (packet). -/
def execPacketCompletion (s : State) : Host.Outcome State Fault Refusal := onEvent s fun s => completePacket s.arg.unit s.arg.k s.arg.n s

/-- The shape of a packet's work: the head of an active queue, a packet of this event's form, when no `bar` holds it (R395, R396). -/
def onHead (i : Instr) (pkg q : Nat) (ok : State → List Nat → Bool) (f : List Nat → State → State) (s : State) : State :=
  let x := s.queue pkg q
  match x.head with
  | none => s
  | some w =>
    if x.state = 2 ∨ packetEvent w ≠ some i then s
    else if fld (w.headD 0) 8 8 = 1 ∧ !x.opens.isEmpty then s
    else if !headerOk w || !ok s w then malformed pkg q s
    else f w s

/-! ### Queue registers (R392 to R394) -/

/-- The refusal codes of a queue that is enabled with these fields (R393). -/
def enableCodes (s : State) (pkg : Nat) (x : Queue) : List Nat :=
  let e := ctxEntry s pkg x.ctx
  (if fld e 127 127 = 0 ∨ fld e 126 124 ≠ x.part then [0x10] else []) ++ (if partCount s pkg ≤ x.part then [0x11] else []) ++
  (if x.lg < 4 ∨ 15 < x.lg ∨ x.base % 4096 ≠ 0 then [0x12] else [])

/-- QUEUE_ENABLE (R393): a packet read before a disable that is not taken yet stays the queue's head. Reads `arg.unit` (package), `arg.k`
(queue), `arg.v`, the word written to `qctl`. -/
def enableQueue (pkg q v : Nat) (s : State) : State :=
  if (s.queue pkg q).en then s
  else
    let x : Queue := { s.queue pkg q with pri := fld v 26 24, part := fld v 22 20, lg := fld v 19 16, ctx := fld v 15 0, idx := 0 }
    match enableCodes s pkg x with
    | [] => pokeHead pkg q (readNext pkg q (s.modQueue pkg q fun _ =>
        { x with en := true, state := 1, code := 0, rd := x.epoch * 2 ^ 64, wr := x.epoch * 2 ^ 64 + x.wr, swapped := x.epoch * 2 ^ 64 }))
    | l =>
      let r := anyStatus l s
      r.2.modQueue pkg q fun _ => { x with state := 3, code := r.1 }

/-- QUEUE_ENABLE (R393). -/
def execQueueEnable (s : State) : Host.Outcome State Fault Refusal := onEvent s fun s => enableQueue s.arg.unit s.arg.k s.arg.v s

/-- QUEUE_DISABLE (R393): no further packet is read, what has been read runs on. Reads `arg.unit` (package) and `arg.k` (queue); `arg.v` is the word
written, whose other fields take effect while en = 0. -/
def disableQueue (pkg q v : Nat) (s : State) : State :=
  s.modQueue pkg q fun x =>
    if x.en then { x with en := false, state := 0, code := 0, idx := 0, wr := 0, epoch := x.epoch + 1 }
    else { x with pri := fld v 26 24, part := fld v 22 20, lg := fld v 19 16, ctx := fld v 15 0 }

/-- QUEUE_DISABLE (R393). -/
def execQueueDisable (s : State) : Host.Outcome State Fault Refusal := onEvent s fun s => disableQueue s.arg.unit s.arg.k s.arg.v s

/-- QWR_WRITE (R393, R394, R403): a doorbell; in the error state the new packets' signals are swapped. Reads `arg.unit`
(package), `arg.k` (queue), `arg.v`. -/
def doorbell (pkg q v : Nat) (s : State) : State :=
  let x := s.queue pkg q
  if !x.en then (if v < x.wr ∨ 2 ^ x.lg < v then s else s.modQueue pkg q fun x => { x with wr := v })
  else
    let v := x.epoch * 2 ^ 64 + v
    if v < x.wr ∨ x.rd + 2 ^ x.lg < v then s
    else
      let s := s.modQueue pkg q fun x => { x with wr := v }
      if x.state = 2 then swapSignals pkg q x.wr v s else readNext pkg q s

/-- QWR_WRITE (R394). -/
def execQwrWrite (s : State) : Host.Outcome State Fault Refusal := onEvent s fun s => doorbell s.arg.unit s.arg.k s.arg.v s

/-! ### Barrier packets (R398) -/

/-- The signals a barrier packet uses. -/
def barrierSignals (w : List Nat) : List Nat := ((w.drop 1).take 5).filter (· ≠ 0)

/-- A barrier packet's fields (R398). -/
def barrierOk (w : List Nat) : Bool :=
  fld (w.headD 0) 63 32 = 0 && w.getD 6 0 = 0 && (barrierSignals w).all (· % 8 = 0) && !(fld (w.headD 0) 7 0 = 3 && (barrierSignals w).isEmpty)

/-- A barrier packet comes to its evaluation. -/
def barrierStart (i : Instr) (pkg q : Nat) : State → State := onHead i pkg q (fun _ => barrierOk) fun _ s => s.postOnce .barrierEvaluation { unit := pkg, k := q }

/-- BARRIER_AND_PACKET (R398). Reads `arg.unit` (package) and `arg.k` (queue). -/
def execBarrierAndPacket (s : State) : Host.Outcome State Fault Refusal := onEvent s fun s => barrierStart .barrierAndPacket s.arg.unit s.arg.k s

/-- BARRIER_OR_PACKET (R398). Reads `arg.unit` (package) and `arg.k` (queue). -/
def execBarrierOrPacket (s : State) : Host.Outcome State Fault Refusal := onEvent s fun s => barrierStart .barrierOrPacket s.arg.unit s.arg.k s

/-- One evaluation's result: abort, satisfied or waits (R398). -/
def barrierResult (orr : Bool) (vals : List Nat) : Option Bool :=
  if vals.any fun v => 2 ^ 63 ≤ v then some false
  else if vals.all (· = 0) || (orr && vals.any (· = 0)) then some true
  else none

/-- BARRIER_EVALUATION (R398): every used signal read at once. A signal that cannot be read makes the packet malformed (log
25). Reads `arg.unit` (package) and `arg.k` (queue). -/
def evaluate (pkg q : Nat) (s : State) : State :=
  let x := s.queue pkg q
  match x.head with
  | none => s
  | some w =>
    if x.state = 2 ∨ ¬ (fld (w.headD 0) 7 0 = 2 ∨ fld (w.headD 0) 7 0 = 3) then s
    else match (barrierSignals w).mapM fun a => (readClean s pkg (packetCtx x w) a 8).map ofBytes with
      | none => malformed pkg q s
      | some vals => match barrierResult (fld (w.headD 0) 7 0 = 3) vals with
        | some true => completePacket pkg q x.hidx (taken pkg q s)
        | some false => failPacket pkg q x.hidx 0x02 s
        | none => s.postOnce .barrierEvaluation { unit := pkg, k := q }

/-- BARRIER_EVALUATION (R398). -/
def execBarrierEvaluation (s : State) : Host.Outcome State Fault Refusal := onEvent s fun s => evaluate s.arg.unit s.arg.k s

/-! ### The dies of a partition -/

/-- The dies of a partition, by key (R386). -/
def partDies (s : State) (pkg k : Nat) : List Nat := (List.range 8).filterMap fun d => if partOfDie s pkg d = k then some (pkg * 8 + d) else none

/-! ### Signal packets (R400) and table loads (R401) -/

/-- The address of a signal packet is aligned. -/
def signalOk (_ : State) (w : List Nat) : Bool := w.getD 1 0 % 8 = 0

/-- A packet that completes as it starts. -/
def atOnce (pkg q : Nat) (f : List Nat → State → State) (w : List Nat) (s : State) : State :=
  let i := (s.queue pkg q).hidx
  completePacket pkg q i (taken pkg q (f w s))

/-- SIGNAL_STORE_PACKET (R400). Reads `arg.unit` (package) and `arg.k` (queue). -/
def execSignalStorePacket (s : State) : Host.Outcome State Fault Refusal :=
  onEvent s fun s => onHead .signalStorePacket s.arg.unit s.arg.k signalOk
    (atOnce s.arg.unit s.arg.k fun w s => signalStore s.arg.unit (packetCtx (s.queue s.arg.unit s.arg.k) w) (w.getD 1 0) (w.getD 2 0) s) s

/-- SIGNAL_ADD_PACKET (R400). Reads `arg.unit` (package) and `arg.k` (queue). -/
def execSignalAddPacket (s : State) : Host.Outcome State Fault Refusal :=
  onEvent s fun s => onHead .signalAddPacket s.arg.unit s.arg.k signalOk
    (atOnce s.arg.unit s.arg.k fun w s => signalAdd s.arg.unit (packetCtx (s.queue s.arg.unit s.arg.k) w) (w.getD 1 0) (w.getD 2 0) s) s

/-- SIGNAL_TRIGGER_PACKET (R400, R369). Reads `arg.unit` (package) and `arg.k` (queue). -/
def execSignalTriggerPacket (s : State) : Host.Outcome State Fault Refusal :=
  onEvent s fun s => onHead .signalTriggerPacket s.arg.unit s.arg.k (fun _ _ => true) (atOnce s.arg.unit s.arg.k fun w s => pltrig (fld (w.getD 1 0) 12 0) (w.getD 2 0) s) s

/-- A table-load packet's fields (R401): aligned words, channels of the queue's partition. -/
def tableOk (pkg q : Nat) (s : State) (w : List Nat) : Bool :=
  let f := fld (w.getD 2 0) 40 32
  let n := fld (w.getD 2 0) 63 48
  w.getD 1 0 % 8 = 0 && decide (f + n ≤ 512) && (List.range n).all fun i => partOfDie s pkg ((f + i) / 64) = (s.queue pkg q).part

/-- TABLE_LOAD_PACKET (R401): every channel of the range checks the words. Words that cannot be read make the packet
malformed (log 25). Reads `arg.unit` (package) and `arg.k` (queue). -/
def tableLoad (pkg q : Nat) : State → State := onHead .tableLoadPacket pkg q (tableOk pkg q) fun w s =>
  let x := s.queue pkg q
  let n := fld (w.getD 2 0) 15 0
  let f := fld (w.getD 2 0) 40 32
  let chans := (List.range (fld (w.getD 2 0) 63 48)).map fun i => pkg * 512 + f + i
  match readClean s pkg (packetCtx x w) (w.getD 1 0) (8 * n) with
  | none => malformed pkg q s
  | some b =>
    let s := chans.foldl (fun s key => loadTable key (wordsOf 8 n b) s) (taken pkg q s)
    if chans.any fun key => (s.chan key).lres ≠ 0 then failPacket pkg q x.hidx 0x04 s else s.post .packetCompletion { unit := pkg, k := q, n := x.hidx }

/-- TABLE_LOAD_PACKET (R401). -/
def execTableLoadPacket (s : State) : Host.Outcome State Fault Refusal := onEvent s fun s => tableLoad s.arg.unit s.arg.k s

/-! ### Launch packets and placement (R390, R397, R405) -/

/-- Fields of a launch packet (R397): G, g, b, die mask, image, arguments, length, save base. -/
def launchG (w : List Nat) : Nat := fld (w.headD 0) 63 32
/-- Tasks of a gang. -/
def launchTasks (w : List Nat) : Nat := fld (w.getD 1 0) 15 0
/-- Gang barriers of a gang. -/
def launchBars (w : List Nat) : Nat := fld (w.getD 1 0) 23 16
/-- The die mask. -/
def launchMask (w : List Nat) : Nat := fld (w.getD 1 0) 31 24

/-- The dies of a queue's partition that a launch's mask allows, by key. -/
def launchDies (s : State) (pkg part : Nat) (w : List Nat) : List Nat :=
  (((partDies s pkg part).zipIdx).filter fun e => launchMask w = 0 || launchMask w / 2 ^ e.2 % 2 = 1).map Prod.fst

/-- A core's key from its die and index. -/
def coreKey (die i : Nat) : Nat := die / 8 * 4096 + die % 8 * 512 + i

/-- The cores of a die that are in service: neither failed nor out. -/
def inService (s : State) (die : Nat) : List Nat :=
  ((List.range 512).map (coreKey die)).filter fun c => !(s.core c).failed && !(s.core c).out

/-- The free cores of a die, rising. -/
def freeCores (s : State) (die : Nat) : List Nat := (inService s die).filter fun c => (s.core c).task.isNone

/-- The free barriers of a die, rising. -/
def freeBars (s : State) (die : Nat) : List Nat := (List.range 16).filter fun i => (tabGet {} (s.die die).gbars i).owner = 0

/-- The free hours of a package on a wheel, rising (R224). -/
def freeHours (s : State) (pkg : Nat) (dom : Bool) : List Nat :=
  let held := (s.cores.filter fun c => pkgOf c.1 = pkg).flatMap fun c => match c.2.task with | some t => t.hours dom | none => []
  (if dom then (List.range 8192).filter fun h => tabGet 0 (s.pkg pkg).domMap (h / 8) / 2 ^ (h % 8) % 2 = 1 else List.range 1024).filter fun h => !held.contains h

/-- A launch packet's fields (R397, R429), but for its image. -/
def launchOk (pkg q : Nat) (s : State) (w : List Nat) : Bool :=
  let part := (s.queue pkg q).part
  decide (1 ≤ launchG w ∧ launchG w ≤ 32768 ∧ 1 ≤ launchTasks w ∧ launchTasks w ≤ 512 ∧ launchBars w ≤ 16) &&
  decide (launchMask w < 2 ^ (8 / partCount s pkg)) && fld (w.getD 1 0) 63 32 = 0 && w.getD 2 0 % 64 = 0 && w.getD 3 0 % 8 = 0 &&
  decide (fld (w.getD 4 0) 31 0 ≤ 4096) && fld (w.getD 4 0) 31 0 % 8 = 0 && fld (w.getD 4 0) 63 32 = 0 && w.getD 5 0 % 65536 = 0 && w.getD 6 0 = 0 &&
  ((launchDies s pkg part w).any fun d => decide (launchTasks w ≤ (inService s d).length)) && (readImage s pkg (packetCtx (s.queue pkg q) w) (w.getD 2 0)).isSome

/-- LAUNCH_PACKET (R397): checked, it is a ready head of the dispatcher. Reads `arg.unit` (package) and `arg.k` (queue). -/
def launchStart (pkg q : Nat) : State → State := onHead .launchPacket pkg q (launchOk pkg q) fun _ s =>
  if (s.queue pkg q).ready.isSome then s
  else (s.modQueue pkg q fun x => { x with ready := some s.tick }).post .gangPlacement { unit := pkg, k := (s.queue pkg q).part }

/-- LAUNCH_PACKET (R397). -/
def execLaunchPacket (s : State) : Host.Outcome State Fault Refusal := onEvent s fun s => launchStart s.arg.unit s.arg.k s

/-- n free hours of a list, from a place in it that is open (R224; log 4), rising. -/
def pickHours (from' n : Nat) (l : List Nat) : List Nat :=
  sortBy (· ≤ ·) ((l.rotate (if l.isEmpty then 0 else from' % l.length)).take n)

/-- A task as its launch makes it (R107, R128, R389). -/
def launchTask (img w : List Nat) (ctx num gang rank part q idx : Nat) : Task :=
  let str (k : StreamId) : Stream :=
    let r := (imgRegions img).getD k.num (0, 0)
    freshStream k r.1 r.2 (imgEntry img k.num)
  let st := imgField img 0x4C 4
  freshTask
    { ctx := ctx, grid := num, gang := gang, rank := rank, gsize := launchTasks w, part := part, image := w.getD 2 0, lata := imgField img 0x40 8
      spadBytes := imgField img 0x48 4, s := str .s, v := str .v, m := str .m, c := str .c
      sems := (List.range 64).map fun i => if st = 0 then {} else { cnt := imgField img (st + 4 * i) 2, ceil := imgField img (st + 4 * i + 2) 2 }
      args := w.getD 3 0, alen := fld (w.getD 4 0) 31 0, save := w.getD 5 0, queue := q, pidx := idx, vesp := imgVesper img }

/-- A kind 2 counter at a task's start (R436). -/
def freshEcs (t : Tab Ec) : Tab Ec := t.map fun e => if e.2.kind = 2 then (e.1, { kind := 2, ctx := e.2.ctx, rej := e.2.rej }) else e

/-- A die that can take a gang (R390). -/
def canTake (s : State) (w : List Nat) (die : Nat) : Bool :=
  decide (launchTasks w ≤ (freeCores s die).length) && decide (launchBars w ≤ (freeBars s die).length)

/-- The package has the hours that a gang asks for (R224, R390). -/
def hoursFree (s : State) (pkg : Nat) (img w : List Nat) : Bool :=
  decide (imgField img 0x50 1 * launchTasks w ≤ (freeHours s pkg false).length) && decide (imgField img 0x51 1 * launchTasks w ≤ (freeHours s pkg true).length)

/-- The first of a list with the greatest measure. -/
def bestOf (f : Nat → Nat) : List Nat → Option Nat
  | [] => none
  | x :: t => some (t.foldl (fun b y => if f b < f y then y else b) x)

/-- What is left of the poison when a core's instruction cache is emptied (R428). -/
def freshIcache (core : Nat) (l : List ErrLoc) : List ErrLoc :=
  l.filter fun p => match p with | .icache c _ => c ≠ core | _ => true

/-- What is left of the poison when a core's registers are written afresh too (R107, R428). -/
def freshRegs (core : Nat) (l : List ErrLoc) : List ErrLoc :=
  (freshIcache core l).filter fun p => match p with | .reg c _ _ | .file c _ _ => c ≠ core | _ => true

/-- A task whose streams begin, or begin again, sees every write that has entered memory (log 7). -/
def Task.begins (t : Task) (s : State) : Task := { t with s := t.s.begins s, v := t.v.begins s, m := t.m.begins s, c := t.c.begins s }

/-- A core gets a task (R107, R149, R151): its scratchpad's contents are undefined, its tags 0, its kind 2 counters off. No line of
an earlier image is left in its instruction cache (log 31). -/
def startTask (core : Nat) (t : Task) (s : State) : State :=
  { s.modCore core fun c => { c with task := some (t.begins s), spad := [], seed := s.nfree, tags := [], remote := 0, ec := freshEcs c.ec, icache := [] } with nfree := s.nfree + 1, poison := freshRegs core s.poison }

/-- A gang of a queue's head launch is placed on a die (R389, R390). The tick and the hours are the dispatcher's choice (log 4). -/
def placeOn (pkg q die : Nat) (img w : List Nat) (s : State) : State :=
  let x := s.queue pkg q
  let ctx := packetCtx x w
  let s := match (s.pkg pkg).grids.find? fun g => g.queue = q && g.idx = x.hidx with
    | some _ => s
    | none =>
      let num := tabGet 0 (s.pkg pkg).gridNo ctx
      s.modPkg pkg fun p => { p with gridNo := tabSet 0 p.gridNo ctx ((num + 1) % 2 ^ 24), grids := p.grids ++ [({ queue := q, idx := x.hidx, dws := w, ctx := ctx, num := num } : Grid)] }
  match (s.pkg pkg).grids.find? fun g => g.queue = q && g.idx = x.hidx with
  | none => s
  | some g =>
    let n := launchTasks w
    let cores := (freeCores s die).take n
    let bars := (freeBars s die).take (launchBars w)
    let ph := imgField img 0x50 1
    let dh := imgField img 0x51 1
    let hp := (freeHours s pkg false).rotate (Config.freeChoice s.nfree % ((freeHours s pkg false).length + 1))
    let hd := (freeHours s pkg true).rotate (Config.freeChoice (s.nfree + 1) % ((freeHours s pkg true).length + 1))
    let start := s.tick + Config.freeChoice (s.nfree + 2)
    let s : State := { s with nfree := s.nfree + 3 }
    let s := s.modDie die fun d => { d with gbars := bars.foldl (fun t i => tabSet {} t i { owner := gangOf ((launchTask img w ctx g.num g.next 0 x.part q x.hidx).id) + 1, expected := n }) d.gbars }
    let s := (cores.zipIdx).foldl (fun s e =>
      let t := launchTask img w ctx g.num g.next e.2 x.part q x.hidx
      startTask e.1 { t with bars := bars, start := start, pkgHours := sortBy (· ≤ ·) ((hp.drop (ph * e.2)).take ph), domHours := sortBy (· ≤ ·) ((hd.drop (dh * e.2)).take dh) } s) s
    let s := countDie die 0x87 1 s
    let s := s.modPkg pkg fun p => { p with grids := p.grids.map fun y => if y.queue = q && y.idx = x.hidx then { y with next := y.next + 1 } else y }
    let s := s.modQueue pkg q fun x => { x with ready := some s.tick }
    if g.next + 1 = launchG w then taken pkg q s else midnight false pkg x.part s

/-- The head gang of a queue is placed if it fits (R390). -/
def tryPlace (pkg q : Nat) (s : State) : Option State :=
  let x := s.queue pkg q
  match x.head with
  | none => none
  | some w => match readImage s pkg (packetCtx x w) (w.getD 2 0) with
    | none => none
    | some img =>
      if !hoursFree s pkg img w then none
      else (bestOf (fun d => (freeCores s d).length) ((launchDies s pkg x.part w).filter (canTake s w))).map fun d => placeOn pkg q d img w s

/-! ### Resumption (R411) -/

/-- The events by which a task's copies go on: of each, its walk or its completion. -/
def askCopies (core k : Nat) (q : List Copy) (s : State) : State :=
  (q.filter fun c => c.fn ≠ 11).foldl (fun s c =>
    s.postOnce (if c.walked then .copyComplete else .copyStart) { unit := core, k := k, n := c.num, j := c.tl }) s

/-- The events by which the operations of a task go on, by counter and number. -/
def askOps (core id : Nat) (l : List (Nat × Nat)) (s : State) : State :=
  l.foldl (fun s d => s.postOnce .timelineMarkAdvance { unit := core, k := d.1, n := d.2, v := id }) s

/-- What a resumed task's engines and streams wait for is asked for again. -/
def reask (core : Nat) (s : State) : State :=
  let s : State := { s with cur := { s.cur with core := core } }
  let wake (x : Stream) : Stream := { x with miss := none, walkRes := none }
  let s := s.modTask fun t => { t with s := wake t.s, v := wake t.v, m := { wake t.m with phase := if t.m.phase = 1 then 0 else t.m.phase }, c := wake t.c, follow := t.follow.map fun f => { f with asked := false } }
  let t := s.task
  let s := t.ch.zipIdx.foldl (fun s e => askCopies core e.2 e.1.q s) s
  let s := (List.range 4).foldl (fun s k => ((s.ch k).q.filter fun c => c.ready.isSome).foldl (fun s _ => s.post .followOnArrival { unit := core, k := k }) s) s
  askOps core t.id ((t.ldots.map fun d => (d.tl, d.num)) ++ t.nms.map fun d => (d.tl, d.num)) s

/-- The remote requests of a task's `kv` operations (R334, R355). -/
def kvRemote (s : State) (core id : Nat) : Nat := (((s.pkg (pkgOf core)).kvOps.filter fun e => e.2.core = core && e.2.task = id).map fun e => e.2.remote).sum

/-- A saved gang can be restored now: its cores, barriers and hours are free (R411). -/
def canResume (s : State) (g : Saved) : Bool :=
  let die := dieOf (g.tasks.headD { core := 0, kind := 0, n := 0, task := {} }).core
  (g.tasks.all fun x => (s.core x.core).task.isNone && !(s.core x.core).failed) && decide (g.bars.length ≤ (freeBars s die).length) &&
  decide ((g.tasks.map fun x => x.task.pkgHours.length).sum ≤ (freeHours s g.pkg false).length) &&
  decide ((g.tasks.map fun x => x.task.domHours.length).sum ≤ (freeHours s g.pkg true).length)

/-- A saved gang is restored on its cores at one tick (R411); barriers, hours and tick are the dispatcher's choice (log 4). -/
def resumeGang (g : Saved) (s : State) : State :=
  let die := dieOf (g.tasks.headD { core := 0, kind := 0, n := 0, task := {} }).core
  let bars := (freeBars s die).take g.bars.length
  let hp := (freeHours s g.pkg false).rotate (Config.freeChoice s.nfree % ((freeHours s g.pkg false).length + 1))
  let hd := (freeHours s g.pkg true).rotate (Config.freeChoice (s.nfree + 1) % ((freeHours s g.pkg true).length + 1))
  let start := s.tick + Config.freeChoice (s.nfree + 2)
  let s : State := { s with nfree := s.nfree + 3, saved := s.saved.erase g }
  let s := s.modDie die fun d => { d with gbars := (bars.zip g.bars).foldl (fun t e =>
    tabSet {} t e.1 { owner := g.gang + 1, expected := e.2.1, next := e.2.2.1, arrived := e.2.2.2.1, phase := e.2.2.2.2 }) d.gbars }
  let r := g.tasks.foldl (fun (r : State × Nat × Nat) x =>
    let t := x.task
    let np := t.pkgHours.length
    let nd := t.domHours.length
    let t' : Task := { t.begins s with halt := none, start := start, bars := bars, pkgHours := sortBy (· ≤ ·) ((hp.drop r.2.1).take np), domHours := sortBy (· ≤ ·) ((hd.drop r.2.2).take nd) }
    let s := { r.1 with poison := freshIcache x.core r.1.poison }.modCore x.core fun c => { c with task := some t', spad := x.spad, seed := x.seed, tags := x.tags, remote := kvRemote r.1 x.core t.id, ec := freshEcs c.ec, icache := [] }
    let s := x.chans.foldl (fun s k => s.modChan k fun c => { c with held := false }) s
    (reask x.core s, r.2.1 + np, r.2.2 + nd)) (s, 0, 0)
  midnight false g.pkg g.part (r.1.modPart g.pkg g.part fun p => if p.pm = 3 ∧ p.gang = g.gang then { p with pm := 0 } else p)

/-! ### The dispatcher (R405) -/

/-- The effective priority of a queue whose head has waited since a tick (R405). -/
def effPri (x : Queue) (tick : Nat) : Nat := min 7 (x.pri + (match x.ready with | some t => (tick - t) / 50000 | none => 0))

/-- The queues of a partition with a ready head. -/
def readyQueues (s : State) (pkg k : Nat) : List (Nat × Queue) :=
  (s.pkg pkg).queues.filter fun e => e.2.state ≠ 2 && e.2.part = k && e.2.ready.isSome && e.2.head.isSome

/-- The saved gangs of a partition that wait for resumption. -/
def waiting (s : State) (pkg k : Nat) : List Saved := s.saved.filter fun g => g.pkg = pkg && g.part = k && g.resume

/-- The highest effective priority of what waits in a partition (R405). -/
def topPri (s : State) (pkg k : Nat) : Nat :=
  (((readyQueues s pkg k).map fun e => effPri e.2 s.tick) ++ (waiting s pkg k).map fun g => effPri (s.queue pkg g.queue) s.tick).foldl max 0

/-- The saved gangs that the dispatcher serves next: of the highest effective priority (R405, R411). -/
def nextSaved (s : State) (pkg k : Nat) : List Saved := (waiting s pkg k).filter fun g => effPri (s.queue pkg g.queue) s.tick = topPri s pkg k

/-- A task's context area can be read back (R410): its pages are good and none of its bytes is poisoned. -/
def areaReads (s : State) (pkg : Nat) (t : Task) : Bool :=
  let a := t.save + 0xA0000 * (t.gang * t.gsize + t.rank)
  (List.range 10).all fun i => match walk s pkg t.ctx (a + 0x10000 * i) with
    | .ok p => pteW p.pte && !pteCmp p.pte && !pteCf p.pte && pteCache p.pte ≠ 0 && !pteBo p.pte &&
        (s.poison.isEmpty || !((List.range 0x10000).any fun j => poisonedAt s (p.pa + j)))
    | .error _ => false

/-- GANG_RESUMPTION (R405, R411): a saved gang asked to resume, of the highest effective priority, whose resources are free; an area that
cannot be read back aborts the context (R410). Reads `arg.unit` (package) and `arg.k` (partition). -/
def resumption (pkg k : Nat) (s : State) : State :=
  match (nextSaved s pkg k).find? (canResume s) with
  | none => s
  | some g =>
    if g.tasks.all fun x => areaReads s pkg x.task then (resumeGang g s).post .gangPlacement { unit := pkg, k := k }
    else abortContext pkg (g.gang / 2 ^ 39) s

/-- GANG_RESUMPTION (R411). -/
def execGangResumption (s : State) : Host.Outcome State Fault Refusal := onEvent s fun s => resumption s.arg.unit s.arg.k s

/-- GANG_PLACEMENT (R405): the highest effective priority is served, resumptions that can be made first, then queues in turn;
nothing lower while one of these waits. Reads `arg.unit` (package) and `arg.k` (partition). -/
def dispatch (pkg k : Nat) (s : State) : State :=
  let ready := readyQueues s pkg k
  let top := topPri s pkg k
  if (nextSaved s pkg k).any (canResume s) then s.post .gangResumption { unit := pkg, k := k }
  else
    let last := tabGet 0 (s.part pkg k).last top
    let level := (ready.filter fun e => effPri e.2 s.tick = top).map Prod.fst
    let order := (level.filter fun q => last ≤ q) ++ level.filter fun q => !(last ≤ q)
    match order.findSome? fun q => (tryPlace pkg q s).map fun s => (q, s) with
    | none => s
    | some (q, s) => (s.modPart pkg k fun p => { p with last := tabSet 0 p.last top (q + 1) }).post .gangPlacement { unit := pkg, k := k }

/-- GANG_PLACEMENT (R390, R405). -/
def execGangPlacement (s : State) : Host.Outcome State Fault Refusal := onEvent s fun s => dispatch s.arg.unit s.arg.k s

/-! ### The end of a task (R391) -/

/-- A stream has ended: no region, or `sys.end` and nothing in flight (R416). -/
def streamOver (x : Stream) : Bool := x.status = .idle || (x.status = .ended && x.flights.isEmpty)

/-- A task may end (R284, R325, R391): the tables it has started have stopped, but for those held for a saved gang, and its operations on
slice dot units and channels, whose accesses its packet's completion covers (R402), are complete (log 20). -/
def taskOver (s : State) (core : Nat) : Bool :=
  match (s.core core).task with
  | none => false
  | some t => t.halt.isNone && streamOver t.s && streamOver t.v && streamOver t.m && streamOver t.c && ([t.s, t.v, t.m, t.c].all fun x => x.sbuf.isEmpty) && (t.ch.all fun c => c.q.isEmpty) &&
      t.nms.isEmpty && t.ldots.isEmpty && (s.chans.all fun c => !(c.2.state = 2 && !c.2.held && c.2.owner = core && c.2.task = t.id))

/-- TASK_END (R391): its stores have left, its resources return; with its gang's last task the gang ends, with the last gang its
packet completes. Reads `arg.unit` (core). -/
def endTask (core : Nat) (s : State) : State :=
  if !taskOver s core then s
  else match (s.core core).task with
  | none => s
  | some t =>
    let pkg := pkgOf core
    let s := leaveCore core s
    if !(coresWith pkg (fun x => gangOf x.id = gangOf t.id) s).isEmpty then s
    else
      let s := refusePm pkg 0x03 (fun g => g = gangOf t.id) s
      let s := s.modPkg pkg fun p => { p with grids := p.grids.map fun g => if g.queue = t.queue && g.idx = t.pidx then { g with ended := g.ended + 1 } else g }
      match (s.pkg pkg).grids.find? fun g => g.queue = t.queue && g.idx = t.pidx with
      | some g => if g.ended = launchG g.dws then s.post .packetCompletion { unit := pkg, k := t.queue, n := t.pidx } else s
      | none => s

/-- TASK_END (R391). -/
def execTaskEnd (s : State) : Host.Outcome State Fault Refusal := onEvent s fun s => endTask s.arg.unit s

end Sys2Proof.Machine
end

