-- ==== Sys2Proof/Machine/Preempt.lean ====
section
/-!
DEFINITION. Sys2Proof/Machine/Preempt.lean: pre-emption requests, vesper points, the save of a gang, and the partition hang timer
(R406 to R414, R417, R421).
-/

namespace Sys2Proof.Machine

/-! ### Requests (R406, R407) -/

/-- The cores that hold a gang of a partition. -/
def gangCores (s : State) (pkg k gang : Nat) : List Nat := coresWith pkg (fun t => gangOf t.id = gang && t.part = k) s

/-- A write to `pmreq` (R406, R407, R412). -/
def pmreq (pkg k v : Nat) (s : State) : State :=
  let p := s.part pkg k
  if p.pm = 1 ∨ p.pm = 2 ∨ v % 2 = 0 then s
  else
    let cores := gangCores s pkg k (v / 512)
    let refuse (w : Nat) : State := s.modPart pkg k fun p => { p with pm := 4, why := w, gang := v / 512 }
    if cores.isEmpty then refuse 0x01
    else if cores.any fun c => match (s.core c).task with | some t => t.save = 0 | none => false then refuse 0x02
    else (s.modPart pkg k fun p => { p with pm := 1, why := 0, gang := v / 512, since := s.tick }).postOnce .preemptSave { unit := pkg, k := k }

/-- PMREQ_WRITE (R407). Reads `arg.unit` (package), `arg.k` (partition), `arg.v`, the word written. -/
def execPmreqWrite (s : State) : Host.Outcome State Fault Refusal := onEvent s fun s => pmreq s.arg.unit s.arg.k s.arg.v s

/-- A write to `pmres` (R411): the named gang, saved, is queued for resumption. -/
def pmres (pkg k v : Nat) (s : State) : State :=
  let p := s.part pkg k
  if p.pm = 1 ∨ p.pm = 2 ∨ v % 2 = 0 then s
  else
    let named (g : Saved) : Bool := g.pkg = pkg && g.part = k && g.gang = v / 512
    if s.saved.any named then
      { s with saved := s.saved.map fun g => if named g then { g with resume := true } else g }.postOnce .gangPlacement { unit := pkg, k := k }
    else s

/-- PMRES_WRITE (R411). Reads `arg.unit` (package), `arg.k` (partition), `arg.v`, the word written. -/
def execPmresWrite (s : State) : Host.Outcome State Fault Refusal := onEvent s fun s => pmres s.arg.unit s.arg.k s.arg.v s

/-- A request for the executing task's gang waits for vesper points (R407). -/
def requested (s : State) : Bool :=
  let p := s.part (pkgOf s.cur.core) s.task.part
  p.pm = 1 && p.gang = gangOf s.task.id

/-- The executing task stops for its save: kind 1 vesper point n, 2 forced, 3 `yield`, 4 on a fault (R407, R412, R417). -/
def haltTask (kind n : Nat) (s : State) : State :=
  (s.modTask fun t => { t with halt := some (kind, n) }).postOnce .preemptSave { unit := pkgOf s.cur.core, k := s.task.part }

/-- `yield` (R417). -/
def execYield (gd : Guard) (s : State) : Host.Outcome State Fault Refusal :=
  onStream s (guarded gd fun s => if requested s then haltTask 3 0 s else s)

/-- The vesper entry n of a task's image (R421). -/
def Task.vesper (t : Task) (n : Nat) : Option (List Nat) := t.vesp.find? fun e => fld (e.headD 0) 14 0 = n

/-- A stream waits in a semaphore. -/
def inWait (x : Stream) : Bool :=
  x.status = .running && x.redo && x.frozen.isSome && match x.held with | some (.semWait _ _ _) => true | _ => false

/-- A stream is over, has no region, or waits in a semaphore (R407). -/
def parked (x : Stream) : Bool := streamOver x || (inWait x)

/-- `vesper` (R407, R421). -/
def execVesper (gd : Guard) (n : Nat) (s : State) : Host.Outcome State Fault Refusal :=
  onStream s (guarded gd fun s =>
    let t := s.task
    if requested s && (t.vesper n).isSome && parked t.v && parked t.m && parked t.c then haltTask 1 n s else s)

/-- A stream of a task has stopped on a fault. -/
def faulted (t : Task) : Bool := [t.s, t.v, t.m, t.c].any fun x => match x.status with | .stopped _ _ => true | _ => false

/-- A task counts as stopped (R407, R412): for its save, or by a fault of one of its streams. -/
def taskStopped (t : Task) : Bool := t.halt.isSome || faulted t

/-- The tasks of a requested gang that a fault has stopped issue nothing more (R407, R412). -/
def haltFaulted (cores : List Nat) (s : State) : State :=
  cores.foldl (fun s c => s.modCore c fun x => { x with task := x.task.map fun t => if faulted t && t.halt.isNone then { t with halt := some (4, 0) } else t }) s

/-- PREEMPT_BOUND_EXPIRY (R407): the tasks still running are stopped by force. Reads `arg.unit` (package) and `arg.k`
(partition). -/
def boundExpiry (pkg k : Nat) (s : State) : State :=
  let p := s.part pkg k
  if p.pm = 1 ∧ p.since + 1000 * p.bnd ≤ s.tick then
    ((gangCores s pkg k p.gang).foldl (fun s c => s.modCore c fun x => { x with task := x.task.map fun t => if taskStopped t then t else { t with halt := some (2, 0) } }) s).postOnce
      .preemptSave { unit := pkg, k := k }
  else s

/-- PREEMPT_BOUND_EXPIRY (R407). -/
def execPreemptBoundExpiry (s : State) : Host.Outcome State Fault Refusal := onEvent s fun s => boundExpiry s.arg.unit s.arg.k s

/-! ### The save (R408 to R410) -/

/-- A result waits for a `kv` operation that has a fault outstanding: it is saved as it stands (R408). -/
def kvStopped (s : State) (core id seq : Nat) : Bool := (s.pkg (pkgOf core)).kvOps.any fun e => e.2.core = core && e.2.task = id && e.2.fseq = seq && e.2.pf.isSome

/-- Every value in flight of a stream exists, its stores have left and no walk that it waits for is under way (R408): the die holds
the translation, or the walk has answered. -/
def quiet (s : State) (core : Nat) (t : Task) (x : Stream) : Bool :=
  x.sbuf.isEmpty && (x.flights.all fun f => (f.wait = 0 || kvStopped s core t.id f.seq) && f.req.isNone) &&
  (x.status ≠ .running || x.walkRes.isSome || match x.miss with
    | none => true
    | some n => ((s.core core).tlb ++ (s.die (dieOf core)).tlb).any (·.hits t.ctx (n * 2 ^ 16)))

/-- A task may be saved (R408). -/
def taskQuiet (s : State) (core : Nat) (t : Task) : Bool := [t.s, t.v, t.m, t.c].all (quiet s core t)

/-- The landing-list entries of a result (R409): kind, number, mask, value bytes. -/
def landEntries : Land → List (Nat × Nat × Nat × List Nat)
  | .regs l => l.map fun e => (0, e.1, 0, toBytes 8 e.2.toNat)
  | .pred p v => [(1, p, 0, [if v then 1 else 0])]
  | .spad l =>
    ((l.map fun e => e.1 / 64).dedup).map fun g =>
      let mine := l.filter fun e => e.1 / 64 = g
      (2, g, (mine.map fun e => 2 ^ (e.1 % 64)).foldl (· ||| ·) 0, (List.range 64).map fun i => match mine.find? fun e => e.1 % 64 = i with | some e => e.2.toNat | none => 0)
  | .qreg q v => [(3, q, 0, toBytes 16 v.toNat)]
  | .dreg d v | .dset d v => [(4, d, 0, toBytes 32 v.toNat)]
  | .breg b v => [(5, b, 0, toBytes 4 v.toNat)]
  | .stg v l | .mask v l => (6, 0x100, 0, toBytes 8 v) :: l.map fun e => (1, e.1, 0, [if e.2 then 1 else 0])
  | .hreg k v => [(7, k, 0, toBytes 8 v.toNat)]
  | .acc _ _ => []
  | .none => []

/-- Bytes made n long with zeros. -/
def padTo (n : Nat) (l : List Nat) : List Nat := (l ++ List.replicate n 0).take n

/-- The landing list of a task (R409): 96 bytes an entry, by due cycle, then issue cycle. -/
def landingList (t : Task) : List (List Nat) :=
  let all := [(0, t.s), (1, t.v), (2, t.m), (3, t.c)].flatMap fun e => e.2.flights.flatMap fun f => (landEntries f.land).map fun x => (e.1, f, x)
  (sortBy (fun a b => a.2.1.due < b.2.1.due || (a.2.1.due = b.2.1.due && a.2.1.iss ≤ b.2.1.iss)) all).map fun e =>
    let x := e.2.2
    [e.1, x.1] ++ toBytes 2 x.2.1 ++ toBytes 4 0 ++ toBytes 8 e.2.1.due ++ toBytes 8 x.2.2.1 ++ toBytes 8 e.2.1.iss ++ padTo 64 x.2.2.2

/-- The tiles of the shadows that a task holds (R203): those of results in flight by their issue, then that of an occupancy under
way, then those of follow-on commands. -/
def shadowTiles (t : Task) : List (List Word32) :=
  ((t.m.flights.filter (·.shadow)).filterMap fun f => match f.land with | .acc _ l => some l | _ => none) ++
  (match t.m.occ with | some o => if holdsShadow t.m.occ then [o.tile] else [] | none => []) ++ (t.follow.filter (·.running)).map (·.tile)

/-- The parts of a context area whose bytes R410 states, as offset and bytes; kind, vesper point, channels held. -/
def areaParts (c : Core) (t : Task) (kind n : Nat) (chans : List Nat) : List (Nat × List Nat) :=
  let ll := landingList t
  [(0x0, toBytes 4 0x4E5A5341 ++ toBytes 2 kind ++ toBytes 2 n ++ toBytes 8 t.id),
   (0x90, toBytes 4 ll.length),
   (0x100, t.s.regs.flatMap fun v => toBytes 8 v.toNat),
   (0x300, (t.v.regs ++ t.c.regs).flatMap fun v => toBytes 8 v.toNat),
   (0x400, t.q.flatMap fun v => toBytes 16 v.toNat)] ++
  ([t.s, t.v, t.m, t.c].zipIdx).map (fun e => (0x600 + 128 * e.2, e.1.b.flatMap fun v => toBytes 4 v.toNat)) ++
  [(0x800, t.d.flatMap fun v => toBytes 32 v.toNat),
   (0x900, t.sems.flatMap fun m => toBytes 2 m.cnt ++ toBytes 2 m.ceil),
   (0xB00, t.tls.flatMap fun l => toBytes 8 l.count ++ toBytes 8 l.mark),
   (0x3000, (List.range 256).flatMap fun p => toBytes 2 (tabGet 0 c.tags p)),
   (0x3240, t.h.flatMap fun v => toBytes 8 v.toNat),
   (0x3280, toBytes 64 ((chans.map fun k => 2 ^ (k % 512)).foldl (· ||| ·) 0)),
   (0x32C0, toBytes 8 (mrpValue t)),
   (0x3D00, List.replicate 768 0),
   (0x4000, t.acc.flatMap fun a => a.flatMap fun v => toBytes 4 v.toNat),
   (0xC000, (shadowTiles t).flatMap fun a => padTo 4096 (a.flatMap fun v => toBytes 4 v.toNat)),
   (0x14000, ll.flatten),
   (0x20000, c.spadBytes 0 t.spadBytes)]

/-- A byte of the context area: those whose place R410 does not state are the device's own (log 26). -/
def areaByte (parts : List (Nat × List Nat)) (seed i : Nat) : Nat :=
  match parts.find? fun p => p.1 ≤ i ∧ i < p.1 + p.2.length with
  | some p => p.2.getD (i - p.1) 0
  | none => (Config.freeByte seed i).toNat

/-- A page of the context area may be written by a save (R410). -/
def savePage (s : State) (pkg ctx va : Nat) : Bool :=
  match walk s pkg ctx va with
  | .ok p => pteW p.pte && !pteCmp p.pte && !pteCf p.pte && pteCache p.pte ≠ 0 && !pteBo p.pte
  | .error _ => false

/-- One task's context area is written (R397, R410); none where an access to it fails. -/
def writeArea (pkg core : Nat) (t : Task) (kind n : Nat) (chans : List Nat) (s : State) : Option State :=
  let a := t.save + 0xA0000 * (t.gang * t.gsize + t.rank)
  if (List.range 10).all fun i => savePage s pkg t.ctx (a + 0x10000 * i) then
    let parts := areaParts (s.core core) t kind n chans
    (virtCells s pkg t.ctx a ((List.range 0xA0000).map (areaByte parts s.nfree))).map fun l => { storeCells s l with nfree := s.nfree + 1 }
  else none

/-- A list with the entries that f does not name set to a value. -/
def keepOnly {α : Type} (f : Nat → Bool) (z : α) (l : List α) : List α := (l.zipIdx).map fun e => if f e.2 then e.1 else z

/-- A bit of a double-word. -/
def bitOf (w i : Nat) : Bool := w / 2 ^ i % 2 = 1

/-- What a vesper point saves of a task (R408, R411, R421): the others read zero afterwards. -/
def liveTask (e : List Nat) (t : Task) : Task :=
  { t with
    s := { t.s with regs := keepOnly (bitOf (e.getD 1 0)) 0 t.s.regs }
    v := { t.v with regs := keepOnly (bitOf (fld (e.getD 2 0) 15 0)) 0 t.v.regs }
    c := { t.c with regs := keepOnly (bitOf (fld (e.getD 2 0) 31 16)) 0 t.c.regs }
    q := keepOnly (fun i => (List.range 32).any fun k => physQ t.qrot k = i && bitOf (fld (e.getD 2 0) 63 32) k) 0 t.q
    acc := keepOnly (bitOf (fld (e.getD 3 0) 7 0)) (List.replicate 1024 0) t.acc
    d := keepOnly (bitOf (fld (e.getD 3 0) 15 8)) 0 t.d }

/-- The scratchpad ranges of a vesper entry, as cells with what they hold. -/
def liveSpad (e : List Nat) (c : Core) : List (Nat × Byte) :=
  ((e.drop 4).take 4).foldl (fun m w => (List.range (fld w 51 32)).foldl (fun m i => spadPut m (fld w 18 0 + i) (c.spadGet (fld w 18 0 + i))) m) []

/-- The save of one task as the model holds it: kind 1 vesper point n, 2 forced, 3 `yield`, 4 stopped by a fault. -/
def savedTask (core : Nat) (t : Task) (chans : List Nat) (seed : Nat) (s : State) : SavedTask :=
  let c := s.core core
  let h := t.halt.getD (2, 0)
  match (if h.1 = 1 then t.vesper h.2 else none) with
  | some e => { core := core, kind := 1, n := h.2, task := liveTask e t, spad := liveSpad e c, seed := seed, tags := c.tags, chans := chans }
  | none => { core := core, kind := if h.1 = 3 then 1 else 2, n := 0, task := t, spad := c.spad, seed := c.seed, tags := c.tags, chans := chans }

/-- Every context area of a gang is written; none where one fails. -/
def writeAreas (pkg : Nat) (cores : List Nat) (s : State) : Option State :=
  cores.foldl (fun o c => o.bind fun s => match (s.core c).task with
    | some t => writeArea pkg c t (if (t.halt.getD (2, 0)).1 % 2 = 0 then 2 else 1) (match t.halt with | some (1, n) => n | _ => 0) (tablesOf c s) s
    | none => some s) (some s)

/-- The gang leaves the cores it was saved from (R408): barriers and hours return, running tables are held. -/
def liftGang (pkg k : Nat) (cores : List Nat) (s : State) : State :=
  let tasks := cores.filterMap fun c => (s.core c).task.map fun t => (c, t)
  let bars := match tasks with | e :: _ => e.2.bars.map fun i => (dieOf e.1 , i) | [] => []
  let sv : Saved :=
    { pkg := pkg, gang := (s.part pkg k).gang, part := k
      queue := match tasks with | e :: _ => e.2.queue | [] => 0
      bars := bars.map fun b => let g := tabGet {} (s.die b.1).gbars b.2; (g.expected, g.next, g.arrived, g.phase)
      tasks := tasks.map fun e => savedTask e.1 e.2 (tablesOf e.1 s) s.nfree s }
  let forced := (tasks.filter fun e => match e.2.halt with | some (2, _) => true | _ => false).length
  let s := (sv.tasks.flatMap (·.chans)).foldl (fun s c => s.modChan c fun x => { x with held := true }) s
  let s := bars.foldl (fun s b => s.modDie b.1 fun d => { d with gbars := tabSet {} d.gbars b.2 {} }) s
  let s := cores.foldl (fun s c => (s.modCore c fun x => { x with task := none, remote := 0 }).postOnce .coreSpareTakeover { unit := c }) s
  let s := s.modPart pkg k fun p => { p with pm := 3, forced := forced }
  let s := (midnight false pkg k { s with saved := s.saved ++ [sv], nfree := s.nfree + 1 }).postOnce .gangPlacement { unit := pkg, k := k }
  tasks.foldl (fun s e => freedHours pkg e.2 s) s

/-- PREEMPT_SAVE (R407, R408, R410): once every task has stopped the state is 2; once every value exists the areas are
written, and the gang leaves. Reads `arg.unit` (package) and `arg.k` (partition). -/
def preemptSave (pkg k : Nat) (s : State) : State :=
  let p := s.part pkg k
  let cores := gangCores s pkg k p.gang
  let again (s : State) : State := s.postOnce .preemptSave { unit := pkg, k := k }
  let all (f : Nat → Task → Bool) : Bool := cores.all fun c => match (s.core c).task with | some t => f c t | none => true
  if cores.isEmpty then s
  else if p.pm = 1 then again (haltFaulted cores <| if all (fun _ => taskStopped) then s.modPart pkg k fun p => { p with pm := 2 } else s)
  else if p.pm ≠ 2 then s
  else if !all (taskQuiet s) then again s
  else match writeAreas pkg cores s with
    | some s => liftGang pkg k cores s
    | none => match cores.filterMap fun c => (s.core c).task with
      | t :: _ => abortContext pkg t.ctx s
      | [] => s

/-- PREEMPT_SAVE (R410). -/
def execPreemptSave (s : State) : Host.Outcome State Fault Refusal := onEvent s fun s => preemptSave s.arg.unit s.arg.k s

/-! ### The partition hang timer (R413, R414) -/

/-- A host's kick (R413): the timer reloads. -/
def kick (pkg k : Nat) (s : State) : State := midnight true pkg k s

/-- MNST_KICK (R413). Reads `arg.unit` (package) and `arg.k` (partition). -/
def execMnstKick (s : State) : Host.Outcome State Fault Refusal := onEvent s fun s => kick s.arg.unit s.arg.k s

/-- The contexts of a partition that hold something there, or a queue (R414). -/
def partContexts (s : State) (pkg k : Nat) : List Nat :=
  let dies := partDies s pkg k
  let tasks : List Nat := s.cores.filterMap fun (c : Nat × Core) => if dies.contains (dieOf c.1) then c.2.task.map (·.ctx) else none
  let gangs : List Nat := (s.saved.filter fun (g : Saved) => g.pkg = pkg && g.part = k).map fun g => g.gang / 2 ^ 39
  let leases : List Nat := dies.flatMap fun d => (s.die d).leases.map fun e => e.2.ctx
  let queues : List Nat := ((s.pkg pkg).queues.filter fun (e : Nat × Queue) => e.2.part = k && (e.2.en || !e.2.opens.isEmpty)).map fun e => e.2.ctx
  let plans : List Nat := (s.plans.filter fun (e : Nat × Plan) => e.2.pkgs.contains pkg && fld (ctxEntry s pkg e.2.ctx) 126 124 = k).map fun e => e.2.ctx
  (tasks ++ gangs ++ leases ++ queues ++ plans).dedup

/-- Cores, barriers, hours, tables, walk registers, query slots and the registers of a partition, its dies and its cores take
their reset values (R12, R414); losses of parts stay. -/
def clearPart (pkg k : Nat) (s : State) : State :=
  let dies := partDies s pkg k
  let s : State := { s with
    cores := (s.cores.map fun c => if dies.contains (dieOf c.1) then (c.1, ({ failed := c.2.failed, out := c.2.out, errs := c.2.errs, seed := s.nfree } : Core)) else c).filter fun c => c.2 ≠ {}
    dies := (s.dies.map fun d => if dies.contains d.1 then (d.1, ({ spares := d.2.spares } : Die)) else d).filter fun d => d.2 ≠ {}
    chans := (s.chans.map fun c => if dies.contains (dieOfChan c.1) then (c.1, ({ state := if c.2.state = 3 then 3 else 0, errs := c.2.errs } : Chan)) else c).filter fun c => c.2 ≠ {}
    poison := s.poison.filter fun e => match e with
      | .reg c _ _ | .l1 c _ | .icache c _ | .spad c _ | .file c _ _ | .utlb c _ _ | .tlb c _ => !dies.contains (dieOf c)
      | .base c _ => !dies.contains (dieOfChan c)
      | _ => true
    nfree := s.nfree + 1 }
  s.modPkg pkg fun p => { p with parts := tabSet {} p.parts k {}, fltWritten := tabSet 0 p.fltWritten k 0, fltLost := tabSet 0 p.fltLost k 0 }

/-- The reset of a partition (R414): its contexts are aborted, its parts cleared, and every queue of it enters the error state, with the
index of the packet that stood oldest. -/
def resetPart (pkg k : Nat) (s : State) : State :=
  let mine := (List.range 1024).filter fun q => (s.queue pkg q).part = k
  let idx := mine.map fun q => oldest (s.queue pkg q)
  let s := clearPart pkg k ((partContexts s pkg k).foldl (fun s c => abortContext pkg c s) s)
  (mine.zip idx).foldl (fun s e => (errQueue pkg e.1 0x05 s).modQueue pkg e.1 fun x => { x with idx := e.2 }) s

/-- MIDNIGHT_EXPIRY (R414): at the tick at which the timer reaches 0. Reads `arg.unit` (package) and `arg.k` (partition). -/
def midnightExpiry (pkg k : Nat) (s : State) : State :=
  match (s.part pkg k).run with
  | some t => if t ≤ s.tick ∧ midnightBusy s pkg k then resetPart pkg k s else s
  | none => s

/-- MIDNIGHT_EXPIRY (R414). -/
def execMidnightExpiry (s : State) : Host.Outcome State Fault Refusal := onEvent s fun s => midnightExpiry s.arg.unit s.arg.k s

end Sys2Proof.Machine
end

