-- ==== Sys2Proof/Machine/HostRegs.lean ====
section
/-!
DEFINITION. Sys2Proof/Machine/HostRegs.lean: the registers of the package and die windows, the steps by which the host and the
rack controller write them, host accesses, power control and the Dawn start-up (R9 to R12, R184, R236, R242, R243, R296, R348,
R353, R379, R386 to R388, R392, R406, R413, R426, R432, R435 to R446, R459).
-/

namespace Sys2Proof.Machine

/-! ### Translation and faults (R236, R242, R243) -/

/-- The bytes an invalidation names: first virtual address and size as a power of two (R242). -/
def xinvRange (w : Nat) : Nat × Nat :=
  let b := match fld w 7 6 with | 0 => 16 | 1 => 21 | 2 => 30 | _ => 56
  (if fld w 7 6 = 3 then 0 else fld w 63 24 * 2 ^ 16 / 2 ^ b * 2 ^ b, b)

/-- A page of a context lies in what an invalidation names. -/
def xinvHits (w ctx va bits : Nat) : Bool :=
  let r := xinvRange w
  ctx = fld w 23 8 && decide (va < r.1 + 2 ^ r.2 ∧ r.1 < va + 2 ^ bits)

/-- TLB entries left by an invalidation. -/
def xinvTlb (w : Nat) (l : List TlbEnt) : List TlbEnt := l.filter fun e => !xinvHits w e.ctx (e.vpn * 2 ^ e.bits) e.bits

/-- The micro-TLBs of a task without what an invalidation removes, and without the answers of its walks (R242). -/
def xinvTask (w : Nat) (t : Task) : Task :=
  let str (x : Stream) : Stream :=
    { x with utlb := xinvTlb w x.utlb, walkRes := match x.miss with | some v => if xinvHits w t.ctx (v * 2 ^ 16) 16 then none else x.walkRes | none => x.walkRes }
  { t with s := str t.s, v := str t.v, m := str t.m, c := str t.c, mtlb := xinvTlb w t.mtlb }

/-- A saved task without what an invalidation removes: an access that it was at translates again (R242, R411). -/
def xinvSaved (w : Nat) (t : Task) : Task :=
  let str (x : Stream) : Stream := { x with got := xinvTlb w x.got }
  xinvTask w { t with s := str t.s, v := str t.v, m := str t.m, c := str t.c }

/-- A bit that the hardware sets in this wall cycle, which no write of the same wall cycle clears (R10). -/
def setNow (b : SetBit) (s : State) : State := if s.setBits.contains b then s else { s with setBits := b :: s.setBits }

/-- A W1C bit after a write of its bit (R9, R10): a 1 clears it unless it was set in this wall cycle. -/
def w1c (s : State) (b : SetBit) (old : Bool) (written : Nat) : Bool := old && (written = 0 || s.setBits.contains b)

/-- A write to `xinv` (R242): entries and walks of the range go at once; busy stays until what used them is performed. -/
def xinvWrite (pkg w : Nat) (s : State) : State :=
  if (s.pkg pkg).xinv.isSome then setNow (.xinvOvf pkg) (s.modPkg pkg fun p => { p with xinvOvf := true })
  else
    let s := s.modPkg pkg fun p => { p with xinv := some w }
    let gone (k : Walk) : Bool := !xinvHits w k.ctx k.va 16
    let s : State := { s with
      cores := s.cores.map fun (c : Nat × Core) => if pkgOf c.1 = pkg then (c.1, { c.2 with tlb := xinvTlb w c.2.tlb, task := c.2.task.map (xinvTask w) }) else c
      saved := s.saved.map fun g => if g.pkg = pkg then { g with tasks := g.tasks.map fun x => { x with task := xinvSaved w x.task } } else g
      dies := s.dies.map fun (d : Nat × Die) => if d.1 / 8 = pkg then
          (d.1, { d.2 with tlb := xinvTlb w d.2.tlb, walkq := d.2.walkq.filter gone, walkers := d.2.walkers.filter gone }) else d }
    s.postOnce .xinvComplete { unit := pkg }

/-- XINV_WRITE (R242). Reads `arg.unit` (package) and `arg.v`, the word written. -/
def execXinvWrite (s : State) : Host.Outcome State Fault Refusal := onEvent s fun s => xinvWrite s.arg.unit s.arg.v s

/-- Every access of a context's tasks on a package is performed, those that used a removed translation among them, and no access under
way holds one. -/
def accessesDone (s : State) (pkg w : Nat) : Bool :=
  (s.olds.all fun e => e.cells.isEmpty || pkgOf e.core ≠ pkg || match (s.core e.core).task with | some t => t.ctx ≠ fld w 23 8 | none => false) &&
  s.cores.all fun c => match c.2.task with
    | some t => pkgOf c.1 ≠ pkg || t.ctx ≠ fld w 23 8 || [t.s, t.v, t.m, t.c].all fun x => loadsDone x && x.sbuf.isEmpty && xinvTlb w x.got = x.got
    | none => true

/-- XINV_COMPLETE (R242). Reads `arg.unit` (package). -/
def xinvDone (pkg : Nat) (s : State) : State :=
  match (s.pkg pkg).xinv with
  | none => s
  | some w => if accessesDone s pkg w then s.modPkg pkg fun p => { p with xinv := none } else s.postOnce .xinvComplete { unit := pkg }

/-- XINV_COMPLETE (R242). -/
def execXinvComplete (s : State) : Host.Outcome State Fault Refusal := onEvent s fun s => xinvDone s.arg.unit s

/-- A stream stopped with a record. -/
def stoppedWith (seq : Nat) (x : Stream) : Bool := match x.status with | .stopped n _ => n = seq | _ => false

/-- A record of a task is outstanding: a stream, a copy channel, or an operation of the C stream stopped with it (R243). -/
def outstanding (s : State) (pkg seq : Nat) (t : Task) : Bool :=
  ((s.pkg pkg).kvOps.any fun e => e.2.task = t.id && e.2.pf = some seq) || [t.s, t.v, t.m, t.c].any (stoppedWith seq) || t.ch.any (fun c => c.pf = some seq) || t.ldots.any (fun d => d.pf = some seq) || t.nms.any (fun d => d.pf = some seq)

/-- The resident and saved tasks of a context on a package that a record stopped. -/
def namesFault (s : State) (pkg ctx seq : Nat) : Bool :=
  (s.cores.any fun c => pkgOf c.1 = pkg && match c.2.task with | some t => t.ctx = ctx && outstanding s pkg seq t | none => false) ||
  s.saved.any fun g => g.pkg = pkg && g.tasks.any fun x => x.task.ctx = ctx && outstanding s pkg seq x.task

/-- What an engine stopped with a record does on resumption: its walk tries again. -/
def resumeEngines (seq core : Nat) (t : Task) (s : State) : State :=
  let s := ((t.ch.zipIdx).filter fun e => e.1.pf = some seq).foldl (fun s e => askCopies core e.2 e.1.q s) s
  askOps core t.id (((t.ldots.filter fun d => d.pf = some seq).map fun d => (d.tl, d.num)) ++ (t.nms.filter fun d => d.pf = some seq).map fun d => (d.tl, d.num)) s

/-- The `kv` operations of a task that a record stopped go on (R342). -/
def resumeKv (pkg seq id : Nat) (s : State) : State :=
  let mine := (s.pkg pkg).kvOps.filter fun e => e.2.task = id && e.2.pf = some seq
  mine.foldl (fun s e => (s.modPkg pkg fun p => { p with kvOps := p.kvOps.map fun x => if x.1 = e.1 then (x.1, { x.2 with pf := none }) else x }).postOnce
    .kvOperationComplete { unit := pkg, n := e.1 }) s

/-- A task after the host has resumed it (R243, R275, R420). -/
def resumed (seq : Nat) (t : Task) : Task :=
  let off (p : Option Nat) : Option Nat := if p = some seq then none else p
  { resumeTask seq t with
    ch := t.ch.map fun c => { c with pf := off c.pf }
    ldots := t.ldots.map fun d => { d with pf := off d.pf }
    nms := t.nms.map fun d => { d with pf := off d.pf } }

/-- `xres` with act 1 (R243): the tasks of a context that a record stopped go on. -/
def xresResume (pkg w : Nat) (s : State) : State :=
  let seq := fld w 63 32
  let mine (t : Task) : Bool := t.ctx = fld w 31 16 && outstanding s pkg seq t
  let ids := ((s.cores.filter fun c => pkgOf c.1 = pkg).filterMap fun c => c.2.task) ++ (s.saved.filter fun g => g.pkg = pkg).flatMap fun g => g.tasks.map (·.task)
  let s' := (coresWith pkg mine s).foldl (fun s c => match (s.core c).task with
    | some t => resumeEngines seq c t (s.modCore c fun x => { x with task := some (resumed seq t) })
    | none => s) s
  let s' := { s' with saved := s'.saved.map fun g => if g.pkg = pkg then { g with tasks := g.tasks.map fun x => if mine x.task then { x with task := resumed seq x.task } else x } else g }
  (ids.filter mine).foldl (fun s t => resumeKv pkg seq t.id s) s'

/-- XRES_RESUME (R243). Reads `arg.unit` (package) and `arg.v`, the word written. -/
def execXresResume (s : State) : Host.Outcome State Fault Refusal := onEvent s fun s => xresResume s.arg.unit s.arg.v s

/-- `xres` with act 2 (R243): the context of an outstanding fault is aborted. -/
def xresAbort (pkg w : Nat) (s : State) : State :=
  if namesFault s pkg (fld w 31 16) (fld w 63 32) then abortContext pkg (fld w 31 16) s else s

/-- XRES_ABORT (R243). Reads `arg.unit` (package) and `arg.v`, the word written. -/
def execXresAbort (s : State) : Host.Outcome State Fault Refusal := onEvent s fun s => xresAbort s.arg.unit s.arg.v s

/-- The dirty lines of a stack that the caches hold, by line address (R236). -/
def dirtyLines (s : State) (pkg k : Nat) : List Nat :=
  ((s.cores.flatMap fun c => (c.2.l1.filter (·.2)).map Prod.fst) ++ s.dies.flatMap fun d => (d.2.l2.filter (·.2)).map Prod.fst).dedup.filter fun n =>
    n * 128 / 2 ^ 45 = pkg && decide (n * 128 % 2 ^ 45 < hbmTop) && n * 128 % 2 ^ 45 / 2 ^ 36 = k

/-- The caches without the lines of a stack. -/
def dropStack (pkg k : Nat) (s : State) : State :=
  let keep (e : Nat × Bool) : Bool := !(e.1 * 128 / 2 ^ 45 = pkg && decide (e.1 * 128 % 2 ^ 45 < hbmTop) && e.1 * 128 % 2 ^ 45 / 2 ^ 36 = k)
  { s with cores := s.cores.map fun c => (c.1, { c.2 with l1 := c.2.l1.filter keep }), dies := s.dies.map fun d => (d.1, { d.2 with l2 := d.2.l2.filter keep }) }

/-- A write to `hsplitk` (R236): ignored above 64 and while the page manager runs. The lines of the stack that the caches held have left
them before it: a dirty one was written back at its old placement (log 5). -/
def hsplitWrite (pkg k v : Nat) (s : State) : State :=
  let l := fld v 6 0
  if 64 < l ∨ (s.pkg pkg).kvEn ∨ 16 ≤ k then s
  else (dropStack pkg k ((dirtyLines s pkg k).foldl (fun s n => carryPoison true true n s) s)).modPkg pkg fun p => { p with hsplit := tabSet 0 p.hsplit k l }

/-- HSPLIT_WRITE (R236). Reads `arg.unit` (package), `arg.k` (stack), `arg.v`. -/
def execHsplitWrite (s : State) : Host.Outcome State Fault Refusal := onEvent s fun s => hsplitWrite s.arg.unit s.arg.k s.arg.v s

/-! ### Partitions and contexts (R386 to R388) -/

/-- A context has something in the device (R387): task, saved gang, held channel, lease, plan; with `q`, an enabled queue. -/
def busyCtx (s : State) (pkg : Nat) (f : Nat → Bool) (q : Bool) : Bool :=
  (s.cores.any fun (c : Nat × Core) => pkgOf c.1 = pkg && match c.2.task with | some t => f t.ctx | none => false) ||
  (s.saved.any fun (g : Saved) => g.pkg = pkg && f (g.gang / 2 ^ 39)) ||
  (s.dies.any fun (d : Nat × Die) => d.1 / 8 = pkg && d.2.leases.any fun e => f e.2.ctx) ||
  (s.plans.any fun (e : Nat × Plan) => e.2.pkgs.contains pkg && f e.2.ctx) ||
  (q && (s.pkg pkg).queues.any fun (e : Nat × Queue) => e.2.en && f e.2.ctx)

/-- The device is idle for a change of mode (R386). -/
def deviceIdle (s : State) (pkg : Nat) : Bool :=
  ((s.pkg pkg).queues.all fun e => !e.2.en && e.2.opens.isEmpty) && !busyCtx s pkg (fun _ => true) false &&
  (s.chans.all fun c => !(c.1 / 512 = pkg && c.2.held))

/-- A write to `ptcfg` (R386): rej clears by 1; the mode changes only when the device is idle, and clears every partition. -/
def ptcfgWrite (pkg v : Nat) (s : State) : State :=
  let s := s.modPkg pkg fun p => { p with ptRej := w1c s (.ptRej pkg) p.ptRej (fld v 2 2) }
  if !deviceIdle s pkg then setNow (.ptRej pkg) (s.modPkg pkg fun p => { p with ptRej := true })
  else ((List.range (partCount s pkg)).foldl (fun s k => clearPart pkg k s) s).modPkg pkg fun p => { p with ptMode := fld v 1 0 }

/-- PTCFG_WRITE (R386). Reads `arg.unit` (package) and `arg.v`, the word written. -/
def execPtcfgWrite (s : State) : Host.Outcome State Fault Refusal := onEvent s fun s => ptcfgWrite s.arg.unit s.arg.v s

/-- The fields of a context entry: its reserved bits keep nothing (R11, R387). -/
def ctxMask (v : Nat) : Nat := fld v 127 124 * 2 ^ 124 + fld v 109 64 * 2 ^ 64 + fld v 55 0

/-- A context entry written whole (R387, R422, R436): ignored while the context holds anything; a context that begins numbers
its records from 1, one that ends gives its counters back. -/
def ctxWrite (pkg c v : Nat) (s : State) : State :=
  if busyCtx s pkg (fun x => x = c) true then s
  else
    let was := ctxEntry s pkg c
    let s := s.modPkg pkg fun p => { p with ctxs := tabSet 0 p.ctxs c (BitVec.ofNat 128 (ctxMask v)) }
    if fld v 127 127 = 1 ∧ fld was 127 127 = 0 then s.modPkg pkg fun p => { p with recSeq := tabSet 1 p.recSeq c 1 }
    else if fld v 127 127 = 0 ∧ fld was 127 127 = 1 then endCounters pkg c s
    else s

/-- CONTEXT_ENTRY_WRITE (R387). Reads `arg.unit` (package), `arg.k` (context), `arg.v`, the 16 bytes. -/
def execContextEntryWrite (s : State) : Host.Outcome State Fault Refusal := onEvent s fun s => ctxWrite s.arg.unit s.arg.k s.arg.v s

/-- A write to `ctxab` (R388). -/
def ctxabWrite (pkg v : Nat) (s : State) : State := if fld v 31 31 = 1 then abortContext pkg (fld v 15 0) s else s

/-- CTXAB_WRITE (R388). Reads `arg.unit` (package) and `arg.v`, the word written. -/
def execCtxabWrite (s : State) : Host.Outcome State Fault Refusal := onEvent s fun s => ctxabWrite s.arg.unit s.arg.v s

/-! ### Event counters (R435 to R437) -/

/-- An event counter. -/
def State.ec (s : State) : EcRef → Ec
  | .core c k => tabGet {} (s.core c).ec k
  | .die d k => tabGet {} (s.die d).ec k
  | .pkg p k => tabGet {} (s.pkg p).ec k

/-- An event counter changed. -/
def State.modEc (s : State) (r : EcRef) (f : Ec → Ec) : State :=
  match r with
  | .core c k => s.modCore c fun x => { x with ec := tabSet {} x.ec k (f (tabGet {} x.ec k)) }
  | .die d k => s.modDie d fun x => { x with ec := tabSet {} x.ec k (f (tabGet {} x.ec k)) }
  | .pkg p k => s.modPkg p fun x => { x with ec := tabSet {} x.ec k (f (tabGet {} x.ec k)) }

/-- A core counter (R436: kind 2). -/
def ecIsCore : EcRef → Bool
  | .core _ _ => true
  | _ => false

/-- The number of a counter as tasks name it (R433). -/
def ecNum : EcRef → Nat
  | .core _ k => k
  | .die _ k => 8 + k
  | .pkg _ k => 40 + k

/-- The package of a counter. -/
def ecPkg : EcRef → Nat
  | .core c _ => pkgOf c
  | .die d _ => d / 8
  | .pkg p _ => p

/-- A host write is refused: `rej` is set (R436). -/
def ecRefuse (r : EcRef) (s : State) : State := setNow (.rej r) (s.modEc r fun e => { e with rej := true })

/-- A host write to `ecown` (R436). -/
def ecownWrite (r : EcRef) (v : Nat) (s : State) : State :=
  let s := s.modEc r fun e => { e with rej := w1c s (.rej r) e.rej (fld v 31 31) }
  let k := fld v 17 16
  if k ≠ 0 ∧ ((s.ec r).kind ≠ 0 ∨ k = 3 ∨ (k = 2 ∧ !ecIsCore r)) then ecRefuse r s
  else s.modEc r fun e => { e with kind := k, ctx := fld v 15 0 }

/-- ECOWN_WRITE (R436). Reads `arg.ec` and `arg.v`, the word written. -/
def execEcownWrite (s : State) : Host.Outcome State Fault Refusal := onEvent s fun s => ecownWrite s.arg.ec s.arg.v s

/-- A host write to `ecval` (offset 0) or `eccfg` (offset 8) (R435, R436). -/
def ecValueWrite (r : EcRef) (off v : Nat) (s : State) : State :=
  if (s.ec r).kind ≠ 0 then ecRefuse r s
  else s.modEc r fun e =>
    if off = 0 then { e with value := fld v 47 0 }
    else { e with en := fld v 31 31 = 1, ovf := e.ovf && fld v 30 30 = 0, trap := fld v 8 8 = 1, event := fld v 7 0 }

/-- EC_HOST_VALUE_WRITE (R436). Reads `arg.ec`, `arg.k` (0 `ecval`, 8 `eccfg`), `arg.v`, the word written. -/
def execEcHostValueWrite (s : State) : Host.Outcome State Fault Refusal := onEvent s fun s => ecValueWrite s.arg.ec s.arg.k s.arg.v s

/-- A counter's events of the wall cycle enter its value; it has passed 2^48 − 1 (R437). -/
def Ec.wraps (e : Ec) : Bool := decide (2 ^ 48 ≤ e.value + e.acc)

/-- A counter with trap has wrapped (R437): a record to the owning context, or vector 11. -/
def counterWrap (r : EcRef) (s : State) : State :=
  let e := s.ec r
  if !e.wrapped then s
  else
    let s := s.modEc r fun e => { e with wrapped := false }
    let record (ctx : Nat) : State := writeRecord (ecPkg r) ctx { cls := 0x16, reason := 0x10, agent := 13, task := ctx * 2 ^ 48, i0 := ecNum r, i1 := e.event } s
    match e.kind, r with
    | 0, _ => raiseMsi (ecPkg r) 11 s
    | 2, .core c _ => match (s.core c).task with | some t => record t.ctx | none => s
    | _, _ => record e.ctx

/-- COUNTER_WRAP (R437). Reads `arg.ec`. -/
def execCounterWrap (s : State) : Host.Outcome State Fault Refusal := onEvent s fun s => counterWrap s.arg.ec s

/-- The three words of a counter's block (R435). -/
def ecWord (e : Ec) (o : Nat) : Nat :=
  match o with
  | 0 => e.value
  | 8 => (if e.en then 2 ^ 31 else 0) + (if e.ovf then 2 ^ 30 else 0) + (if e.trap then 256 else 0) + e.event
  | 16 => (if e.rej then 2 ^ 31 else 0) + e.kind * 2 ^ 16 + e.ctx
  | _ => 0

/-- A write to a word of a counter's block. -/
def ecBlockWrite (r : EcRef) (o v : Nat) (s : State) : State :=
  match o with
  | 0 => ecValueWrite r 0 v s
  | 8 => ecValueWrite r 8 v s
  | 16 => ecownWrite r v s
  | _ => s

/-! ### Power (R440 to R442) -/

/-- Mean power over the averaging window, of the milliseconds since the Dawn start-up, in the 13 bits of avg (log 27). -/
def Power.mean (p : Power) : Nat :=
  let l := p.hist.take p.win
  if l.isEmpty then 0 else min 8191 (l.sum / l.length)

/-- `pwst` (R440). -/
def Power.status (p : Power) : Nat :=
  (if p.mem = 32 ∧ p.clk = 48 then 8 else 0) + (if p.clk = 0 then 0 else 4) + (if p.mem = 0 then 0 else 2) + (if p.bind then 1 else 0)

/-- A power register: the 32 bits at an offset (R440). -/
def Power.reg32 (p : Power) (o : Nat) : Nat :=
  match o with
  | 0xB000 => p.cap
  | 0xB004 => p.win
  | 0xB008 => p.rsp
  | 0xB010 => p.avg
  | 0xB014 => p.rails.getD 0 0
  | 0xB018 => p.rails.getD 1 0
  | 0xB01C => p.rails.getD 2 0
  | 0xB020 => p.rails.getD 3 0
  | 0xB028 => p.status
  | 0xB030 => p.energy % 2 ^ 32
  | 0xB034 => p.energy / 2 ^ 32
  | _ => 0

/-- A write to a power register (R440): values outside a range are ignored. -/
def Power.write (p : Power) (o v : Nat) : Power :=
  match o with
  | 0xB000 => let x := fld v 12 0; if 1000 ≤ x ∧ x ≤ 4400 then { p with cap := x } else p
  | 0xB004 => let x := fld v 9 0; if 1 ≤ x ∧ x ≤ 1000 then { p with win := x } else p
  | 0xB008 => let x := fld v 6 0; if 1 ≤ x ∧ x ≤ 100 then { p with rsp := x } else p
  | _ => p

/-- n steps of the throttle up, memory first, or down in the reverse order (R441). -/
def Power.steps (up : Bool) : Nat → Power → Power
  | 0, p => p
  | n + 1, p =>
    Power.steps up n
      (if up then (if p.mem < 32 then { p with mem := p.mem + 1 } else if p.clk < 48 then { p with clk := p.clk + 1 } else p)
       else if 0 < p.clk then { p with clk := p.clk - 1 } else { p with mem := p.mem - 1 })

/-- The steps of the throttle in one millisecond (R441): how many is open (log 4), but enough for the limit to be reached within rsp ms. -/
def Power.size (p : Power) (n : Nat) : Nat := max ((80 + p.rsp - 1) / p.rsp) (1 + Config.freeChoice n % 80)

/-- The millisecond's update (R440, R441): the rails' means in W, avg and bind with the registers as they stand, the throttle; vector 9
when bind changes. An update before its millisecond is over does nothing. -/
def powerUpdate (pkg : Nat) (rails : List Nat) (s : State) : State :=
  let p := (s.pkg pkg).power
  if s.tick < p.due then s
  else
    let was := p.bind
    let p := { p with rails := rails, hist := (rails.sum :: p.hist).take 1000, energy := (p.energy + rails.sum) % 2 ^ 64, due := (s.tick / 10 ^ 6 + 1) * 10 ^ 6 }
    let p := { p with avg := p.mean, bind := decide (p.cap < p.mean) }
    let p := if p.bind then p.steps true (p.size s.nfree) else if p.avg * 100 ≤ 98 * p.cap then p.steps false (1 + Config.freeChoice s.nfree % 80) else p
    let s : State := { s.modPkg pkg (fun x => { x with power := p }) with nfree := s.nfree + 1 }
    let s := if p.bind then countPkg pkg 0xCE 1 s else s
    if was = p.bind then s else raiseMsi pkg 9 s

/-- POWER_CONTROL_UPDATE (R441). Reads `arg.unit` (package) and the mean power of the four rails in W in `arg.k` (core), `arg.j`
(HBM), `arg.n` (fabric), `arg.v` (I/O and other). -/
def execPowerControlUpdate (s : State) : Host.Outcome State Fault Refusal :=
  onEvent s fun s => powerUpdate s.arg.unit [s.arg.k % 8192, s.arg.j % 8192, s.arg.n % 8192, s.arg.v % 8192] s

/-! ### Attestation (R445, R446) -/

/-- `dwst` (R445). -/
def dwst (s : State) (pkg : Nat) : Nat :=
  let p := s.pkg pkg
  p.dstep * 2 ^ 56 + p.dfail * 2 ^ 48 + 0x21 * 2 ^ 40 + (3 * 2 ^ 8 + Config.firmware pkg % 2 ^ 8) * 2 ^ 24

/-- The identity report: bytes 0 to 2951 (R446). -/
def identityReport (s : State) (pkg : Nat) : List Nat :=
  toBytes 4 0x4E5A4154 ++ toBytes 2 0x0300 ++ [0x21, 0] ++ toBytes 8 (dwst s pkg) ++ toBytes 16 (Config.serial pkg) ++ toBytes 64 (s.pkg pkg).nonce ++
  ((List.range 4).flatMap fun k => (List.range 64).map fun i => (Config.imageDigest pkg k i).toNat) ++ toBytes 8 (hlthWord s pkg) ++
  (List.range 2592).map fun i => (Config.identityKey pkg i).toNat

/-- A write of go to `atctl` (R446): done clears, and the report is begun over the nonce as it stands; ignored while one is built. -/
def attest (pkg : Nat) (s : State) : State :=
  if (s.pkg pkg).atBusy then s
  else (s.modPkg pkg fun p => { p with report := identityReport s pkg, atBusy := true, atDone := false }).post .atctlGo { unit := pkg, flag := false }

/-- The report is complete (R446): the identity report with its signature. -/
def attestDone (pkg : Nat) (s : State) : State :=
  if !(s.pkg pkg).atBusy then s
  else s.modPkg pkg fun p =>
    let d := sha3_512 p.report
    { p with report := p.report ++ (List.range 4627).map (fun i => (Config.signature pkg d i).toNat), atBusy := false, atDone := true }

/-- ATCTL_GO (R446): the write of go, and with `arg.flag` false the end of the building. Reads `arg.unit` (package). -/
def execAtctlGo (s : State) : Host.Outcome State Fault Refusal :=
  onEvent s fun s => if s.arg.flag then attest s.arg.unit s else attestDone s.arg.unit s

/-! ### The package window: reads -/

/-- `fpstk` (R353): a switch peer is shown by its switch ID, none before training has found it. -/
def portWord (p : Port) : Nat :=
  p.state * 2 ^ 62 + p.width * 2 ^ 59 + (if p.spu then 2 ^ 58 else 0) + (if p.fresh then 0 else p.peer % 8192) * 2 ^ 32 + p.ev * 2 ^ 16 + p.ckf

/-- `pmst` (R406). -/
def pmstWord (p : Part) : Nat := p.pm * 2 ^ 29 + (if p.pm = 4 then p.why else 0) * 2 ^ 16 + p.forced

/-- `mnst` (R413). -/
def mnstWord (p : Part) (tick : Nat) : Nat :=
  match p.run with
  | some t => 2 ^ 30 + (t - tick) / 1000
  | none => p.rem

/-- A queue's word at an offset of its block (R392, R393). -/
def queueWord (x : Queue) (o : Nat) : Nat :=
  match o with
  | 0x00 => x.base
  | 0x08 => (if x.en then 2 ^ 31 else 0) + x.pri * 2 ^ 24 + x.part * 2 ^ 20 + x.lg * 2 ^ 16 + x.ctx
  | 0x10 => if x.en then x.rd % 2 ^ 64 else 0
  | 0x18 => if x.en then x.wr % 2 ^ 64 else 0
  | 0x20 => x.state * 2 ^ 62 + x.code * 2 ^ 48 + x.idx % 2 ^ 48
  | _ => 0

/-- The 64 bits at an offset of the package window that is a multiple of 8; reserved and write-only bits read as zero (R9,
R11). -/
def pkgReg (s : State) (pkg o : Nat) : Nat :=
  let p := s.pkg pkg
  if o = 0x2008 then (if p.xinv.isSome then 1 else 0) + (if p.xinvOvf then 2 else 0)
  else if 0x3000 ≤ o ∧ o < 0x3040 then tabGet 0 p.hsplit ((o - 0x3000) / 4) + tabGet 0 p.hsplit ((o - 0x3000) / 4 + 1) * 2 ^ 32
  else if 0x4000 ≤ o ∧ o < 0x4200 then tabGet 0 p.cpat ((o - 0x4000) / 8)
  else if o = 0x5000 then (if p.kvEn then 1 else 0)
  else if o = 0x5008 then freeTotal s pkg
  else if o = 0x5010 then p.seqs.length
  else if 0x6000 ≤ o ∧ o < 0x6120 then portWord (tabGet {} p.ports ((o - 0x6000) / 8))
  else if o = 0x7008 then p.plStale * 2 ^ 48 + p.plAge * 2 ^ 32 + p.plTovf * 2 ^ 16 + p.plCflt
  else if o = 0x7100 then p.ckinj
  else if 0x7200 ≤ o ∧ o < 0x7300 then (let u := tabGet {} p.units ((o - 0x7200) / 8); (if u.ret then 2 ^ 31 else 0) + u.flt)
  else if o = 0x8000 then p.ptMode + (if p.ptRej then 4 else 0)
  else if 0x8100 ≤ o ∧ o < 0x8180 then (let x := s.part pkg ((o - 0x8100) / 16); if o % 16 = 0 then x.per else mnstWord x s.tick)
  else if 0x8200 ≤ o ∧ o < 0x8300 then (let x := s.part pkg ((o - 0x8200) / 32); match o % 32 with | 8 => pmstWord x | 16 => x.bnd | _ => 0)
  else if 0x8400 ≤ o ∧ o < 0x8440 then tabGet 0 p.fltWritten ((o - 0x8400) / 8) * 2 ^ 32 + tabGet 0 p.fltLost ((o - 0x8400) / 8)
  else if o = 0x9000 then hlthWord s pkg
  else if 0xA000 ≤ o ∧ o < 0xA800 then ecWord (tabGet {} p.ec ((o - 0xA000) / 32)) (o % 32)
  else if 0xB000 ≤ o ∧ o < 0xB038 then p.power.reg32 o + p.power.reg32 (o + 4) * 2 ^ 32
  else if o = 0xC000 then dwst s pkg
  else if o = 0xC100 then (if p.atDone then 2 else 0)
  else if 0xC140 ≤ o ∧ o < 0xC180 then p.nonce / 2 ^ (8 * (o - 0xC140)) % 2 ^ 64
  else if 0xD000 ≤ o ∧ o < 0xD000 + 7584 then ofBytes ((p.report.drop (o - 0xD000)).take 8)
  else if 0x10000 ≤ o ∧ o < 0x10400 then ofBytes ((List.range 8).map fun i => tabGet 0 p.domMap (o - 0x10000 + i))
  else if 0x80000 ≤ o ∧ o < 0x180000 then ctxEntry s pkg ((o - 0x80000) / 16) / 2 ^ (64 * (o % 16 / 8)) % 2 ^ 64
  else if 0x200000 ≤ o ∧ o < 0x210000 then queueWord (s.queue pkg ((o - 0x200000) / 64)) (o % 64)
  else 0

/-- The reserved bits of a tile table entry, which writes leave zero (R184). -/
def tileMask : Nat := (2 ^ 256 - 1) - (3 * 2 ^ 254 + 3 * 2 ^ 246 + 15 * 2 ^ 226 + 3 * 2 ^ 192 + (2 ^ 32 - 1) * 2 ^ 120 + 127 * 2 ^ 56)

/-- The 64 bits at an offset of a die window (R184, R296, R435). -/
def dieReg (s : State) (die o : Nat) : Nat :=
  if 0x20000 ≤ o ∧ o < 0x40000 then (tabGet 0 (s.die die).tiles ((o - 0x20000) / 32)).toNat / 2 ^ (8 * (o % 32)) % 2 ^ 64
  else if 0x40000 ≤ o ∧ o < 0x60000 then ecWord (s.ec (.core (coreKey die ((o - 0x40000) / 256)) (o % 256 / 32))) (o % 32)
  else if 0x60000 ≤ o ∧ o < 0x60400 then ecWord (s.ec (.die die ((o - 0x60000) / 32))) (o % 32)
  else if 0x70000 ≤ o ∧ o < 0x71000 ∧ o % 64 = 0 then (s.chan (die / 8 * 512 + die % 8 * 64 + (o - 0x70000) / 64)).mcst
  else 0

/-- A register word at a local address of a package: the package window or a die's. -/
def windowReg (s : State) (pkg a : Nat) : Nat :=
  match regionOf a with
  | .mmio o => pkgReg s pkg o
  | .dieMmio d o => dieReg s (pkg * 8 + d) o
  | _ => 0

/-- n bytes read from a register window of a package, at a local address. -/
def windowRead (s : State) (pkg a n : Nat) : List Nat :=
  (List.range n).map fun i => windowReg s pkg ((a + i) / 8 * 8) / 2 ^ (8 * ((a + i) % 8)) % 256

/-! ### The package window: writes -/

/-- A write to a queue's word (R392 to R394). -/
def queueWrite (pkg q o v : Nat) (s : State) : State :=
  match o with
  | 0x00 => s.modQueue pkg q fun x => if x.en then x else { x with base := fld v 55 0 }
  | 0x08 => if fld v 31 31 = 1 then enableQueue pkg q v s else disableQueue pkg q v s
  | 0x18 => doorbell pkg q v s
  | _ => s

/-- A whole word written at an offset of the package window that is a multiple of 8: each register acts by its access type
and its own rule (R9, R11). -/
def pkgWrite (pkg o v : Nat) (s : State) : State :=
  if o = 0x2000 then xinvWrite pkg v s
  else if o = 0x2008 then s.modPkg pkg fun p => { p with xinvOvf := w1c s (.xinvOvf pkg) p.xinvOvf (fld v 1 1) }
  else if o = 0x2010 then (match fld v 1 0 with | 1 => xresResume pkg v s | 2 => xresAbort pkg v s | _ => s)
  else if 0x3000 ≤ o ∧ o < 0x3040 then hsplitWrite pkg ((o - 0x3000) / 4 + 1) (fld v 63 32) (hsplitWrite pkg ((o - 0x3000) / 4) (fld v 31 0) s)
  else if 0x4000 ≤ o ∧ o < 0x4200 then s.modPkg pkg fun p => { p with cpat := tabSet 0 p.cpat ((o - 0x4000) / 8) v }
  else if o = 0x5000 then
    (if v % 2 = 1 then s.modPkg pkg fun p => { p with kvEn := true } else if (s.pkg pkg).kvEn then kvDisable pkg s else s)
  else if o = 0x5018 then (if fld v 31 31 = 1 then loseEnts pkg (fun x => x.pkg = fld v 12 0) s else s)
  else if o = 0x7000 then pltrig pkg v s
  else if o = 0x7100 then s.modPkg pkg fun p => { p with ckinj := fld v 39 0 }
  else if o = 0x8000 then ptcfgWrite pkg v s
  else if o = 0x8008 then ctxabWrite pkg v s
  else if 0x8100 ≤ o ∧ o < 0x8180 then
    (if o % 16 = 0 then (let x := fld v 25 0; if 1000 ≤ x ∧ x ≤ 60000000 then s.modPart pkg ((o - 0x8100) / 16) fun p => { p with per := x } else s)
     else if fld v 31 31 = 1 then kick pkg ((o - 0x8100) / 16) s else s)
  else if 0x8200 ≤ o ∧ o < 0x8300 then
    (match o % 32 with
      | 0 => pmreq pkg ((o - 0x8200) / 32) v s
      | 16 => if v % 2 ^ 32 ≤ 1000000 then s.modPart pkg ((o - 0x8200) / 32) fun p => { p with bnd := v % 2 ^ 32 } else s
      | 24 => pmres pkg ((o - 0x8200) / 32) v s
      | _ => s)
  else if 0xA000 ≤ o ∧ o < 0xA800 then ecBlockWrite (.pkg pkg ((o - 0xA000) / 32)) (o % 32) v s
  else if 0xB000 ≤ o ∧ o < 0xB038 then s.modPkg pkg fun p => { p with power := (p.power.write o (fld v 31 0)).write (o + 4) (fld v 63 32) }
  else if o = 0xC100 then (if v % 2 = 1 then attest pkg s else s)
  else if 0xC140 ≤ o ∧ o < 0xC180 then s.modPkg pkg fun p =>
    { p with nonce := p.nonce - p.nonce / 2 ^ (8 * (o - 0xC140)) % 2 ^ 64 * 2 ^ (8 * (o - 0xC140)) + v * 2 ^ (8 * (o - 0xC140)) }
  else if 0x10000 ≤ o ∧ o < 0x10400 then pokePlacement pkg (s.modPkg pkg fun p =>
    { p with domMap := ((toBytes 8 v).zipIdx).foldl (fun t e => tabSet 0 t (o - 0x10000 + e.2) e.1) p.domMap })
  else if 0x80000 ≤ o ∧ o < 0x180000 then
    (let c := (o - 0x80000) / 16
     let was := ctxEntry s pkg c
     ctxWrite pkg c (if o % 16 = 0 then was / 2 ^ 64 * 2 ^ 64 + v else v * 2 ^ 64 + was % 2 ^ 64) s)
  else if 0x200000 ≤ o ∧ o < 0x210000 then queueWrite pkg ((o - 0x200000) / 64) (o % 64) v s
  else s

/-- A whole word written at an offset of a die window (R184, R435). -/
def dieWrite (die o v : Nat) (s : State) : State :=
  if 0x20000 ≤ o ∧ o < 0x40000 then s.modDie die fun d =>
    let h := (o - 0x20000) / 32
    let was := (tabGet 0 d.tiles h).toNat
    let sh := 2 ^ (8 * (o % 32))
    { d with tiles := tabSet 0 d.tiles h (BitVec.ofNat 256 ((was - was / sh % 2 ^ 64 * sh + v * sh) &&& tileMask)) }
  else if 0x40000 ≤ o ∧ o < 0x60000 then ecBlockWrite (.core (coreKey die ((o - 0x40000) / 256)) (o % 256 / 32)) (o % 32) v s
  else if 0x60000 ≤ o ∧ o < 0x60400 then ecBlockWrite (.die die ((o - 0x60000) / 32)) (o % 32) v s
  else s

/-- What stands in for the bytes of a register that a narrower write leaves out: what it reads as where it is read and
written as data, zero where a 1 acts (log 28). -/
def windowOld (s : State) (pkg a : Nat) : Nat :=
  let w := windowReg s pkg a
  match regionOf a with
  | .mmio o =>
    if o = 0x2008 ∨ o = 0xC100 ∨ (0x8100 ≤ o ∧ o < 0x8180 ∧ o % 16 = 8) then 0
    else if o = 0x8000 then fld w 1 0
    else if 0xA000 ≤ o ∧ o < 0xA800 ∧ o % 32 = 8 then w - fld w 30 30 * 2 ^ 30
    else if 0xA000 ≤ o ∧ o < 0xA800 ∧ o % 32 = 16 then fld w 17 0
    else w
  | .dieMmio _ o => if 0x40000 ≤ o ∧ o < 0x60400 ∧ o % 32 = 8 then w - fld w 30 30 * 2 ^ 30 else if 0x40000 ≤ o ∧ o < 0x60400 ∧ o % 32 = 16 then fld w 17 0 else w
  | _ => w

/-- A word of a window written, its address a multiple of 8. -/
def windowWord (pkg a v : Nat) (s : State) : State :=
  match regionOf a with
  | .mmio o => pkgWrite pkg o v s
  | .dieMmio d o => dieWrite (pkg * 8 + d) o v s
  | _ => s

/-- n bytes, at most 8 and within one word, written to a register window of a package, at a local address. -/
def windowWrite (pkg a n v : Nat) (s : State) : State :=
  let b := a / 8 * 8
  let sh := 2 ^ (8 * (a % 8))
  let old := if n = 8 then 0 else windowOld s pkg b
  windowWord pkg b (old - old / sh % 2 ^ (8 * n) * sh + v % 2 ^ (8 * n) * sh) s

/-- The device answers register accesses (R442, R444): unpowered it answers nothing, and after a failed Dawn start-up only
reads of `dwst` and `hlth`. -/
def answers (s : State) (pkg a : Nat) (wr : Bool) : Bool :=
  let p := s.pkg pkg
  p.on && (!(p.health = 2 && p.why = 1) || (!wr && (regionOf a = .mmio 0xC000 || regionOf a = .mmio 0x9000)))

/-- REGISTER_WRITE (R9): by its access type. Reads `arg.unit` (package), `arg.k`, the offset of the word in the package window, and
`arg.v`. -/
def execRegisterWrite (s : State) : Host.Outcome State Fault Refusal :=
  onEvent s fun s => if answers s s.arg.unit (0x10800000000 + s.arg.k) true then windowWrite s.arg.unit (0x10800000000 + s.arg.k) 8 s.arg.v s else s

/-! ### The rack controller and the host link (R442, R443) -/

/-- An offset that the rack controller may read, or write (R442). -/
def mctpServes (wr : Bool) (o : Nat) : Bool := decide (0xB000 ≤ o ∧ o < 0xB038) || (!wr && (o / 8 * 8 = 0x9000 || o / 8 * 8 = 0xC000))

/-- MCTP_REQUEST (R442); after a failed Dawn start-up nothing answers it (R444). Reads `arg.unit` (package), `arg.flag` (a write), `arg.k`
(offset), `arg.j` (bytes), `arg.v`. -/
def mctp (pkg : Nat) (wr : Bool) (o n v : Nat) (s : State) : State :=
  if !(s.pkg pkg).on || ((s.pkg pkg).health = 2 && (s.pkg pkg).why = 1) || !mctpServes wr o then s
  else if wr then windowWrite pkg (0x10800000000 + o) n v s
  else s.modPkg pkg fun p => { p with mctp := ofBytes (windowRead s pkg (0x10800000000 + o) n) }

/-- MCTP_REQUEST (R442). -/
def execMctpRequest (s : State) : Host.Outcome State Fault Refusal := onEvent s fun s => mctp s.arg.unit s.arg.flag s.arg.k s.arg.j s.arg.v s

/-- The local address of a host access (R251, R443): BAR0 is the windows, BAR2 local HBM; the lease windows, which no BAR of R443 holds,
are here BAR 1 (log 28). -/
def barAddr (bar off : Nat) : Option Nat :=
  if bar = 0 then (if off < 2 ^ 28 then some (0x10800000000 + off) else none)
  else if bar = 1 ∧ off < 2 ^ 34 then some (hbmTop + off)
  else if bar = 2 ∧ off < hbmTop then some off else none

/-- The bytes of a lease window that a host access reaches: those of the lease that the handle holds; none where it holds no lease, or
the access goes beyond it (R251). -/
def hostLease (s : State) (pkg off n : Nat) : Option (List Nat) :=
  let die := pkg * 8 + off / 2 ^ 31
  let h := off % 2 ^ 31 / 2 ^ 25
  (s.lease die h).bind fun l => (List.range n).mapM fun i => leaseLoc s die h l.id (off % 2 ^ 25 + i : Nat)

/-- What a host read of physical bytes returns: all ones with EP where one is poisoned (R428). -/
def hostRead (pkg : Nat) (l : List Nat) (s : State) : State :=
  let bad := l.any (poisonedAt s)
  s.modPkg pkg fun p => { p with hostRd := if bad then 2 ^ (8 * l.length) - 1 else ofBytes (l.map fun a => (readByte s a).toNat), hostEp := bad }

/-- A host write of physical bytes, at system scope. -/
def hostWrite (l : List Nat) (v : Nat) (s : State) : State := storeCells s ((l.zip (toBytes l.length v)).map fun e => (e.1, BitVec.ofNat 8 e.2))

/-- The lines of physical bytes pass their home slices for a host access (R235; log 5). -/
def hostLines (l : List Nat) (wr : Bool) (s : State) : State := ((l.map (· / 128)).dedup).foldl (fun s n => l2Touch (n * 128) 1 wr s) s

/-- A host access (R251, R428, R443): memory at system scope once its channel serves it (R295), the windows, or a lease's window; at a
handle that is not held a read gives all ones and a write is discarded, and the access is counted. -/
def hostAccess (pkg bar : Nat) (wr : Bool) (off n v : Nat) (s : State) : State :=
  match barAddr bar off with
  | none => s
  | some a =>
    if !answers s pkg a wr then s
    else
      let bytes (s : State) : State := countPkg pkg (if wr then 0xD4 else 0xD5) n s
      if bar = 0 then
        if wr then windowWrite pkg a n v (bytes s)
        else (bytes s).modPkg pkg fun p => { p with hostRd := ofBytes (windowRead s pkg a n), hostEp := false }
      else match (if bar = 1 then hostLease s pkg off n else some (bytesFrom (pkg * 2 ^ 45 + a) n)) with
        | some l => whenServed l (·.post .hostBarAccess { unit := pkg, k := bar, flag := wr, n := off, j := n, v := v })
            (fun s => hostLines l wr (if wr then hostWrite l v (bytes s) else hostRead pkg l (bytes s))) s
        | none => (bytes s).modPkg pkg fun p => { p with refused := p.refused + 1, hostRd := if wr then p.hostRd else 2 ^ (8 * n) - 1, hostEp := wr && p.hostEp }

/-- HOST_BAR_ACCESS (R443). Reads `arg.unit` (package), `arg.k` (BAR), `arg.flag` (a write), `arg.n` (offset), `arg.j`
(bytes), `arg.v`. -/
def execHostBarAccess (s : State) : Host.Outcome State Fault Refusal := onEvent s fun s => hostAccess s.arg.unit s.arg.k s.arg.flag s.arg.n s.arg.j s.arg.v s

/-! ### The Dawn start-up and the loss of power (R12, R442, R444) -/

/-- A port at the Dawn start-up (R353): its registers at their resets, its wiring as it is, its training begun. -/
def Port.begun (p : Port) : Port := { state := 1, peer := p.peer, pport := p.pport, fresh := true }

/-- Every register, task and table of a package goes; losses of parts, routes and memory stay (log 29). Its ports and the far ends of their
links train. -/
def clearPkg (pkg : Nat) (s : State) : State :=
  let s := (s.plans.filter fun e => e.2.pkgs.contains pkg).foldl (fun s e => endPlan e.1 s) s
  let mine (n d : Nat) : Bool := n / d = pkg
  let s : State := { s with
    cores := (s.cores.map fun c => if mine c.1 4096 then (c.1, ({ out := c.2.out, failed := c.2.failed, seed := s.nfree } : Core)) else c).filter fun c => c.2 ≠ {}
    dies := (s.dies.map fun d => if mine d.1 8 then (d.1, ({ spares := d.2.spares } : Die)) else d).filter fun d => d.2 ≠ {}
    chans := (s.chans.map fun c => if mine c.1 512 then (c.1, ({ state := if c.2.state = 3 then 3 else 0 } : Chan)) else c).filter fun c => c.2 ≠ {}
    saved := s.saved.filter fun g => g.pkg ≠ pkg
    poison := s.poison.filter fun e => match e with
      | .reg c _ _ | .l1 c _ | .icache c _ | .spad c _ | .file c _ _ | .utlb c _ _ | .tlb c _ => !mine c 4096
      | .base c _ => !mine c 512
      | .l2 d _ | .dtlb d _ => !mine d 8
      | .router p => p ≠ pkg
      | .hbm _ => true
    nfree := s.nfree + 1 }
  let s := (s.pkg pkg).ports.foldl (fun s e => s.modPortOf (s.port pkg e.1).far fun p => { p with state := min p.state 1 }) s
  s.modPkg pkg fun p => { ports := p.ports.map fun e => (e.1, e.2.begun), reach := p.reach, planGen := p.planGen }

/-- The numbers below n whose bit is set. -/
def bitsBelow (n v : Nat) : List Nat := (List.range n).filter fun i => v.testBit i

/-- The parts that fail in training or in the built-in test are spared or retired (R429, R444): the bits of `cores`, `chans`, `units` and
`lanes` name the package's cores, channels, units (R379) and the ports of which a lane fails. -/
def testParts (pkg cores chans units lanes : Nat) (s : State) : State :=
  let s := (bitsBelow 36 lanes).foldl (fun s k => laneFailure pkg k s) s
  let s := (bitsBelow 4096 cores).foldl (fun s k => s.modCore (pkg * 4096 + k) fun c => { c with failed := true }) s
  let s := (s.cores.filter fun c => pkgOf c.1 = pkg).foldl (fun s c => { takeSpare c.1 s with nfree := s.nfree + 1 }) s
  let s := (bitsBelow 512 chans).foldl (fun s k => retireChan (pkg * 512 + k) s) s
  (bitsBelow 32 units).foldl (fun s u => spared pkg (s.modPkg pkg fun p => { p with units := tabSet {} p.units u { tabGet {} p.units u with ret := true } })) s

/-- The Dawn start-up (R429, R431, R444): `img` is 0, or 1 more than the index of the firmware image that fails its check; then the parts
that fail their training or test. Links come up as their training ends. -/
def dawn (pkg img cores chans units lanes : Nat) (s : State) : State :=
  let s := clearPkg pkg s
  if img ≠ 0 then refreshReach (s.modPkg pkg fun p => { p with health := 2, why := 1, dstep := 1, dfail := img, msix := 0 })
  else
    let s := (s.pkg pkg).ports.foldl (fun s e => s.post .routeRecovery { unit := pkg, j := e.1, k := e.2.peer }) s
    refreshReach (updateHealth pkg (testParts pkg cores chans units lanes s))

/-- DAWN_STARTUP (R444). Reads `arg.unit` (package), `arg.k`, 0 or 1 more than the index of the image that fails, and the parts that fail:
`arg.n` cores, `arg.v` channels, `arg.j` % 2^32 units and `arg.j` / 2^32 ports. -/
def execDawnStartup (s : State) : Host.Outcome State Fault Refusal :=
  onEvent s fun s => dawn s.arg.unit (min s.arg.k 4) s.arg.n s.arg.v (s.arg.j % 2 ^ 32) (s.arg.j / 2 ^ 32) s

/-- POWER_LOSS (R442): nothing answers until a later power-on; memory holds what nothing has written (log 29). Reads
`arg.unit` (package). -/
def powerLoss (pkg : Nat) (s : State) : State :=
  let s := ((s.pkg pkg).ports).foldl (fun s e => portDown pkg e.1 s) s
  let s := clearPkg pkg s
  let s := s.modPkg pkg fun p => { p with on := false, msix := 0, ports := p.ports.map fun e => (e.1, { e.2 with state := 0 }) }
  { s with
    mem := s.mem.filter fun c => c.1 / 2 ^ 45 ≠ pkg
    poison := s.poison.filter fun e => match e with | .hbm c => c * 32 / 2 ^ 45 ≠ pkg | _ => true
    pkgs := s.pkgs.map fun p => (p.1, { p.2 with reach := p.2.reach.filter fun g => g ≠ pkg }) }

/-- POWER_LOSS (R442). -/
def execPowerLoss (s : State) : Host.Outcome State Fault Refusal := onEvent s fun s => powerLoss s.arg.unit s

end Sys2Proof.Machine
end

