-- ==== Sys2Proof/Machine/System.lean ====
section
/-!
DEFINITION. Sys2Proof/Machine/System.lean: control and status registers, counter instructions and system instructions (R107 to
R110, R163, R202, R218, R225, R314, R415 to R420, R438, R439).
-/

namespace Sys2Proof.Machine

/-! ### Control and status registers -/

/-- `frz` (R109). -/
def Task.frz (t : Task) : Nat := t.c.frz * 2 ^ 12 + t.m.frz * 2 ^ 8 + t.v.frz * 2 ^ 4 + t.s.frz

/-- `ilk` (R99, R108). -/
def Task.ilk (t : Task) : Nat := ((List.range 16).map fun k => if t.interlocked k then 2 ^ k else 0).sum

/-- `tagval` (R163): a page at or above the task's scratchpad bytes reads as zero. -/
def tagVal (s : State) : Nat := if s.task.spadBytes ≤ 2048 * s.task.tagsel then 0 else tabGet 0 s.curCore.tags s.task.tagsel

/-- `hval` (R225): the hour at an index, hours in ascending order. -/
def Task.hval (t : Task) : Nat := match (t.hours (t.hsel / 16 % 2 = 1))[t.hsel % 16]? with | some h => 2 ^ 15 + h | none => 0

/-- A control and status register of the executing stream (R108, R163, R202, R218, R225, R314). -/
def csrRead (n : Nat) (s : State) : Nat :=
  let t := s.task
  let x := s.str
  match n with
  | 0x000 => s.tick % 2 ^ 64
  | 0x001 => x.cyc % 2 ^ 64
  | 0x002 => s.cur.core % 4096
  | 0x003 => t.gang
  | 0x004 => t.rank
  | 0x005 => t.gsize
  | 0x006 => t.id
  | 0x007 => pkgOf s.cur.core
  | 0x008 => t.part
  | 0x010 => t.cause
  | 0x011 => x.fflags
  | 0x012 => t.m.fflags
  | 0x018 => (x.lc.getD 0 {}).cnt.toNat
  | 0x019 => (x.lc.getD 1 {}).cnt.toNat
  | 0x030 => t.frz
  | 0x031 => x.frzw % 2 ^ 64
  | 0x038 => Config.latn
  | 0x039 => t.lata
  | 0x03A => t.ilk
  | 0x100 => t.stg
  | 0x101 => t.qrot
  | 0x102 => t.tagsel
  | 0x103 => tagVal s
  | 0x110 => mrpValue t
  | 0x111 => t.mmtl
  | 0x140 => t.hsel
  | 0x141 => t.hval
  | 0x150 => t.nmr
  | _ =>
    if 0x020 ≤ n ∧ n ≤ 0x027 then (x.b.getD (n - 0x020) 0).toNat
    else if 0x120 ≤ n ∧ n ≤ 0x12F then (s.tl (n - 0x120)).mark % 2 ^ 64
    else if 0x130 ≤ n ∧ n ≤ 0x13F then (s.tl (n - 0x130)).count % 2 ^ 64
    else 0

/-- `csrr` (R110). -/
def execCsrr (gd : Guard) (d c : Nat) (s : State) : Host.Outcome State Fault Refusal :=
  onStream s (guarded gd fun s => result 14 (.regs [(d, BitVec.ofNat 64 (csrRead c s))]) 0 s)

/-- A write to a control and status register: one that is read only discards it (R9, R110). -/
def csrWrite (n v : Nat) (s : State) : State :=
  match n with
  | 0x011 => s.modStr fun x => { x with fflags := v % 32 }
  | 0x012 => s.modTask fun t => { t with m := { t.m with fflags := v % 32 } }
  | 0x018 => s.modStr fun x => { x with lc := x.lc.modify 0 fun l => { l with cnt := BitVec.ofNat 32 v } }
  | 0x019 => s.modStr fun x => { x with lc := x.lc.modify 1 fun l => { l with cnt := BitVec.ofNat 32 v } }
  | 0x100 => s.modTask fun t => { t with stg := v % 2 ^ 16 }
  | 0x101 => s.modTask fun t => { t with qrot := v % 16 }
  | 0x102 => s.modTask fun t => { t with tagsel := v % 256 }
  | 0x103 =>
    if s.task.spadBytes ≤ 2048 * s.task.tagsel then s
    else s.modCore s.cur.core fun c => { c with tags := tabSet 0 c.tags s.task.tagsel (v % 2 ^ 16) }
  | 0x111 => s.modTask fun t => { t with mmtl := v % 32 }
  | 0x140 => s.modTask fun t => { t with hsel := v % 32 }
  | 0x150 => s.modTask fun t => { t with nmr := v % 128 }
  | _ => s

/-- `csrw` (R110). -/
def execCsrw (gd : Guard) (a c : Nat) (s : State) : Host.Outcome State Fault Refusal :=
  onStream s (guarded gd (reading [a] fun s => csrWrite c (s.reg a).toNat s))

/-! ### Counter instructions (R438, R439) -/

/-- The counter a task names by a number up to 103 (R433). -/
def ecOf (s : State) (n : Nat) : EcRef :=
  if n < 8 then .core s.cur.core n else if n < 40 then .die (dieOf s.cur.core) (n - 8) else .pkg (pkgOf s.cur.core) (n - 40)

/-- An event code that R434 assigns. -/
def ecAssigned (e : Nat) : Bool :=
  decide (e ≤ 0x0A ∨ (0x11 ≤ e ∧ e ≤ 0x1E) ∨ (0x21 ≤ e ∧ e ≤ 0x2E) ∨ (0x30 ≤ e ∧ e ≤ 0x34) ∨ (0x38 ≤ e ∧ e ≤ 0x3D) ∨ (0x40 ≤ e ∧ e ≤ 0x4C) ∨
    (0x80 ≤ e ∧ e ≤ 0x90) ∨ (0xC0 ≤ e ∧ e ≤ 0xD6))

/-- An event of the scope of counter n or a narrower one (R433, R434). -/
def ecInScope (n e : Nat) : Bool := if n < 8 then decide (e < 0x80) else if n < 40 then decide (e < 0xC0) else true

/-- A counter owned by the task's context, or by the resident task (R438). -/
def ecOwned (s : State) (n : Nat) : Bool :=
  let e := s.ec (ecOf s n)
  (e.kind = 1 && e.ctx = s.task.ctx) || (decide (n < 8) && e.kind = 2)

/-- A counter fault (R425, R438). -/
def ecFault (reason n e : Nat) : State → State := takeFault { cls := 0x16, reason := reason, i0 := n, i1 := e } .never

/-- The checks of a counter instruction in their order (R438); `cfg` is the operand of `ec.cfg`. -/
def ecCheck (n : Nat) (cfg : Option Nat) (f : State → State) (s : State) : State :=
  if 103 < n then ecFault 0x02 n 0 s
  else
    let ev := match cfg with | some v => v % 256 | none => (s.ec (ecOf s n)).event
    if !ecOwned s n then ecFault 0x01 n ev s
    else match cfg with
      | none => f s
      | some v => if 2 ^ 10 ≤ v then ecFault 0x04 n ev s else if !ecAssigned ev || !ecInScope n ev then ecFault 0x03 n ev s else f s

/-- `ec.rd` (R438): the events of earlier wall cycles. -/
def execEcRd (gd : Guard) (d a : Nat) (s : State) : Host.Outcome State Fault Refusal :=
  onStream s (guarded gd (reading [a] fun s =>
    ecCheck (s.reg a).toNat none (fun s => result 14 (.regs [(d, BitVec.ofNat 64 (s.ec (ecOf s (s.reg a).toNat)).value)]) 0 s) s))

/-- A change of a counter that takes effect with the end of its wall cycle (R439): 0 on, 1 off, 2 + operand of `ec.cfg`. -/
def ecPend (n p : Nat) (s : State) : State := s.modEc (ecOf s n) fun e => { e with pend := e.pend ++ [p] }

/-- `ec.cfg` (R438). -/
def execEcCfg (gd : Guard) (a b : Nat) (s : State) : Host.Outcome State Fault Refusal :=
  onStream s (guarded gd (reading [a, b] fun s =>
    ecCheck (s.reg a).toNat (some (s.reg b).toNat) (fun s => ecPend (s.reg a).toNat (2 + (s.reg b).toNat) s) s))

/-- `ec.on` (R438). -/
def execEcOn (gd : Guard) (a : Nat) (s : State) : Host.Outcome State Fault Refusal :=
  onStream s (guarded gd (reading [a] fun s => ecCheck (s.reg a).toNat none (ecPend (s.reg a).toNat 0) s))

/-- `ec.off` (R438). -/
def execEcOff (gd : Guard) (a : Nat) (s : State) : Host.Outcome State Fault Refusal :=
  onStream s (guarded gd (reading [a] fun s => ecCheck (s.reg a).toNat none (ecPend (s.reg a).toNat 1) s))

/-- One pending change applied (R438). -/
def Ec.change (e : Ec) (p : Nat) : Ec :=
  match p with
  | 0 => { e with en := true }
  | 1 => { e with en := false }
  | v + 2 =>
    let e := { e with event := v % 256, trap := v / 256 % 2 = 1 }
    if v / 512 % 2 = 1 then { e with value := 0, ovf := false } else e

/-- The end of a wall cycle for a counter (R437, R439): its events enter the value modulo 2^48, a wrap sets `ovf` and with trap is due a
record or an interrupt, then the cycle's instructions act. -/
def Ec.commit (e : Ec) : Ec :=
  e.pend.foldl Ec.change { e with value := (e.value + e.acc) % 2 ^ 48, ovf := e.ovf || e.wraps, wrapped := e.wrapped || (e.wraps && e.trap), acc := 0, pend := [] }

/-! ### System instructions (R415 to R420) -/

/-- A stream ends (R416): a pending transfer and active loops are discarded. -/
def endStream (x : Stream) : Stream := { x with status := .ended, brs := [], skip := none, lc := x.lc.map fun l => { l with act := false } }

/-- `sys.end` (R416). -/
def execSysEnd (gd : Guard) (s : State) : Host.Outcome State Fault Refusal :=
  onStream s (guarded gd fun s => (s.modStr endStream).post .resultLanding { unit := s.cur.core, st := s.cur.st })

/-- `sys.arg` (R418). -/
def sysArg (d i : Nat) (s : State) : State :=
  if 8 * i + 8 ≤ s.task.alen then loadAt 4 d ((s.task.args + 8 * i) % 2 ^ 64) 3 false id s else result 4 (.regs [(d, 0)]) 0 s

/-- `sys.arg` (R418). -/
def execSysArg (gd : Guard) (d a : Nat) (s : State) : Host.Outcome State Fault Refusal :=
  onStream s (guarded gd (reading [a] fun s => sysArg d (s.reg a).toNat s))

/-- `sys.abort` (R419, R464): the record, then the grid ends and its packet fails with code 0x03. -/
def sysAbort (v : Nat) (s : State) : State :=
  let t := s.task
  let pkg := pkgOf s.cur.core
  let s := takeFault { cls := 0x21, i0 := v % 2 ^ 32 } .stop s
  let s := refusePm pkg 0x04 (fun g => g / 2 ^ 15 = t.ctx * 2 ^ 24 + t.grid) s
  (failPacket pkg t.queue t.pidx 0x03 s).postOnce .gangPlacement { unit := pkg, k := t.part }

/-- `sys.abort` (R419). -/
def execSysAbort (gd : Guard) (a : Nat) (s : State) : Host.Outcome State Fault Refusal :=
  onStream s (guarded gd (reading [a] fun s => sysAbort (s.reg a).toNat s))

/-- `trap` (R420): a precise task stop; resumed, every stream goes on, the S stream at the next word. -/
def trap (imm : Nat) (s : State) : State :=
  let x := s.str
  let seq := recSeq s (pkgOf s.cur.core) s.task.ctx
  (reportTask { cls := 0x20, agent := s.cur.st.num, flags := 6, whn := x.cyc, pc := x.pc, word := x.word, i0 := imm } s).modTask (stopAll seq .cont)

/-- `trap` (R420). -/
def execTrap (gd : Guard) (imm : Nat) (s : State) : Host.Outcome State Fault Refusal := onStream s (guarded gd (trap imm))

end Sys2Proof.Machine
end

