-- ==== Sys2Proof/Machine/Copies.lean ====
section
/-!
DEFINITION. Sys2Proof/Machine/Copies.lean: copies that move: the walks of the copy channels and of the queue copy engines, their
completion, faults and resent chunks (R233, R240, R241, R258 to R283, R295, R399).
-/

namespace Sys2Proof.Machine

/-! ### Register windows (R9, R233) -/

/-- Bytes stored at physical addresses, register windows included, whose words are written one after another (R9). -/
def storeAny (cells : List (Nat × Byte)) (s : State) : State :=
  let win := cells.filter fun c => isWindow c.1
  let s := if win.length < cells.length then storeCells s (cells.filter fun c => !isWindow c.1) else s
  ((win.map fun c => c.1 / 8).dedup).foldl (fun s w =>
    let mine := win.filter fun c => c.1 / 8 = w
    let pa := (mine.headD (0, 0)).1
    if answers s (pa / 2 ^ 45) (pa % 2 ^ 45) true then windowWrite (pa / 2 ^ 45) (pa % 2 ^ 45) mine.length (ofBytes (mine.map fun c => c.2.toNat)) s else s) s

/-- A byte read from a register window. -/
def windowByte (s : State) (pa : Nat) : Nat := (windowRead s (pa / 2 ^ 45) (pa % 2 ^ 45) 1).headD 0

/-- A walker that reaches the register windows too. -/
def Walker.io (e : Walker) : Walker := { e with rd := windowByte, wr := storeAny }

/-! ### What the next piece of a walk waits for -/

/-- The physical bytes that the next piece of a walk reads and writes. -/
def Copy.nextLocs (e : Walker) (s : State) (c : Copy) : List Loc × List Loc :=
  if c.empty then ([], [])
  else match (match c.ix with | some i => Except.ok i | none => c.indexAt e s c.f) with
  | .error _ => ([], [])
  | .ok ix => let x := c.ends e s ix; (x.2.1.1, x.2.2.1)

/-- The virtual addresses that the next piece of a walk translates first: of its index, its source and its destination. -/
def Copy.nextVas (e : Walker) (s : State) (c : Copy) : List Nat :=
  if c.empty then []
  else
    let w := if fld (c.dw 6) 51 51 = 1 then 8 else 4
    let idx : List Nat := if c.isIdx && c.ix.isNone && fld (c.dw 5) 56 56 = 0 then [fld (c.dw 5) 55 0 + c.f * w] else []
    idx ++ match (match c.ix with | some i => Except.ok i | none => c.indexAt e s c.f) with
    | .error _ => []
    | .ok ix =>
      let a := c.rowAddr ix
      (((if c.fn ≠ 5 ∧ c.kind false = 0 then [a.1 + c.o] else []) ++ if c.kind true = 0 then [a.2 + c.o] else []).filter fun x => decide (0 ≤ x)).map Int.toNat

/-- The pages of the next piece whose walks a copy waits for (R241). -/
def Copy.misses (asked : Bool) (e : Walker) (s : State) (c : Copy) : List Nat :=
  if !e.tlb then []
  else (c.nextVas e s).filter (coreMisses asked s e.core e.ctx)

/-- The copies of a channel numbered before one. -/
def copiesBefore (q : List Copy) (c : Copy) : List Copy := (q.takeWhile fun d => !(d.num = c.num && d.tl = c.tl && d.fn ≠ 11)).filter (·.fn ≠ 11)

/-- A copy waits to write (R266): one of its channel numbered before it still writes what it writes next, or, for a reduce, may. -/
def writesLater (e : Walker) (s : State) (q : List Copy) (c : Copy) : Bool :=
  let before := (copiesBefore q c).filter fun d => !d.walked
  !before.isEmpty && !c.empty &&
    (let mine := (c.reach e 64 s).map (Loc.place e)
     before.any fun d => d.mayWrite e s mine || (c.isRed && d.unsure e s))

/-- What a copy writes, before one numbered earlier of which it cannot be told what it writes, that one writes no more (R266). -/
def overrun (e : Walker) (s : State) (q : List Copy) (c : Copy) : List Copy :=
  let before := copiesBefore q c
  if c.empty || !(before.any (·.unsure e s)) then q
  else
    let mine := (c.reach e 64 s).filterMap fun l => match l.place e with | .phys pa => some pa | _ => none
    q.map fun d => if before.contains d && d.unsure e s then { d with later := (d.later ++ mine).dedup } else d

/-- What the caches do with the lines of a piece (R245): each address with its hint. -/
def Copy.caches (e : Walker) (s : State) (c : Copy) (l1 : Bool) (s' : State) : State :=
  (c.nextVas e s).foldl (fun s' va => match e.xlate s va with
    | .ok p => if pteCf p.pte then s' else
        let h := fld (c.dw 6) 49 48
        cached (l1 && fillsL1 p.pte h) (fillsL2 p.pte h) p.pa (c.kind true = 0 && (c.nextVas e s).getLast? = some va) s'
    | .error _ => s') ((([(c.kind false, (c.nextLocs e s).1.head?, false), (c.kind true, (c.nextLocs e s).2.head?, true)]).foldl (fun s' x => match x with
      | (2, some (.phys pa), d) => l2Touch pa 1 d s'
      | _ => s') s'))

/-- The bytes that a walk has moved between two points of its progress. -/
def movedBytes (c d : Copy) : Nat := d.f * c.n0 + d.o - (c.f * c.n0 + c.o)

/-- The walk has come into another chunk (R277). -/
def newChunk (c d : Copy) : Bool := c.f ≠ d.f || c.o / 4096 ≠ d.o / 4096

/-! ### Copy channels (R258 to R277) -/

/-- A copy of a channel's queue by number and counter. -/
def copyAt (s : State) (ch num tl : Nat) : Option Copy := (s.ch ch).q.find? fun c => c.fn ≠ 11 && c.num = num && c.tl = tl

/-- An entry of a channel's queue that is this copy. -/
def Copy.same (c d : Copy) : Bool := c.fn ≠ 11 && d.fn ≠ 11 && c.num = d.num && c.tl = d.tl

/-- A copy of a channel's queue put back. -/
def setCopy (ch : Nat) (c : Copy) (s : State) : State := s.modCh ch fun x => { x with q := x.q.map fun d => if c.same d then c else d }

/-- What a copy's record names (R275, R425): channel, number and counter, progress point, address. -/
def copyRec (ch : Nat) (c : Copy) (x : Stop) : Rec :=
  { cls := x.cls, reason := x.reason, agent := 4 + ch, whn := c.num % 2 ^ 60 + c.tl * 2 ^ 60, addr := x.addr, i0 := c.f, i1 := c.o
    i2 := if x.cls = 0x0B then x.kind + x.level * 256 else 0 }

/-- A copy's fault (R274): a replayable one halts its channel, any other is a task stop. -/
def copyStop (ch : Nat) (c : Copy) (x : Stop) (s : State) : State :=
  if x.cls = 0x0B then
    let seq := recSeq s (pkgOf s.cur.core) s.task.ctx
    (reportTask { copyRec ch c x with flags := 1 } s).modCh ch fun y => { y with pf := some seq }
  else (taskStop { copyRec ch c x with flags := 4 } .stop s).modCh ch fun y => { y with hs := true }

/-- A copy may start (R260, R270): the accesses before it are performed, and every copy of its channel numbered before it has started. -/
def mayBegin (s : State) (q : List Copy) (c : Copy) : Bool := c.begun || (performedBefore s.task c.seq && (copiesBefore q c).all (·.begun))

/-- The walk of a copy goes on (R260, R265, R270, R274): once it may start, its translations are found and the channels of memory are free;
the copies of a channel run at the same time. `fresh` says that no walk has been asked for its next pages. -/
def copyStep (fresh : Bool) (ch num tl : Nat) (s : State) : State :=
  let x := s.ch ch
  let me : Args := { unit := s.cur.core, k := ch, n := num, j := tl }
  let again (s : State) : State := s.postOnce .copyStart me
  match copyAt s ch num tl with
  | none => s
  | some c =>
    let e := (walker s).io
    if x.hs || x.pf.isSome || c.walked then s
    else if !mayBegin s x.q c then again s
    else
      let c := { c with begun := true }
      let s := setCopy ch c s
      let miss := c.misses (!fresh) e s
      if !miss.isEmpty then
        let r := queueWalks s.cur.core e.ctx miss s
        if r.1 then r.2.postOnce .copyStart { me with flag := false } else again r.2
      else if writesLater e s x.q c then again s
      else whenServed (physOf ((c.nextLocs e s).1 ++ (c.nextLocs e s).2)) again (fun s =>
      let r := c.stretch e 64 s
      let d := r.2.1
      let s := s.modCh ch fun x => { x with q := overrun e s x.q c }
      let r := (r.1.modCh ch fun x => { x with q := (s.ch ch).q }, r.2)
      let s := setCopy ch { d with sends := if newChunk c d then 0 else c.sends } (countCore s.cur.core 0x3C (movedBytes c d) (c.caches e s true r.1))
      match r.2.2 with
      | some y => if y.unreach then s.postOnce .unplannedRequestTimeout (s.held 1 ch (num * 16 + tl)) else copyStop ch d y s
      | none => if d.walked then s.postOnce .copyComplete me else again s) s

/-- COPY_START (R270). Reads `arg.unit` (core), `arg.k` (channel), `arg.n` (number), `arg.j` (counter); with `arg.flag` false the walks that
the copy waits for have been asked for. -/
def execCopyStart (s : State) : Host.Outcome State Fault Refusal :=
  onEvent s fun s => let t := s.at s.arg.unit .c; if t.resident then copyStep s.arg.flag s.arg.k s.arg.n s.arg.j t else s

/-- A copy that has written its bytes writes its tag into the scratchpad pages it wrote (R272). -/
def copyTags (c : Copy) (s : State) : State :=
  if fld (c.dw 6) 16 16 = 1 then
    let v := (fld (c.dw 6) 15 0 + c.inc) % 2 ^ 16
    s.modCore s.cur.core fun x => { x with tags := c.pages.foldl (fun t p => tabSet 0 t p v) x.tags }
  else s

/-- A copy whose walk is over writes its tags and completes; the attachments behind it become ready (R217, R259, R269, R272). -/
def copyEnd (ch num tl : Nat) (s : State) : State :=
  match copyAt s ch num tl with
  | none => s
  | some c =>
    if !c.walked then s
    else
      let s := completeNum tl num (copyTags c s)
      postArrivals ch s.wall (s.modCh ch fun x => { x with q := x.q.filter fun d => !c.same d })

/-- COPY_COMPLETE (R270). Reads `arg.unit` (core), `arg.k` (channel), `arg.n` (number), `arg.j` (counter). -/
def execCopyComplete (s : State) : Host.Outcome State Fault Refusal :=
  onEvent s fun s => let t := s.at s.arg.unit .c; if t.resident then copyEnd s.arg.k s.arg.n s.arg.j t else s

/-! ### Queue copy engines (R399) -/

/-- The copy of a packet with its block. -/
def packetCopy (w blk : List Nat) : Copy := { fn := fld (w.headD 0) 39 32, blk := blk, offs := w.getD 2 0 }

/-- A copy packet's own fields (R399). -/
def copyFieldsOk (w : List Nat) : Bool :=
  (fld (w.headD 0) 39 32 ≤ 5 || (8 ≤ fld (w.headD 0) 39 32 && fld (w.headD 0) 39 32 ≤ 10)) && w.getD 1 0 % 64 = 0

/-- A copy packet's block obeys R271 and names memory only (R399). -/
def copyBlockOk (c : Copy) : Bool :=
  c.reason = none && (c.fn = 5 || c.kind false = 0) && c.kind true = 0 && (!c.isIdx || fld (c.dw 5) 56 56 = 0) && fld (c.dw 6) 16 16 = 0

/-- The walker of a queue copy engine: an agent of no core, which looks in no TLB. -/
def engine (pkg ctx : Nat) : Walker := ({ ctx := ctx, pkg := pkg, core := pkg * 4096, lim := 0, tlb := false } : Walker).io

/-- The copy of packet i of a queue that an engine runs, with its die. -/
def engineCopy (s : State) (pkg q i : Nat) : Option (Nat × Copy) :=
  s.dies.findSome? fun d => if d.1 / 8 = pkg then (d.2.qcopies.find? fun e => e.1 = q ∧ e.2.1 = i).map fun e => (d.1, e.2.2) else none

/-- The copy of packet i of a queue changed, or gone from its engine. -/
def setEngineCopy (die q i : Nat) (c : Option Copy) (s : State) : State :=
  s.modDie die fun y => { y with qcopies := y.qcopies.filterMap fun e => if e.1 = q && e.2.1 = i then c.map fun c => (q, i, c) else some e }

/-- A fault of the queue engine (R399, R423, R425): the record, and the packet fails. -/
def engineFault (pkg q i : Nat) (r : Rec) (s : State) : State :=
  let ctx := openCtx (s.queue pkg q) i
  let s := writeRecord pkg ctx { r with agent := 12, flags := 4, task := ctx * 2 ^ 48 } s
  let s := match engineCopy s pkg q i with | some e => setEngineCopy e.1 q i none s | none => s
  failPacket pkg q i 0x06 ((s.pkg pkg).queues.foldl (fun s e => pokeHead pkg e.1 s) s)

/-- The record of what stops an engine's walk at a progress point. -/
def engineRec (c : Copy) (x : Stop) : Rec := { copyRec 0 c x with whn := 0 }

/-- A copy packet starts on the lowest die of the partition whose engine has room (R399). -/
def copyPacketStart (pkg q : Nat) : State → State := onHead .copyPacket pkg q (fun _ => copyFieldsOk) fun w s =>
  let x := s.queue pkg q
  let e := engine pkg (packetCtx x w)
  match (partDies s pkg x.part).find? fun d => decide ((s.die d).qcopies.length < 16) with
  | none => s
  | some d =>
    match locsOf e s false true 0 (0, 0) (w.getD 1 0) 64 with
    | (_, some y) => engineFault pkg q x.hidx (engineRec {} y) (taken pkg q s)
    | (l, none) =>
      if cleanPrefix e s l 64 < 64 then engineFault pkg q x.hidx { cls := 0x14, addr := w.getD 1 0 } (taken pkg q s)
      else
        let c := packetCopy w (wordsOf 8 8 (l.map (readLoc e s)))
        if !copyBlockOk c then malformed pkg q s
        else (taken pkg q (s.modDie d fun y => { y with qcopies := y.qcopies ++ [(q, x.hidx, c)] })).post .copyPacket { unit := pkg, k := q, n := x.hidx, flag := false }

/-- The walk of a copy packet goes on (R399). -/
def copyPacketWalk (pkg q i : Nat) (s : State) : State :=
  let me : Args := { unit := pkg, k := q, n := i, flag := false }
  match engineCopy s pkg q i with
  | none => s
  | some (d, c) =>
    let e := engine pkg (openCtx (s.queue pkg q) i)
    whenServed (physOf ((c.nextLocs e s).1 ++ (c.nextLocs e s).2)) (·.postOnce .copyPacket me) (fun s =>
      let r := c.stretch e 64 s
      let c' := { r.2.1 with sends := if newChunk c r.2.1 then 0 else c.sends }
      let s := setEngineCopy d q i (some c') (c.caches e s false r.1)
      match r.2.2 with
      | some y => if y.unreach then s.postOnce .unplannedRequestTimeout { unit := pkg, j := 8, k := q, n := i } else engineFault pkg q i (engineRec c' y) s
      | none =>
        if c'.walked then
          ((s.pkg pkg).queues.foldl (fun s e => pokeHead pkg e.1 s) (setEngineCopy d q i none s)).post .packetCompletion { unit := pkg, k := q, n := i }
        else s.postOnce .copyPacket me) s

/-- COPY_PACKET (R399): the start of a copy packet, and with `arg.flag` false the walk of packet `arg.n`. Reads `arg.unit` (package)
and `arg.k` (queue). -/
def execCopyPacket (s : State) : Host.Outcome State Fault Refusal :=
  onEvent s fun s => if s.arg.flag then copyPacketStart s.arg.unit s.arg.k s else copyPacketWalk s.arg.unit s.arg.k s.arg.n s

/-! ### Chunks of copies (R277) -/

/-- The chunk that a walk is at: its payload as far as it can be read, its first byte and its end in the row. -/
def Copy.chunkOf (e : Walker) (s : State) (c : Copy) : List Nat × Nat × Nat :=
  let a := c.o / 4096 * 4096
  let b := min c.n0 (a + 4096)
  let l := (c.rowLocs e s false c.f).1
  (if c.fn = 5 then (List.range (b - a)).map fun i => c.dw 0 / 256 ^ ((a + i) % 8) % 256 else ((l.drop a).take (b - a)).map (readLoc e s), a, b)

/-- The die that serves a location, by key. -/
def Loc.die (e : Walker) : Loc → Nat
  | .phys pa => pa / 2 ^ 45 * 8 + dieAt pa
  | _ => dieOf e.core

/-- The bytes that a walk moves next cross a die port or a fabric port (R277): they come from, or go to, another die than the
engine's. -/
def Copy.crosses (e : Walker) (s : State) (die : Nat) (c : Copy) : Bool :=
  ((c.nextLocs e s).1 ++ (c.nextLocs e s).2).any fun l => l.die e ≠ die

/-- A chunk fails its checksum at a hop (R277, R375), before any of its bytes is written: the hop is charged, and the chunk is sent again,
or on its fourth send it is the checksum fault that `last` makes of its record. `put` puts the copy back. -/
def chunkFails (e : Walker) (die : Nat) (hop : Nat × Nat) (c : Copy) (put : Copy → State → State) (last : Rec → State → State) (s : State) : State :=
  let x := c.chunkOf e s
  if c.walked || c.o % 4096 ≠ 0 || !c.crosses e s die || x.1.isEmpty || ck64 (words32 (flipWord x.1)) = ck64 (words32 x.1) then s
  else
    let s := charge hop s
    if c.sends < 3 then put { c with sends := c.sends + 1 } s
    else last { cls := 0x12, i0 := c.f, i1 := x.2.1 + (x.2.2 - 1) * 2 ^ 32, i2 := hopWord hop 4 } s

/-- A chunk of a channel's copy fails its checksum: resent, counted, or a task stop that names the hop and the chunk (R274, R277). -/
def copyResend (ch num tl : Nat) (hop : Nat × Nat) (s : State) : State :=
  match copyAt s ch num tl with
  | none => s
  | some c =>
    if (s.ch ch).hs || (s.ch ch).pf.isSome then s
    else chunkFails (walker s).io (dieOf s.cur.core) hop c (fun c s => countCore s.cur.core 0x3D 1 (setCopy ch c s))
      (fun r s => (taskStop { copyRec ch c { cls := 0x12 } with flags := 4, i0 := r.i0, i1 := r.i1, i2 := r.i2 } .stop s).modCh ch fun y => { y with hs := true }) s

/-- A chunk of a copy packet fails its checksum (R277, R399). -/
def engineResend (pkg q i : Nat) (hop : Nat × Nat) (s : State) : State :=
  match engineCopy s pkg q i with
  | none => s
  | some (d, c) => chunkFails (engine pkg (openCtx (s.queue pkg q) i)) d hop c (fun c => setEngineCopy d q i (some c)) (engineFault pkg q i) s

/-- COPY_CHUNK_RESEND (R277): a chunk arrives damaged at the hop after the one charged, `arg.j` (package) and `arg.n` (hop code). Reads
`arg.unit` (core), `arg.k` (channel) and `arg.v` (number × 16 + counter), or with `arg.flag` false `arg.unit` (package), `arg.k` (queue)
and `arg.v` (packet). -/
def execCopyChunkResend (s : State) : Host.Outcome State Fault Refusal :=
  onEvent s fun s =>
    if s.arg.flag then
      let t := s.at s.arg.unit .c
      if t.resident then copyResend s.arg.k (s.arg.v / 16) (s.arg.v % 16) (s.arg.j, s.arg.n) t else s
    else engineResend s.arg.unit s.arg.k s.arg.v (s.arg.j, s.arg.n) s

end Sys2Proof.Machine
end

