-- ==== Sys2Proof/Machine/Work.lean ====
section
/-!
DEFINITION. Sys2Proof/Machine/Work.lean: the work that the operations of a C stream do after their issue: slice dot units, near-memory
block forms, page-manager operations, and the completion of numbers (R217, R233, R253, R311 to R317, R334, R341, R342).
-/

namespace Sys2Proof.Machine

/-! ### Slice dot units (R252 to R254) -/

/-- What an engine waits for before it reaches virtual bytes: the walks of pages that no TLB holds (R241), or a memory channel
(R295). -/
def engineWaits (e : Walker) (s : State) (va n : Nat) (l : List Loc) : Option Stop :=
  let miss := (pagesOf va n).filter fun a => coreMisses false s e.core e.ctx a && match walk s e.pkg e.ctx a with | .ok _ => true | .error _ => false
  if !miss.isEmpty then some { cls := 0, wait := true, walks := miss }
  else if !s.chans.isEmpty && (physOf l).any (chanBusy s) then some { cls := 0, wait := true } else none

/-- The lines of virtual bytes that an engine has reached go through their home slices as their pages let them (R235, R245), and their
channels are drawn on (R295). -/
def engineLines (e : Walker) (va n : Nat) (dirty : Bool) (l : List Loc) (s : State) : State :=
  (List.range (if n = 0 then 0 else (va + n - 1) / 128 - va / 128 + 1)).foldl (fun s i => match e.xlate s ((va / 128 + i) * 128) with
    | .ok p => if pteCf p.pte then s else l2Touch p.pa (fillsL2 p.pte 0) dirty s
    | .error _ => s) (if s.chans.isEmpty then s else drawUnits (physOf l) s)

/-- An engine that waits is tried again; the walks that it waits for are queued (R241). -/
def engineAgain (core : Nat) (x : Stop) (i : Instr) (a : Args) (s : State) : State :=
  ((queueWalks core ((s.core core).task.getD {}).ctx x.walks s).2).post i a |> fun s => { s with nfree := s.nfree + 1 }

/-- n bytes of the task's virtual memory with the state after the reading, or what stops it. -/
def engineRead (s : State) (va n : Nat) : Except Stop (List Nat × State) :=
  let e := (walker s).io
  let r := locsOf e s false true 0 (0, 0) va n
  match engineWaits e s va n r.1 with
  | some x => .error x
  | none => match r.2 with
    | some x => .error x
    | none =>
      let k := cleanPrefix e s r.1 n
      if k < n then .error { cls := 0x14, addr := va + k, loc := ((r.1[k]?).map (Loc.lossCode s)).getD 5 }
      else .ok (r.1.map (readLoc e s), engineLines e va n false r.1 s)

/-- Bytes written to the task's virtual memory, or what stops the writing; nothing is written then. -/
def engineWrite (va : Nat) (bytes : List Nat) (s : State) : Except Stop State :=
  let e := (walker s).io
  let r := locsOf e s true true 0 (0, 0) va bytes.length
  match engineWaits e s va bytes.length r.1 with
  | some x => .error x
  | none => match r.2 with
    | some x => .error x
    | none => .ok (engineLines e va bytes.length true r.1 (clearLocs e r.1 (writeLocs e (r.1.zip bytes) s)))

/-- A stage of an `l2.dot` operation: the state after it, what still runs, none when it is complete; or what stops it. -/
abbrev DotStage := Except Stop (State × Option DotRun)

/-- The checks and the reading of block, list and query (R253): a bad status is written and completes the operation. -/
def dotStart (d : LDot) (s : State) : DotStage := do
  let (blk, s) ← engineRead s d.va 64
  let n := ofBytes ((blk.drop 12).take 4)
  let rsv := (blk.drop 0x24).any (· ≠ 0)
  let (list, s) ← if rsv ∨ n = 0 ∨ 4096 < n then pure ([], s) else engineRead s (ofBytes ((blk.drop 16).take 8)) (8 * n)
  match dotChecks d rsv n ((wordsOf 8 n list).map dotEnt) with
  | 0 =>
    let (qb, s) ← engineRead s (ofBytes (blk.take 8)) 256
    let run : DotRun :=
      { q := wordsOf 2 128 qb, c := ofBytes ((blk.drop 8).take 4), out := ofBytes ((blk.drop 24).take 8)
        todo := dotTodo d (wordsOf 8 n list), part := List.replicate 16 (emptyPartial 128) }
    pure (countDie (dieOf s.cur.core) 0x89 1 s, some run)
  | st =>
    let s ← engineWrite (d.va + 0x20) (toBytes 4 st) s
    pure (s, none)

/-- The first poisoned key or value byte of an entry: its place in the lease and its physical address. -/
def dotPoisoned (s : State) (l : Lease) (e : DotEnt) : Option (Nat × Nat) :=
  if s.poison.isEmpty then none
  else (List.range (256 * e.cnt)).findSome? fun i => [e.kp, e.vp].findSome? fun p =>
    let o := 16384 * p + i
    let pa := l.frames.getD (o / 2 ^ 16) 0 + o % 2 ^ 16
    if poisonedAt s pa then some (o, pa) else none

/-- One slice starts its next entry (R253): skipped whole where its lease is no longer held, else scored. -/
def dotEntry (d : LDot) (r : DotRun) (j w : Nat) (s : State) : DotStage :=
  let e := dotEnt w
  let next (t : List Nat) : DotRun := { r with todo := r.todo.modify j (·.drop 1), part := r.part.set j t }
  let t := r.part.getD j []
  match s.lease (dieOf s.cur.core) e.h, d.lease e.h with
  | some l, some l0 =>
    if l.id ≠ l0.id then .ok (s, some (next (dotSkip t)))
    else if let some b := dotPoisoned s l e then .error { cls := 0x14, addr := windowPa (dieOf s.cur.core) e.h b.1, loc := lossPlace s b.2 }
    else .ok (countDie (dieOf s.cur.core) 0x88 e.cnt s, some (next (dotScore s l r.q r.c e t)))
  | _, _ => .ok (s, some (next (dotSkip t)))

/-- A stage of an `l2.dot` operation (R253): its start; then an entry of one of the slices that have some left, which one is open
(log 4); then its outputs and its status. -/
def runDot (d : LDot) (s : State) : DotStage :=
  match d.run with
  | none => dotStart d s
  | some r =>
    let left := (r.todo.zipIdx).filter fun e => !e.1.isEmpty
    match left[Config.freeChoice s.nfree % left.length]? with
    | some (w :: _, j) => dotEntry d r j w { s with nfree := s.nfree + 1 }
    | _ => do
      let s ← engineWrite r.out (r.part.flatMap bytes32) s
      let s ← engineWrite (d.va + 0x20) (toBytes 4 0) s
      pure (s, none)

/-! ### Collecting, broadcasting, filling (R315 to R317) -/

/-- The n bytes of an operand of kind 0 or 1 read on from those that `got` holds: the bytes there are then, and what stops the
reading (R274, R311). -/
def operandBytes (s : State) (w n : Nat) (got : List Nat) : List Nat × Option Stop :=
  let e := (walker s).io
  let a := operandAddr w + got.length
  let r := locsOf e s false true (fld w 57 56) (0, 0) a (n - got.length)
  let k := cleanPrefix e s r.1 (n - got.length)
  (got ++ (r.1.take k).map (readLoc e s), if k < r.1.length then some { cls := 0x14, addr := a + k, loc := ((r.1[k]?).map (Loc.lossCode s)).getD 5 } else r.2)

/-- What the operand of a block form waits for, and the state after its lines have been reached (R235, R241, R295): the n bytes on from
those that have been moved. -/
def operandReach (s : State) (dst : Bool) (w n : Nat) (got : Nat) : Option Stop × State :=
  if fld w 57 56 ≠ 0 then (none, s)
  else
    let e := (walker s).io
    let a := operandAddr w + got
    let l := (locsOf e s dst true 0 (0, 0) a (n - got)).1
    match engineWaits e s a (n - got) l with
    | some x => (some x, s)
    | none => (none, engineLines e a l.length dst l s)

/-- The work of a block form (R315 to R317): the state after it, the operation with the bytes it has moved, and what stops it at
its progress point (R311), if anything does. -/
def nmWork (o : NmOp) (s : State) : State × NmOp × Option Stop :=
  let sp := nmSpan o.kind o.blk
  let go := operandReach s (o.kind = 1) sp.1 sp.2 o.got.length
  let s := go.2
  if go.1.isSome then (s, o, go.1)
  else if o.kind = 1 then
    let e := (walker s).io
    let bad := collPoisoned s o.blk
    let all := bytes32 (collected s o.blk)
    let rest := (match bad with | some k => all.take (4 * k) | none => all).drop o.got.length
    let r := locsOf e s true true (fld sp.1 57 56) (0, 0) (operandAddr sp.1 + o.got.length) rest.length
    (clearLocs e r.1 (writeLocs e (r.1.zip rest) s), { o with got := o.got ++ rest.take r.1.length }, if r.2.isSome then r.2 else bad.map fun _ => { cls := 0x14, loc := 6 })
  else
    let r := operandBytes s sp.1 sp.2 o.got
    let o := { o with got := r.1 }
    let w := o.blk.getD 0 0
    if r.2.isSome then (s, o, r.2)
    else if o.kind = 2 then
      let i := fld (o.blk.getD 2 0) 2 0
      (((chanRange s w).getD []).foldl (fun s mc => s.modChan (chanKey s mc) fun c =>
        { c with qs := (c.qs ++ List.replicate (8 - c.qs.length) []).set i (if sp.2 = 544 then r.1 else r.1 ++ (c.query i).drop 512) }) s, o, none)
    else
      let n := fld w 40 32
      (s.modChan (chanKey s (fld w 8 0)) fun c => c.modWalk (fld w 19 16) fun x =>
        { x with ent := (List.range 256).map fun i => if i < n then (words32 r.1).getD i 0 else x.ent.getD i 0, len := n }, o, none)

/-! ### Completion (R217) -/

/-- A stage of an `l2.dot` operation of the executing task, once the accesses before it are performed (R230, R253, R254). -/
def dotAdvance (d : LDot) (a : Args) (s : State) : State :=
  let put (f : List LDot → List LDot) (s : State) : State := s.modTask fun t => { t with ldots := f t.ldots }
  if d.pf.isSome then s
  else if !performedBefore s.task d.seq then s.post .timelineMarkAdvance a
  else match runDot d s with
    | .error x =>
      if x.wait then engineAgain s.cur.core x .timelineMarkAdvance a s
      else if x.unreach then s.post .unplannedRequestTimeout (s.held 2 a.k a.n) else dotFault d x s
    | .ok (s, none) => completeNum d.tl d.num (put (·.filter (· ≠ d)) s)
    | .ok (s, some r) => (put (·.map fun y => if y = d then { d with run := some r } else y) s).post .timelineMarkAdvance a

/-- A block form of the executing task does its work, once the accesses before it are performed (R230, R270, R311). -/
def nmAdvance (o : NmOp) (a : Args) (s : State) : State :=
  let put (f : List NmOp → List NmOp) (s : State) : State := s.modTask fun t => { t with nms := f t.nms }
  if o.pf.isSome then s
  else if o.kind = 0 then (if o.left = [] then completeNum o.tl o.num (put (·.filter (· ≠ o)) s) else s)
  else if !performedBefore s.task o.seq then s.post .timelineMarkAdvance a
  else
    let r := nmWork o s
    match r.2.2 with
    | some x =>
      let s := put (·.map fun y => if y = o then r.2.1 else y) r.1
      if x.wait then engineAgain s.cur.core x .timelineMarkAdvance a s
      else if x.unreach then s.post .unplannedRequestTimeout (s.held 2 a.k a.n) else nmWorkFault r.2.1 x s
    | none => completeNum o.tl o.num (put (·.filter (· ≠ o)) r.1)

/-- An operation of a task completes on its counter; an `l2.dot` or a block form first does its work (R217). A task that is away
gets its completion where it is saved, unless the work is still to be done; one that has ended has no counter (R222). -/
def markAdvance (a : Args) (s : State) : State :=
  let s := s.at a.unit .c
  let t := s.task
  if !s.resident || t.id ≠ a.v then s.modTaskId a.unit a.v fun t =>
    if (t.ldots.any fun d => d.tl = a.k && d.num = a.n) || t.nms.any (fun o => o.tl = a.k && o.num = a.n) then t
    else { t with tls := t.tls.modify a.k fun c => c.complete a.n }
  else match t.ldots.find? fun d => d.tl = a.k && d.num = a.n with
    | some d => dotAdvance d a s
    | none => match t.nms.find? fun o => o.tl = a.k && o.num = a.n with
      | some o => nmAdvance o a s
      | none => completeNum a.k a.n s

/-- TIMELINE_MARK_ADVANCE (R217). Reads `arg.unit` (core), `arg.k` (counter), `arg.n` (number), `arg.v` (`taskid`). -/
def execTimelineMarkAdvance (s : State) : Host.Outcome State Fault Refusal := onEvent s fun s => markAdvance s.arg s

/-! ### Operations of the page manager (R334, R335, R341, R342) -/

/-- The bytes of a `kv.map` written to its destination (R342), each page checked as a store's before the first is written, or what
stops it; nothing for a task that is gone (R335). -/
def kvWrite (op : KvOp) (w : Nat) (bytes : List Nat) (s : State) : Except Stop State :=
  if !kvAlive op s then .ok s
  else
    let s := s.at op.core .c
    let e := (walker s).io
    let go := operandReach s true w bytes.length 0
    let r := locsOf e s true true (fld w 57 56) (0, 0) (operandAddr w) bytes.length
    match go.1, r.2 with
    | some x, _ | none, some x => .error x
    | none, none => .ok (clearLocs e r.1 (writeLocs e (r.1.zip bytes) go.2))

/-- `kv.map` carried out (R342), or what stops its writes. -/
def kvMapDo (op : KvOp) (s : State) : Except Stop (Nat × State) :=
  let lim := match (s.core op.core).task with | some t => t.spadBytes | none => 0
  let r := mapResult s op.blk lim
  let g := match s.seq (op.blk.getD 0 0 % 2 ^ 32) with | some q => q.gen | none => 0
  match (if r.1 = 0 then kvWrite op (op.blk.getD 4 0) r.2.flatten s else .ok s) with
  | .error x => .error x
  | .ok s => .ok (r.1 + g * 2 ^ 16 + r.2.length * 2 ^ 32, s)

/-- An append list goes on by an entry, waits for a home that no route reaches, or is over (R341, R468). -/
def kvAppend (a : Args) (op : KvOp) (s : State) : State :=
  let again (op : KvOp) (s : State) : State := (s.modPkg a.unit fun p => { p with kvOps := p.kvOps.map fun e => if e.1 = a.n then (a.n, op) else e }).post .kvOperationComplete a
  if op.open'.isEmpty then
    let r := appendEnd op s
    countPkg a.unit 0xD1 1 (kvReply a.unit a.n op r.1 r.2)
  else match appendStep a.unit op s with
    | some (op, s) => again op s
    | none => s.post .unplannedRequestTimeout { a with j := 3, k := entHome (op.open'.headD (0, 0)).1 + 1 }

/-- KV_OPERATION_COMPLETE (R334, R335): the page manager carries an operation out once the accesses before it are performed and the
task's earlier operations are over; a `kv.map` waits for a task that is away (R342), and a home that no route reaches is waited for. Reads `arg.unit` (package), `arg.n` (operation),
`arg.flag` (no chunk of its copy failed a fourth send). -/
def kvComplete (a : Args) (s : State) : State :=
  let pkg := a.unit
  match (s.pkg pkg).kvOps.find? fun e => e.1 = a.n with
  | none => s
  | some (_, op) =>
    let ready := match (s.core op.core).task with | some t => !kvAlive op s || performedBefore t op.seq | none => true
    if op.pf.isSome then s
    else if !ready || (kvAway op s && match op.ins with | .kvMap _ _ => true | _ => false) || kvBehind pkg a.n op s then s.post .kvOperationComplete a
    else if !reachable s pkg (op.home pkg * 2 ^ 45) then s.post .unplannedRequestTimeout { a with j := 3, k := 0 }
    else
      let me := { s.cur with core := op.core, st := StreamId.c }
      let s := if kvAlive op s then { perform 6 (viewAt op.seq { s with cur := me }) { s with cur := me } with cur := s.cur } else s
      match op.ins with
      | .kvApp _ _ _ => kvAppend a op s
      | .kvMap _ _ => match kvMapDo op s with
        | .error x =>
          if x.wait then engineAgain op.core x .kvOperationComplete a s
          else if x.unreach then s.post .unplannedRequestTimeout { a with j := 3, k := 0 } else kvMapStops pkg a.n op x s
        | .ok r => countPkg pkg 0xD1 1 (kvReply pkg a.n op r.1 r.2)
      | _ =>
        let r := kvDo pkg op a.flag s
        countPkg pkg 0xD1 1 (kvReply pkg a.n op r.1 r.2)

/-- KV_OPERATION_COMPLETE (R334, R335). -/
def execKvOperationComplete (s : State) : Host.Outcome State Fault Refusal := onEvent s fun s => kvComplete s.arg s

end Sys2Proof.Machine
end

