-- ==== Sys2Proof/Machine/Flow.lean ====
section
/-!
DEFINITION. Sys2Proof/Machine/Flow.lean: what goes on beside the streams: results and loads that land, stores that leave, fetches,
walks, waits that are served, follow-on commands, and requests that no route carries (R91 to R101, R123, R130, R131, R134, R144,
R198 to R201, R226, R241, R468).
-/

namespace Sys2Proof.Machine

/-! ### Results (R91 to R101) -/

/-- A stream's results whose cycle has come land, before its move of the wall cycle; an ended stream's cycles go on until the last has
landed (R416). -/
def resultLanding (core : Nat) (st : StreamId) (s : State) : State :=
  let s := s.at core st
  let x := s.str
  if s.moved.contains (Mover.stream core st).key then s
  else match x.status with
  | .running => if x.frozen.isSome || (lateCause x).isSome then s else landDue s
  | .ended => if x.flights.isEmpty || (lateCause x).isSome then s else landDue s
  | _ => if !s.landsOn || x.flights.isEmpty || (lateCause x).isSome then s else landDue s

/-- RESULT_LANDING (R91). Reads `arg.unit` (core) and `arg.st`. -/
def execResultLanding (s : State) : Host.Outcome State Fault Refusal := onEvent s fun s => resultLanding s.arg.unit s.arg.st s

/-- INTERLOCK_RESULT_READY (R99): the result exists from the wall cycle that its unit's native latency gives (the worked example of
R100), or from an open one where its request is answered late. Reads `arg.unit` (core), `arg.st`, `arg.k`, its number in the stream,
and `arg.v`, that wall cycle. -/
def execInterlockResultReady (s : State) : Host.Outcome State Fault Refusal :=
  onEvent s fun s => if s.wall < s.arg.v then s.post .interlockResultReady s.arg else (s.at s.arg.unit s.arg.st).modStr fun x =>
    { x with flights := x.flights.map fun f => if f.seq = s.arg.k ∧ f.req.isNone then { f with wait := 0 } else f }

/-! ### Loads and stores (R93, R100, R123, R208 to R215, R295, R468) -/

/-- Every place of these physical bytes is reached by a route from the executing core's package. -/
def allReached (s : State) (l : List Nat) : Bool := l.all (reachable s (pkgOf s.cur.core))

/-- An access waits for a memory channel (R295): the event is tried again. -/
def waitChan (i : Instr) (a : Args) (s : State) : State := { s with nfree := s.nfree + 1 }.post i a

/-- What an unsampled load brings: plain bytes or a register window's; an atomic update of a register writes it in the same
step (R9, R215). -/
def sampleAny (q : Nat) (r : LoadReq) (s : State) : Land × State :=
  match r.addrs.head? with
  | some pa =>
    if isWindow pa then
      let bytes := windowRead s (pa / 2 ^ 45) (pa % 2 ^ 45) r.addrs.length
      (r.how.land bytes, match r.how with
        | .atomic op _ n v new => match atomicNew op n (ofBytes bytes) v new with
          | some w => windowWrite (pa / 2 ^ 45) (pa % 2 ^ 45) n w s
          | none => s
        | _ => s)
    else sample q r s
  | none => sample q r s

/-- A remote request of a core is outstanding no more (R355). -/
def endRemote (remote : Bool) (s : State) : State := if remote then s.modCore s.cur.core fun c => { c with remote := c.remote - 1 } else s

/-- A load in flight is given up with a data-loss fault at its instruction (R124, R428). -/
def loseLoad (f : Flight) (r : LoadReq) (loc : Nat) (s : State) : State :=
  takeFaultOf r.org { cls := 0x14, addr := r.va, i0 := loc } .never
    (endRemote r.remote (s.modStr fun x => { x with flights := x.flights.filter fun g => g.seq ≠ f.seq, stamp := if r.hard then none else x.stamp }))

/-- The unsampled load number k of the executing stream. -/
def loadOf (s : State) (k : Nat) : Option (Flight × LoadReq) := (s.str.flights.find? fun f => f.seq = k).bind fun f => f.req.map fun r => (f, r)

/-- The data of load number k of a stream come once nothing earlier holds it back (R93, R100, R208, R212), an SC load in the order of
its wheel (R227), and its memory channel serves it (R295). -/
def loadArrives (k : Nat) (s : State) : State :=
  let me : Args := { unit := s.cur.core, st := s.cur.st, k := k }
  match loadOf s k with
  | none => s
  | some (f, r) =>
    if r.remote && !allReached s r.addrs then s.post .unplannedRequestTimeout (s.held 0 k 0)
    else if !maySample s.str f r || (r.hard && !scTurn s) then s.post .loadDataArrival me
    else if r.addrs.any (chanBusy s) then waitChan .loadDataArrival me s
    else if r.remote && s.poison.contains (.router (pkgOf s.cur.core)) then loseLoad f r 7 (unpoison (· = .router (pkgOf s.cur.core)) s)
    else match (if s.poison.isEmpty then none else r.addrs.find? fun a => (forwarded s.str k a).isNone && poisonedAt s a) with
      | some pa => loseLoad f r (lossPlace s pa) s
      | none =>
        let o := sampleAny k r (drawUnits r.addrs s)
        endRemote r.remote (o.2.modStr fun x =>
          { x with
            flights := x.flights.map fun g => if g.seq = k then { g with land := o.1, req := none, wait := 0 } else g
            stamp := if r.hard then none else x.stamp })

/-- A line of an operand of the matrix engine comes into its staging buffer of 1,024 lines (R184, R188). -/
def stageLine (line : Nat) (s : State) : State :=
  let s := s.modTask fun t => { t with staged := (line :: t.staged.filter (· ≠ line)).take 1024 }
  if isWindow (line * 128) then
    let v := ofBytes (windowRead s (line / 2 ^ 38) (line * 128 % 2 ^ 45) 128)
    s.modTask fun t => { t with mwin := tabSet 0 t.mwin line v }
  else s

/-- A line that the matrix engine has asked for comes, for the task that asked (R188, R295, R468). -/
def lineArrives (line id va : Nat) (s : State) : State :=
  if s.task.id ≠ id then s
  else if !reachable s (pkgOf s.cur.core) (line * 128) then s.post .unplannedRequestTimeout (s.held 6 va line)
  else whenServed [line * 128] (·.post .loadDataArrival { unit := s.cur.core, st := .m, n := id, v := line, j := va })
    (fun s => stageLine line (endRemote (isRemote s (line * 128)) s)) s

/-- The rows of a tile's window that the staging buffer of 128 KiB can hold, as virtual byte ranges. -/
def windowParts (d : Dd) : List (Nat × Nat) := d.part 0 (min d.rows (1024 / (d.rowBytes / 128 + 1))) 0 (min d.cols (2 ^ 17 / max 1 d.ef.bytes))

/-- The operand fetcher copies a window's rows into the staging buffer (R184): those of pages that a walk finds and that hold plain
memory; it never faults. -/
def stageWindow (n : Nat) (s : State) : State :=
  let d := resolveD s.task.ctx (s.dreg n) (tileEntry s (s.dreg n))
  let good (va : Nat) : Bool := match coreXlate s s.cur.core s.task.ctx va with
    | .ok p => !pteCmp p.pte && !pteCf p.pte && reachable s (pkgOf s.cur.core) p.pa
    | .error _ => false
  if d.kind ≠ 2 || d.bad7 then s
  else (linesOf s ((windowParts d).filter fun e => (pagesOf e.1 e.2).all good)).foldl (fun s l => stageLine l s) s

/-- LOAD_DATA_ARRIVAL (R100, R184, R188). Reads `arg.unit` (core), `arg.st`, and the load's number in `arg.k`; for the M stream the
line in `arg.v`, the address that asked for it in `arg.j` and the task in `arg.n`, or with `arg.k` 1 the descriptor in `arg.n` whose window is prefetched. -/
def execLoadDataArrival (s : State) : Host.Outcome State Fault Refusal :=
  onEvent s fun s =>
    let t := s.at s.arg.unit s.arg.st
    if !t.resident then s
    else if s.arg.st ≠ .m then loadArrives s.arg.k t
    else if s.arg.k = 1 then stageWindow s.arg.n t
    else lineArrives s.arg.v s.arg.n s.arg.j t

/-- A store waits at the router (R468). -/
def storeHeld (s : State) (e : SbEnt) : Bool :=
  s.agenda.any fun a => a.1 = .unplannedRequestTimeout && a.2.j = 4 && a.2.unit = s.cur.core && a.2.st = s.cur.st && a.2.k = e.seq

/-- A store has left its buffer (R123, R207 to R213): what a `fence.rel` before it covers is performed at the fence's scope; then its
bytes enter memory, or a register window. -/
def drained (e : SbEnt) (s : State) : State :=
  let s := (drawUnits e.addrs s).modStr fun x => { x with sbuf := x.sbuf.filter fun d => d.seq ≠ e.seq }
  let s := performFen e.fen s
  let s := if e.addrs.any isWindow then storeAny e.cells s
    else enterMem e.seq e.so e.un (relsOf e.seq e.rel e.sc e.fen s ++ heldRels s e.addrs false) e.cells s
  endRemote e.remote (match e.addrs.head? with | some a => cached e.fill e.l2 a true s | none => s)

/-- A store of the executing stream that nothing holds back leaves its buffer (R123, R208, R209, R213, R295): which one is open
(log 7). -/
def drainOne (s : State) : State :=
  let x := s.str
  let me : Args := { unit := s.cur.core, st := s.cur.st }
  let l := x.sbuf.filter fun e => mayDrain x e && !storeHeld s e
  if x.sbuf.all (storeHeld s) then s
  else match l[Config.freeChoice s.nfree % l.length]? with
  | none => s.post .storeBufferDrain me
  | some e =>
    let s : State := { s with nfree := s.nfree + 1 }
    if !allReached s e.addrs then s.post .unplannedRequestTimeout (s.held 4 e.seq 0)
    else if e.addrs.any (chanBusy s) then waitChan .storeBufferDrain me s
    else drained e s

/-- STORE_BUFFER_DRAIN (R123). Reads `arg.unit` (core) and `arg.st`. -/
def execStoreBufferDrain (s : State) : Host.Outcome State Fault Refusal :=
  onEvent s fun s => let t := s.at s.arg.unit s.arg.st; if t.resident then drainOne t else s

/-! ### Fetch and walks (R95, R124, R241, R428) -/

/-- A line put into the executing core's instruction cache of 512 lines. -/
def fillIcache (va : Nat) (bytes : List Nat) (s : State) : State :=
  let key := icKey s.task.ctx va
  countCore s.cur.core 0x43 1 { s.modCore s.cur.core fun c => { c with icache := ((key, ofBytes bytes) :: c.icache.filter fun e => e.1 ≠ key).take 512 } with
    poison := s.poison.filter fun p => match p with | .icache c w => !(c = s.cur.core && w / 8 = va / 64) | _ => true }

/-- The line that the executing stream waits for comes into the instruction cache, or its fetch faults (R95, R241, R246). `fresh` says that
no walk has been asked for it. -/
def fetchFill (fresh : Bool) (s : State) : State :=
  let va := fetchVa s
  let line := va / 64 * 64
  let me : Args := { unit := s.cur.core, st := s.cur.st }
  let stop (f : State → State) : State := f (s.modStr fun x => { x with word := 0 })
  if !wantsFetch s then s
  else if coreMisses (!fresh) s s.cur.core s.task.ctx line then
    let r := queueWalks s.cur.core s.task.ctx [line] s
    r.2.post .instructionFetchFill { me with flag := !r.1 }
  else match coreXlate s s.cur.core s.task.ctx line with
    | .error (r, l) =>
      if r = poisonedEntry then stop (dataLoss 5 va)
      else stop (takeFault { cls := 0x0B, reason := r, addr := va, i0 := 3, i1 := l } .retry)
    | .ok p =>
      if pteCmp p.pte then stop (fault 0x03 0 va)
      else if pteCf p.pte then fillIcache va (patternBytes s p.pte line 64) s
      else if !reachable s (pkgOf s.cur.core) p.pa then s.post .unplannedRequestTimeout (s.held 5 0 0)
      else whenServed [p.pa] (·.post .instructionFetchFill me) (fun s =>
        if (List.range 64).any fun i => poisonedAt s (p.pa + i) then dataLoss (lossPlace s p.pa) va (s.modStr fun x => { x with word := 0 })
        else l2Touch p.pa (fillsL2 p.pte 0) false (fillIcache va (readBytes s p.pa 64) s)) s

/-- INSTRUCTION_FETCH_FILL (R95). Reads `arg.unit` (core) and `arg.st`; with `arg.flag` false the walk that the fetch waits for has been
asked for. -/
def execInstructionFetchFill (s : State) : Host.Outcome State Fault Refusal :=
  onEvent s fun s => let t := s.at s.arg.unit s.arg.st; if t.resident then fetchFill s.arg.flag t else s

/-- The reason with which a walk has ended, given to every stream of a die that waits for its page (R241). -/
def walkFails (die : Nat) (w : Walk) (r : Nat × Nat) (s : State) : State :=
  let str (x : Stream) : Stream := if x.miss = some (w.va / 2 ^ 16) then { x with walkRes := some r } else x
  { s with cores := s.cores.map fun (c : Nat × Core) =>
      if dieOf c.1 = die then
        (c.1, { c.2 with task := c.2.task.map fun t => if t.ctx = w.ctx then { t with s := str t.s, v := str t.v, m := str t.m, c := str t.c } else t })
      else c }

/-- One of a die's 64 walkers takes the oldest queued walk (R14, R241). -/
def walkStarts (die : Nat) (s : State) : State :=
  match (s.die die).walkq with
  | [] => s
  | w :: rest =>
    if 64 ≤ (s.die die).walkers.length then s.post .pageWalk { unit := die }
    else (countDie die 0x85 1 (s.modDie die fun d => { d with walkq := rest, walkers := d.walkers ++ [w] })).post .pageWalk
      { unit := die, k := w.ctx, v := w.va, flag := false }

/-- The table entries that a walk of n levels reads, by their physical addresses (R237). -/
def walkReads (s : State) (pkg va : Nat) : Nat → Nat → List Nat
  | 0, _ => []
  | n + 1, t =>
    let a := t + 8 * (va / 2 ^ (levelBits n).1 % (levelBits n).2)
    if t / 2 ^ 45 ≠ pkg ∨ hbmTop ≤ t % 2 ^ 45 then []
    else
      let e := ofBytes (readBytes s a 8)
      a :: (if fld e 63 62 = 2 ∧ n ≠ 0 then walkReads s pkg va n (fld e 45 0 * 2 ^ 12) else [])

/-- A walk under way ends (R237 to R241): its translation goes to the die's TLB of 16,384 entries, or its reason to those who wait. -/
def walkEnds (die : Nat) (w : Walk) (s : State) : State :=
  if !(s.die die).walkers.contains w then s
  else whenServed (walkReads s (die / 8) w.va 5 (fld (ctxEntry s (die / 8) w.ctx) 109 64 * 2 ^ 12)) (·.post .pageWalk { unit := die, k := w.ctx, v := w.va, flag := false })
    (fun s =>
      let s := s.modDie die fun d => { d with walkers := d.walkers.erase w }
      match walk s (die / 8) w.ctx w.va with
      | .ok p => s.modDie die fun d => { d with tlb := tlbAdd 16384 d.tlb { ctx := w.ctx, vpn := w.va / 2 ^ p.bits, bits := p.bits, pte := p.pte } }
      | .error r => walkFails die w r s) s

/-- PAGE_WALK (R241). Reads `arg.unit` (die); with `arg.flag` false the walk of context `arg.k` and address `arg.v` ends. -/
def execPageWalk (s : State) : Host.Outcome State Fault Refusal :=
  onEvent s fun s => if s.arg.flag then walkStarts s.arg.unit s else walkEnds s.arg.unit { ctx := s.arg.k, va := s.arg.v } s

/-! ### Waits that are served (R130, R131, R134, R144, R226) -/

/-- What a completed instruction leaves; the state before it where it has none. -/
def after (s : State) (o : Host.Outcome State Fault Refusal) : State := match o with | .next s' => s' | _ => s

/-- The instruction with which a stream may stand frozen for coverage or hours, run again; none for any other. -/
def rerun (i : Instr) (s : State) : Option State :=
  match i with
  | .semSig g n k => some (after s (execSemSig g n k s))
  | .gbArr g n => some (after s (execGbArr g n s))
  | .gbSync g n => some (after s (execGbSync g n s))
  | .scLd g d a sz x o => some (after s (execScLd g d a sz x o s))
  | .scSt g d a sz x o => some (after s (execScSt g d a sz x o s))
  | _ => none

/-- The SC accesses. -/
def isSc : Instr → Bool
  | .scLd .. | .scSt .. => true
  | _ => false

/-- A semaphore signal. -/
def isSemSig : Instr → Bool
  | .semSig .. => true
  | _ => false

/-- The gang-barrier instructions that arrive. -/
def isArrival : Instr → Bool
  | .gbArr .. | .gbSync .. => true
  | _ => false

/-- A stream frozen in a word of one of these kinds tries it again in a turn of its own (R95), which is its move of the wall cycle. -/
def retryHeld (kinds : Instr → Bool) (s : State) : State :=
  match s.str.frozen, s.str.held with
  | some _, some i =>
    if !kinds i then s
    else match beginTurn s with
      | .error _ => s
      | .ok (j, s1) => match (if kinds j then rerun j s1 else none) with
        | none => s
        | some s2 =>
          let t := endTurn s s2
          if t.str.frozen.isSome then t else { t with moved := (Mover.stream s.cur.core s.cur.st).key :: t.moved }
  | _, _ => s

/-- SC_ACCESS_ISSUE (R226): the S stream's SC access issues in a tick of an owned hour, with everything earlier performed. Reads
`arg.unit` (core). -/
def execScAccessIssue (s : State) : Host.Outcome State Fault Refusal :=
  onEvent s fun s => let t := s.at s.arg.unit .s; if t.resident then retryHeld isSc t else s

/-- SEM_SIGNAL_APPLY (R131): a signal's addition once what it covers is performed. Reads `arg.unit` (core) and `arg.st`. -/
def execSemSignalApply (s : State) : Host.Outcome State Fault Refusal :=
  onEvent s fun s => let t := s.at s.arg.unit s.arg.st; if t.resident then retryHeld isSemSig t else s

/-- GB_ARRIVAL_APPLY (R144): an arrival once what it covers is performed. Reads `arg.unit` (core) and `arg.st`. -/
def execGbArrivalApply (s : State) : Host.Outcome State Fault Refusal :=
  onEvent s fun s => let t := s.at s.arg.unit s.arg.st; if t.resident then retryHeld isArrival t else s

/-- A stream by its number. -/
def strOf : Nat → StreamId
  | 0 => .s | 1 => .v | 2 => .m | _ => .c

/-- The wait of a stream of the executing core is served (R130, R134): it takes its count, and its cycle is over. A wait served in the
wall cycle of its issue has not frozen. -/
def semServed (st : StreamId) (n k : Nat) (s : State) : State :=
  let s := s.at s.cur.core st
  let was := s.modStr fun x => { x with frozen := if x.frzc then x.frozen else none }
  endTurn was (semTake n k st.num (if s.str.status = .running then s.modStr fun x => { x with frozen := none } else s))

/-- The oldest waiter of a semaphore takes its count where that suffices (R130, R134). -/
def semService (n : Nat) (s : State) : State :=
  match (s.sem n).waiters.head? with
  | none => s
  | some w => if (s.sem n).cnt < w.2 then s else semServed (strOf w.1) n w.2 s

/-- SEM_WAIT_SERVICE (R130): the clock's service of a queue at its place in R134's order. Reads `arg.unit` (core) and `arg.k`. -/
def execSemWaitService (s : State) : Host.Outcome State Fault Refusal :=
  onEvent s fun s => let t := s.at s.arg.unit .s; if t.resident then semService s.arg.k t else s

/-- The queued waiters that the counts suffice for (R134): a queue holds at most four. -/
def serveQueues (s : State) : State :=
  (List.range s.task.sems.length).foldl (fun s n => if (s.sem n).waiters.isEmpty then s else semService n (semService n (semService n (semService n s)))) s

/-- A wait or try of this wall cycle (R130, R132, R134): a wait joins the back of its queue and is served if it heads it. -/
def semIssue (a : SemAsk) (s : State) : State :=
  match a with
  | .wait st n k =>
    let t := semService n (s.modSem n fun m => { m with waiters := m.waiters ++ [(st.num, k)] })
    if (t.sem n).waiters.any fun w => w.1 = st.num then countCore t.cur.core 0x4A 1 t else t
  | .try' st n p seq =>
    let s := s.at s.cur.core st
    if (s.sem n).waiters.isEmpty ∧ 1 ≤ (s.sem n).cnt then setLand seq (.pred p true) (semTake n 1 st.num s) else s
  | .read _ _ _ _ => s

/-- A sample of this wall cycle (R133, R134). -/
def semSample (a : SemAsk) (s : State) : State :=
  match a with
  | .read st n r seq => let s := s.at s.cur.core st; setLand seq (.regs [(r, BitVec.ofNat 64 (s.sem n).cnt)]) s
  | _ => s

/-- The stream of a semaphore instruction. -/
def SemAsk.str : SemAsk → StreamId
  | .wait st _ _ | .try' st _ _ _ | .read st _ _ _ => st

/-- The changes of a task's semaphores after the signals of a wall cycle (R134, steps 3 to 5). A queue of a task that has stopped for its save is
served after its resumption only (DESIGN CHOICE, log 20: R137 saves the queue positions and names no service of a stopped task). -/
def semCycle (s : State) : State :=
  let l := sortBy (fun a b => decide (a.str.num ≤ b.str.num)) s.task.semq
  let s := s.modTask fun t => { t with semq := [] }
  let s := if s.task.halt.isSome then s else serveQueues s
  l.foldl (fun s a => semSample a s) (l.foldl (fun s a => semIssue a s) s)

/-! ### Follow-on commands (R198 to R201, R269) -/

/-- The attachments that wait to arrive, by the wall cycle in which they became ready, then by channel (R200). -/
def readyList (t : Task) : List (Nat × Nat) :=
  sortBy (fun a b => a.1 < b.1 || (a.1 = b.1 && a.2 ≤ b.2))
    ((t.ch.zipIdx).flatMap fun e => (e.1.q.filter fun c => c.fn = 11).filterMap fun c => c.ready.map fun r => (r, e.2))

/-- The command of an attachment (R269). -/
def Copy.command (c : Copy) (id ch num : Nat) (tl : Option Nat) : Follow :=
  { id := id, num := num, numTl := tl, ch := ch, mul := c.offs % 2 = 1, acc := fld c.offs 3 1, tr := fld c.offs 4 4 * 2 + fld c.offs 5 5
    da := BitVec.ofNat 256 (ofBytes ((c.blk.take 4).flatMap (toBytes 8))), db := BitVec.ofNat 256 (ofBytes ((c.blk.drop 4).flatMap (toBytes 8))) }

/-- An attachment arrives at the matrix queue of at most 16 commands and takes its number (R198, R200, R269). -/
def followArrive (s : State) : State :=
  let core := s.cur.core
  let t := s.task
  match readyList t with
  | [] => s
  | e :: _ =>
    if 16 ≤ t.follow.length then s
    else if s.wall < e.1 then s.post .followOnArrival { unit := core, k := e.2 }
    else match (s.ch e.2).q.find? fun c => c.fn = 11 && c.ready = some e.1 with
      | none => s
      | some c =>
        let tl := matrixTl t
        let f := c.command t.nfollow e.2 (nextNumber s tl) tl
        let s := match tl with | some k => takeNumber k s | none => s
        countCore core 0x33 1 ((s.modCh e.2 fun x => { x with q := x.q.erase c }).modTask fun t => { t with follow := t.follow ++ [f], nfollow := t.nfollow + 1 })

/-- FOLLOW_ON_ARRIVAL (R269). Reads `arg.unit` (core). -/
def execFollowOnArrival (s : State) : Host.Outcome State Fault Refusal :=
  onEvent s fun s => let t := s.at s.arg.unit .m; if t.resident then followArrive t else s

/-- A product or a load of a tile is under way in the M stream, or had an issue cycle in this wall cycle (R199). -/
def arrayTaken (s : State) : Bool :=
  s.task.mmWall = some s.wall || match s.task.m.occ with
  | some o => match o.ins with
    | .mmMac _ _ _ _ => true
    | .mmMul _ _ _ _ => true
    | .mmLdacc _ _ => true
    | _ => false
  | none => false

/-- A command of the queue put back. -/
def setFollow (f : Follow) (s : State) : State := s.modTask fun t => { t with follow := t.follow.map fun x => if x.id = f.id then f else x }

/-- A command fails (R199): a task stop that names its copy channel and its number; it writes nothing and is never complete. -/
def failFollow (f : Follow) (e : VBad) (s : State) : State :=
  taskStop { cls := e.1, reason := e.2.1, agent := 8, whn := f.num % 2 ^ 60 + f.numTl.getD 0 * 2 ^ 60, addr := e.2.2, i0 := f.ch } .stop
    (setFollow { f with running := true, dead := true } s)

/-- The lowest-numbered waiting command takes the free array and its shadow, with its checks and its copies of the tile table
entries; it reads its accumulator (R180, R184, R189, R199). -/
def followTake (s : State) : State :=
  let t := s.task
  match t.follow.filter fun f => !f.running with
  | [] => s
  | f :: l =>
    let f := l.foldl (fun a b => if b.num < a.num then b else a) f
    if t.follow.any Follow.holds || arrayTaken s || decide (8 ≤ shadows t) then s
    else
      let g := { f with ea := tileEntry s f.da, eb := tileEntry s f.db }
      match prodChecks s g.tr g.da g.db g.ea g.eb with
      | .error e => failFollow f e s
      | .ok x => setFollow { g with running := true, tile := startTile x g.mul (s.accTile g.acc) } s

/-- FOLLOW_ON_START (R199): the array's own step at its place in the wall cycle. Reads `arg.unit` (core). -/
def execFollowOnStart (s : State) : Host.Outcome State Fault Refusal :=
  onEvent s fun s => let t := s.at s.arg.unit .m; if t.resident then followTake t else s

/-- The translation of a page for the load pipes (R188, R240): the page, or the reason and level of its walk; none while it is walked. -/
def pipePage (asked : Bool) (s : State) (va : Nat) : Except (Nat × Nat) (Option Page) :=
  match s.task.mtlb.find? (·.hits s.task.ctx va) with
  | some e => (e.look va).map some
  | none => if coreMisses asked s s.cur.core s.task.ctx va then .ok none else (coreXlate s s.cur.core s.task.ctx va).map some

/-- What is wrong with a page of a running command's operands (R190). -/
def pageBad (asked : Bool) (s : State) (va : Nat) : Option VBad :=
  match pipePage asked s va with
  | .error (r, _) => some (if r = poisonedEntry then (0x14, 0, va) else (0x0B, r, va))
  | .ok (some p) => if pteCmp p.pte then some (0x03, 0, va) else none
  | .ok none => none

/-- What a group of a running command meets before it may be folded (R188 to R191): a failure, or the pages still to be walked and the
lines still to come. -/
def followNeeds (asked : Bool) (s : State) (x : Prod') (q : Nat) : Except VBad (List Nat × List (Nat × Nat)) :=
  let parts := x.parts q
  let pages := (parts.flatMap fun e => pagesOf e.1 e.2).dedup
  match pages.findSome? (pageBad asked s) with
  | some e => .error e
  | none => match pages.filter fun va => match pipePage asked s va with | .ok none => true | _ => false with
    | [] => match badGranule s (rangeBytes (x.spadParts q)), badUnit s parts with
      | some g, _ => .error (0x14, 0, g)
      | none, some e => .error (0x14, 0, e.1)
      | none, none => .ok ([], lackedLines s (linePages s parts))
    | miss => .ok (miss, [])

/-- A wall cycle of a running command (R199): group q is read and folded in wall cycle qP of its hold; rows that are not there
lengthen the hold; it completes N wall cycles after its last one. -/
def followBeat (f : Follow) (s : State) : State :=
  let x := prodOf (resolveD s.task.ctx f.da f.ea) (resolveD s.task.ctx f.db f.eb) f.tr
  let next (g : Follow) (s : State) : State :=
    let g := { g with beat := f.beat + 1, asked := false, walking := false }
    setFollow (if g.beat < x.p * x.groups then g else { g with endWall := some (s.wall + Config.latCycles (Config.latn / 16 ^ 11 % 16)) }) s
  if let some va := f.lost then failFollow f (0x14, 0, va) s
  else if f.beat % x.p ≠ 0 then next f s
  else match followNeeds f.walking s x (f.beat / x.p) with
    | .error e => failFollow f e s
    | .ok ([], []) =>
      let r := foldGroup x s (f.beat / x.p) f.tile
      let lines := linePages s (x.parts (f.beat / x.p))
      let s := dropWindows (lines.map Prod.fst) (lines.foldl (fun s l => cached (fillsL1 l.2.1 0) (fillsL2 l.2.1 0) (l.1 * 128) false s) s)
      next { f with tile := r.1, fl := orFlags f.fl r.2 } (countCore s.cur.core 0x32 1 s)
    | .ok ([], need) => (askLines need (setFollow { f with asked := true, walking := false } s)).2
    | .ok (miss, _) =>
      let r := queueWalks s.cur.core s.task.ctx miss s
      setFollow { f with walking := r.1 } r.2

/-- The command that holds the array goes on by one wall cycle, unless the clock throttle freezes it (R95, R199). -/
def followCycle (s : State) : State :=
  if throttled s (pkgOf s.cur.core) || s.task.halt.isSome then s
  else match s.task.follow.find? Follow.holds with
    | some f => followBeat f s
    | none => s

/-- A command that has come to its wall cycle. -/
def Follow.ends (f : Follow) (wall : Nat) : Bool := !f.dead && match f.endWall with | some w => decide (w ≤ wall) | none => false

/-- A command that has come to its wall cycle writes its tile with its flags, and completes; an attachment that waits arrives in its
place (R30, R198, R199, R200). -/
def followEnd (s : State) : State :=
  match s.task.follow.find? (·.ends s.wall) with
  | none => s
  | some f =>
    let s := s.modTask fun t =>
      { t with follow := t.follow.erase f, acc := t.acc.set f.acc f.tile, m := { t.m with fflags := t.m.fflags ||| f.fl } }
    followArrive (match f.numTl with | some k => completeNum k f.num s | none => s)

/-- FOLLOW_ON_COMPLETE (R199). Reads `arg.unit` (core). -/
def execFollowOnComplete (s : State) : Host.Outcome State Fault Refusal :=
  onEvent s fun s => let t := s.at s.arg.unit .m; if t.resident then followEnd t else s

/-- MATRIX_DRAIN_COMPLETE (R198): once the drain's stores have left, they are performed at system scope. Reads `arg.unit` (core),
`arg.k` (0, or 1 more than its counter), `arg.n` (number), `arg.j` (the stores before this number of the M stream are its own or earlier
ones), `arg.v` (`taskid`). -/
def drainDone (a : Args) (s : State) : State :=
  let m := s.at a.unit .m
  let mine := m.resident && m.task.id = a.v
  if mine && m.task.m.sbuf.any fun e => decide (e.seq < a.j) then s.post .matrixDrainComplete a
  else
    let s := if mine then perform 7 (ownWrites a.j m) m else s
    if a.k = 0 then s else completeOp a.unit (a.v, a.k - 1, a.n) s

/-- MATRIX_DRAIN_COMPLETE (R198). -/
def execMatrixDrainComplete (s : State) : Host.Outcome State Fault Refusal := onEvent s fun s => drainDone s.arg s

/-! ### Requests that no route carries (R468) -/

/-- What a held request of a task names. -/
def named (a : Args) : Nat := a.n % 2 ^ 256

/-- The numbered operation of the executing task that a held request names, an `l2.dot` or a block form. -/
def opOf (s : State) (a : Args) : Option (LDot ⊕ NmOp) :=
  match s.task.ldots.find? fun d => d.tl = a.k && d.num = named a with
  | some d => some (.inl d)
  | none => (s.task.nms.find? fun o => o.tl = a.k && o.num = named a).map .inr

/-- What an operation meets when it goes on. -/
def opStop (s : State) : LDot ⊕ NmOp → Option Stop
  | .inl d => match runDot d s with | .error y => some y | .ok _ => none
  | .inr o => (nmWork o s).2.2

/-- A `kv` operation of a package by its number. -/
def kvOf (s : State) (pkg n : Nat) : Option KvOp := ((s.pkg pkg).kvOps.find? fun e => e.1 = n).map Prod.snd

/-- What a copy of a channel or of a queue packet meets when it goes on. -/
def walkStop (e : Walker) (c : Copy) (s : State) : Option Stop := (c.stretch e 64 s).2.2

/-- A stop that a missing route makes. -/
def unrouted (x : Option Stop) : Bool := match x with | some y => y.unreach | none => false

/-- What waits at the router can go on, by `arg.j`: 0 load `arg.k`, 1 a copy of channel `arg.k`, 2 an `l2.dot` or block form of counter
`arg.k`, 3 `kv` operation `arg.n` of a package (`arg.k`: 0, or 1 more than the home of list entries), 4 store `arg.k`, 5 a fetch, 6 a line of the matrix
engine, 7 the store of an armed action (its place, value × 2^64, its threshold and counter × 2^128), 8 the copy of packet `arg.n` of
queue `arg.k`. `s` has the request's stream as the executing one. -/
def routeUp (a : Args) (s : State) : Bool :=
  match a.j with
  | 0 => match loadOf s a.k with | some e => allReached s e.2.addrs | none => true
  | 1 => match copyAt s a.k (named a / 16) (named a % 16) with | some c => !unrouted (walkStop (walker s).io c s) | none => true
  | 2 => match opOf s a with | some o => !unrouted (opStop s o) | none => true
  | 3 => match kvOf s a.unit a.n with
    | some op =>
      if a.k ≠ 0 then reachable s a.unit ((a.k - 1) * 2 ^ 45)
      else reachable s a.unit (op.home a.unit * 2 ^ 45) &&
        match op.ins with
        | .kvMap _ _ => (match kvMapDo op s with | .error x => !x.unreach | .ok _ => true)
        | _ => true
    | none => true
  | 4 => match s.str.sbuf.find? fun e => e.seq = a.k with | some e => allReached s e.addrs | none => true
  | 5 => match coreXlate s a.unit s.task.ctx (fetchVa s / 64 * 64) with | .ok p => reachable s (pkgOf a.unit) p.pa | .error _ => true
  | 6 => reachable s (pkgOf a.unit) (named a * 128)
  | 7 => reachable s (pkgOf a.unit) (named a % 2 ^ 64)
  | _ => match engineCopy s a.unit a.k a.n with
    | some e => !unrouted (walkStop (engine a.unit (openCtx (s.queue a.unit a.k) a.n)) e.2 s)
    | none => true

/-- What was held at the router goes on. -/
def requestAgain (a : Args) (s : State) : State :=
  match a.j with
  | 0 => s.post .loadDataArrival { unit := a.unit, st := a.st, k := a.k }
  | 1 => s.postOnce .copyStart { unit := a.unit, k := a.k, n := named a / 16, j := named a % 16 }
  | 2 => s.post .timelineMarkAdvance { unit := a.unit, k := a.k, n := named a, v := a.n / 2 ^ 256 }
  | 3 => s.post .kvOperationComplete { unit := a.unit, n := a.n, flag := a.flag }
  | 4 => s.post .storeBufferDrain { unit := a.unit, st := a.st }
  | 5 => s.post .instructionFetchFill { unit := a.unit, st := a.st }
  | 6 => s.post .loadDataArrival { unit := a.unit, st := .m, n := a.n / 2 ^ 256, v := named a, j := a.k }
  | 7 => storeAny (cellsOf (named a % 2 ^ 64) 8 (named a / 2 ^ 64)) s
  | _ => s.post .copyPacket { unit := a.unit, k := a.k, n := a.n, flag := false }

/-- A line that never comes, asked for at an address: the M stream's operation loses its data, or at its place the command that waits. -/
def loseLine (line va : Nat) (s : State) : State :=
  let s := endRemote (isRemote s (line * 128)) s
  let x := s.str
  if x.status = .running ∧ x.frozen.isSome ∧ x.occ.isSome ∧ x.phase = 1 then rowsLost 8 va s
  else match s.task.follow.find? fun f => f.holds && f.asked with
    | some f => setFollow { f with lost := some va } s
    | none => s

/-- A store that never leaves (R124, R468). -/
def loseStore (e : SbEnt) (s : State) : State :=
  takeFaultOf e.org { cls := 0x14, addr := e.va, i0 := 8 } .never (endRemote e.remote (s.modStr fun x => { x with sbuf := x.sbuf.filter fun d => d.seq ≠ e.seq }))

/-- A `kv` request fails (R335, R341, R468): status 0x0D, for an append list in the entries of the home that is not reached. -/
def loseKv (a : Args) (op : KvOp) (s : State) : State :=
  if a.k = 0 then kvReply a.unit a.n op (kvStatus op.ins 0x0D) s
  else
    let op' := op.open'.foldl (fun o e => if entHome e.1 + 1 = a.k then o.done e.2 0x0D else o) op
    (s.modPkg a.unit fun p => { p with kvOps := p.kvOps.map fun e => if e.1 = a.n then (a.n, op') else e }).post .kvOperationComplete { unit := a.unit, n := a.n, flag := a.flag }

/-- A request fails (R468): it writes nothing, and its access raises a data-loss fault with location 8. -/
def requestFails (a : Args) (s : State) : State :=
  match a.j with
  | 0 => match loadOf s a.k with | some e => loseLoad e.1 e.2 8 s | none => s
  | 1 => match copyAt s a.k (named a / 16) (named a % 16) with
    | some c =>
      if (s.ch a.k).hs then s
      else if (s.ch a.k).pf.isSome then s.post .unplannedRequestTimeout a
      else (match walkStop (walker s).io c s with | some y => copyStop a.k c y s | none => s)
    | none => s
  | 2 => match opOf s a with
    | some o => (match (opStop s o).filter (·.unreach), o with
      | some y, .inl d => dotFault d y s
      | some y, .inr o => nmWorkFault o y s
      | none, _ => requestAgain a s)
    | none => s
  | 3 => match kvOf s a.unit a.n with | some op => loseKv a op s | none => s
  | 4 => match s.str.sbuf.find? fun e => e.seq = a.k with | some e => loseStore e s | none => s
  | 5 => if wantsFetch s then dataLoss 8 (fetchVa s) s else s
  | 6 => loseLine (named a) a.k s
  | 7 => taskStop { cls := 0x14, agent := 14, whn := named a / 2 ^ 128, addr := named a % 2 ^ 64, i0 := 8 } .stop s
  | _ => match engineCopy s a.unit a.k a.n with
    | some e => (match walkStop (engine a.unit (openCtx (s.queue a.unit a.k) a.n)) e.2 s with | some y => engineFault a.unit a.k a.n (engineRec e.2 y) s | none => s)
    | none => s

/-- Who made a held request is still there: the task, or the package's page manager or queue engine. -/
def requestLives (a : Args) (s : State) : Bool :=
  match a.j with
  | 3 => (kvOf s a.unit a.n).isSome
  | 8 => (engineCopy s a.unit a.k a.n).isSome
  | _ => s.resident && s.task.id = a.n / 2 ^ 256

/-- UNPLANNED_REQUEST_TIMEOUT (R468): a request to a package that no route reaches is held for 1 ms (10^6 ticks, log 1). Reads
`arg.j` (see `routeUp`) with `arg.unit`, `arg.st`, `arg.k`, `arg.n` (with `taskid` × 2^256 for a task's); `arg.v` is the tick at which
it fails, 0 at its first. -/
def requestTimeout (a : Args) (s : State) : State :=
  let t := if a.j = 3 ∨ a.j = 8 then s else s.at a.unit a.st
  if !requestLives a t then s
  else if routeUp a t then requestAgain a t
  else if a.v = 0 then s.post .unplannedRequestTimeout { a with v := s.tick + 10 ^ 6 }
  else if s.tick < a.v then s.post .unplannedRequestTimeout a
  else requestFails a t

/-- UNPLANNED_REQUEST_TIMEOUT (R468). -/
def execUnplannedRequestTimeout (s : State) : Host.Outcome State Fault Refusal := onEvent s fun s => requestTimeout s.arg s

end Sys2Proof.Machine
end

