-- ==== Sys2Proof/Machine/Clock.lean ====
section
/-!
DEFINITION. Sys2Proof/Machine/Clock.lean: the end of a wall cycle: armed actions fire, waits are served or ended, counters take their
events, the wall clock and the global tick move, and what has come due is posted (R134, R136, R199,
R220 to R222, R433 to R439, R447, R466).
-/

namespace Sys2Proof.Machine

/-! ### Armed actions (R134, R136, R220, R221) -/

/-- The actions of a pool that fire at the end of a wall cycle, in order (R221): those that moving marks release, then those armed
late; by counter, threshold, arming. -/
def firing (t : Task) : List Arm :=
  let before (a b : Arm) : Bool := a.tl < b.tl || (a.tl = b.tl && a.thr ≤ b.thr)
  let l := t.armed.filter fun a => decide (a.thr ≤ (t.tls.getD a.tl {}).mark)
  sortBy before (l.filter fun a => !a.late) ++ sortBy before (l.filter fun a => a.late)

/-- Reached actions leave the pool (R221). -/
def firePool (s : State) : State :=
  let l := firing s.task
  if l.isEmpty then s else s.modTask fun t => { t with armed := t.armed.filter fun a => !l.contains a, fired := t.fired ++ l }

/-- The scope at which an action releases (R220). -/
def ArmKind.scope : ArmKind → Nat
  | .sig _ _ => 1
  | _ => 7

/-- The effect of an action that has fired, a release of what comes before its arming (R136, R220, R221). -/
def fire (a : Arm) (s : State) : State :=
  let whn := a.thr % 2 ^ 60 + a.tl * 2 ^ 60
  let s := perform a.kind.scope (viewAt a.seq s) s
  match a.kind with
  | .sig n k =>
    let m := s.sem n
    if m.ceil < m.cnt + k then
      taskStop { cls := 0x0C, reason := 0x03, agent := 14, whn := whn, i0 := n + a.tl * 2 ^ 8, i1 := m.cnt + k * 2 ^ 16 + m.ceil * 2 ^ 32, i2 := a.thr } .stop s
    else countCore s.cur.core 0x49 1 (s.modSem n fun m => { m with cnt := m.cnt + k })
  | .trig v => s.post .pltrigWrite { unit := pkgOf s.cur.core, v := v }
  | .wr pa v =>
    if reachable s (pkgOf s.cur.core) pa then storeAny (cellsOf pa 8 v) (drawUnits [pa] s)
    else s.post .unplannedRequestTimeout (s.held 7 0 (pa + v * 2 ^ 64 + whn * 2 ^ 128))

/-- The memory channel that a fired action writes to serves it now (R24, R295). -/
def ArmKind.served (k : ArmKind) (s : State) : Bool := match k with | .wr pa _ => !chanBusy s pa | _ => true

/-- The fired actions whose accesses before the arming are performed have their effects, in the order in which they fired (R221);
one whose memory channel does not serve it waits, and those after it (R295); a pool holds at most 32 (R222). -/
def fireAll : Nat → State → State
  | 0, s => s
  | n + 1, s => match s.task.fired with
    | a :: l => if performedBefore s.task a.seq && a.kind.served s then fireAll n (fire a (s.modTask fun t => { t with fired := l })) else s
    | [] => s

/-- The armed actions of a task at the end of a wall cycle, as its C stream's. -/
def fireArmed (s : State) : State := (fireAll 64 (firePool (s.at s.cur.core .c))).at s.cur.core .s

/-! ### Waits at the end of a wall cycle (R447) -/

/-- A stream whose wait is still unserved when the S stream has ended ends, and leaves its queue; the cycle counts as issued, as that of
a `sys.end` does (R434, R447). -/
def endWait (st : StreamId) (s : State) : State :=
  let s := s.at s.cur.core st
  if inWait s.str then
    ((countCore s.cur.core (1 + st.num) 1 s).modTask fun t => { t with sems := t.sems.map fun m => { m with waiters := m.waiters.filter fun w => w.1 ≠ st.num } }).modStr fun x =>
      { endStream x with frozen := none, frzc := false, redo := false, phase := 0, frz := x.frozen.getD 0x6, cyc := x.cyc + 1 }
  else s

/-- The waits that are left at the end of a task's wall cycle. -/
def settleWaits (s : State) : State :=
  if streamOver s.task.s && s.task.halt.isNone && [s.task.v, s.task.m, s.task.c].any inWait then endWait .c (endWait .m (endWait .v s))
  else s

/-! ### Counters (R433 to R439) -/

/-- A stream's frozen wall cycle, and the freeze that it belongs to, counted once (R108, R434). -/
def countFrozen (st : StreamId) (s : State) : State :=
  let s := s.at s.cur.core st
  match s.str.frozen with
  | none => s
  | some c =>
    let s := countCore s.cur.core (0x10 + c) 1 (if s.str.frzc then s else countCore s.cur.core (0x20 + c) 1 s)
    s.modStr fun x => { x with frzw := x.frzw + 1, frzc := true }

/-- Events of every core of the machine alike: a die has 512 cores, a package 4,096 (R433). -/
def countEvery (code n : Nat) (s : State) : State :=
  { s with
    cores := s.cores.map fun c => (c.1, { c.2 with ec := bumpEc code n c.2.ec })
    dies := s.dies.map fun d => (d.1, { d.2 with ec := bumpEc code (512 * n) d.2.ec })
    pkgs := s.pkgs.map fun p => (p.1, { p.2 with ec := bumpEc code (4096 * n) p.2.ec }) }

/-- Wall cycles with a die's walk queue full, and with a package's clock throttled (R434). -/
def countUnits (s : State) : State :=
  let s := (s.dies.filter fun d => 2048 ≤ d.2.walkq.length).foldl (fun s d => countDie d.1 0x86 1 s) s
  (s.pkgs.filter fun p => throttled s p.1).foldl (fun s p => countPkg p.1 0xCF 1 s) s

/-- Events whose number in a wall cycle the manual leaves to the L2 slices and to the fabric's arbitration: bytes over attached
channels, class Q and A pauses (R434; log 5). -/
def openEvents : List Nat := [0x8B, 0x8C, 0xCA, 0xCB]

/-- Enabled counters of such an event take a free number of events; `n` numbers the choice. -/
def openTab (n : Nat) : Tab Ec → Nat × Tab Ec
  | [] => (n, [])
  | e :: t =>
    if e.2.en && openEvents.contains e.2.event then
      let r := openTab (n + 1) t
      (r.1, (e.1, { e.2 with acc := e.2.acc + Config.freeChoice n }) :: r.2)
    else
      let r := openTab n t
      (r.1, e :: r.2)

/-- The open events of a wall cycle, for the counters of every die and package. -/
def countOpen (s : State) : State :=
  let s := s.dies.foldl (fun s d => let r := openTab s.nfree d.2.ec; { s.modDie d.1 fun x => { x with ec := r.2 } with nfree := r.1 }) s
  s.pkgs.foldl (fun s p => let r := openTab s.nfree p.2.ec; { s.modPkg p.1 fun x => { x with ec := r.2 } with nfree := r.1 }) s

/-- Counters with trap that wrap, with their names. -/
def wrapping (s : State) : List EcRef :=
  (s.cores.flatMap fun c => (c.2.ec.filter fun e => e.2.wraps && e.2.trap).map fun e => EcRef.core c.1 e.1) ++
  (s.dies.flatMap fun d => (d.2.ec.filter fun e => e.2.wraps && e.2.trap).map fun e => EcRef.die d.1 e.1) ++
  (s.pkgs.flatMap fun p => (p.2.ec.filter fun e => e.2.wraps && e.2.trap).map fun e => EcRef.pkg p.1 e.1)

/-- Every counter takes the events of its wall cycle; the record or interrupt of a wrap comes in a step of its own (R437, R439). -/
def commitAll (s : State) : State :=
  let s := (wrapping s).foldl (fun s r => s.postOnce .counterWrap { unit := ecPkg r, ec := r }) s
  let all (t : Tab Ec) : Tab Ec := t.map fun e => (e.1, e.2.commit)
  { s with
    cores := s.cores.map fun c => (c.1, { c.2 with ec := all c.2.ec })
    dies := s.dies.map fun d => (d.1, { d.2 with ec := all d.2.ec })
    pkgs := s.pkgs.map fun p => (p.1, { p.2 with ec := all p.2.ec }) }

/-! ### What has come due -/

/-- The end of a wall cycle for one core's task: armed actions, then the rest of R134, the waits that are left, the frozen cycles. -/
def endOfCycle (core : Nat) (s : State) : State :=
  let s := settleWaits ((semCycle (fireArmed (s.at core .s))).at core .s)
  countFrozen .c (countFrozen .m (countFrozen .v (countFrozen .s (s.at core .s))))

/-- The tasks that are over and the follow-on commands that are complete. -/
def postTasks (s : State) : State :=
  (busyCores s).foldl (fun s c =>
    let s := if taskOver s c then s.postOnce .taskEnd { unit := c } else s
    match (s.core c).task with
    | some t => if t.follow.any (·.ends s.wall) then s.postOnce .followOnComplete { unit := c } else s
    | none => s) s

/-- The partitions of a package in which a ready head's effective priority has risen in the last n ticks (R405). -/
def agedParts (p : Pkg) (tick n : Nat) : List Nat :=
  ((p.queues.filter fun e => match e.2.ready with | some t => decide ((tick - n - t) / 50000 < (tick - t) / 50000) | none => false).map fun e => e.2.part).dedup

/-- What comes due at a tick, n ticks having passed: leases, pre-emption bounds, Midnight timers, waits of ready heads (R248, R405, R407,
R414). -/
def postTimers (n : Nat) (s : State) : State :=
  let s := s.pkgs.foldl (fun s p => (agedParts p.2 s.tick n).foldl (fun s k => s.postOnce .gangPlacement { unit := p.1, k := k }) s) s
  let s := s.dies.foldl (fun s d => (d.2.leases.filter fun e => e.2.expiry ≤ s.tick).foldl (fun s e => s.postOnce .leaseExpiry { unit := d.1, k := e.1 }) s) s
  s.pkgs.foldl (fun s p => p.2.parts.foldl (fun s e =>
    let s := if e.2.pm = 1 ∧ e.2.since + 1000 * e.2.bnd ≤ s.tick then s.postOnce .preemptBoundExpiry { unit := p.1, k := e.1 } else s
    match e.2.run with
    | some t => if t ≤ s.tick then s.postOnce .midnightExpiry { unit := p.1, k := e.1 } else s
    | none => s) s) s

/-- Ticks that pass in a wall cycle (R4; log 1): one in every second cycle; a clock throttle lengthens a wall cycle by an open number of
ticks. -/
def ticksIn (s : State) : Nat :=
  (if s.wall % 2 = 1 then 1 else 0) + if s.pkgs.any fun p => decide (0 < p.2.power.clk) then Config.freeChoice s.nfree else 0

/-- The wall clock moves by one cycle and the global tick with it. One tick stands for every package (R4, R15): the skew of up to 4
ticks between packages that R4 allows is 0 here, a DESIGN CHOICE of the model (log 1). -/
def clockTick (s : State) : State :=
  let cur := s.cur
  let s := { (busyCores s).foldl (fun s c => endOfCycle c s) s with cur := cur }
  let n := ticksIn s
  let s := countOpen (countUnits (countEvery 0x09 1 s))
  let s := commitAll (countEvery 0x0A n s)
  postTimers n (postTasks (ageOlds { s with wall := s.wall + 1, tick := s.tick + n, nfree := s.nfree + 1, rank := 0, moved := [], setBits := [] }))

/-! ### The sequencer's throttle (R321) -/

/-- How many cycles ahead a bank is refreshed next, and the cycles before the pass in which it was refreshed last if the table has not
done it: by a word of the table, or by the channel after a short pass (R290, R295). -/
def refreshIn (c : Chan) (l : List (Nat × Instr × BankOps)) (b : Nat) : Option (Nat × Nat) :=
  l.findSome? fun e => match e.2.1 with
    | .bref => if e.2.2.b = b then some (e.1, 3120) else none
    | .bend => if c.next - c.base + e.1 + 1 + e.2.2.w ≤ 3120 then some (e.1 + 1 + e.2.2.w + 200, 200) else none
    | _ => none

/-- Every bank's refresh interval in wall time, 6,240 cycles at most, has room for one more frozen cycle (R321). -/
def refreshRoom (c : Chan) : Bool :=
  let l := c.ahead 6240
  (List.range 64).all fun b => match refreshIn c l b with
    | none => false
    | some (n, g) =>
      let last : Int := match (c.bank b).ref with | some r => r | none => c.base - g
      decide ((c.next + n : Int) - last + (c.iced.filter fun k => decide (last < k)).length + 1 ≤ 6240)

/-- The memory throttle puts a frozen cycle between two words that a running channel issues, where every refresh allows it (R321): how many is
open (log 4). -/
def memThrottled (key : Nat) (s : State) : Bool :=
  let c := s.chan key
  c.replays && !(c.pass = 0 && c.next = c.base) && decide (0 < (s.pkg (key / 512)).power.mem) && decide (Config.freeChoice s.nfree % 64 < (s.pkg (key / 512)).power.mem) && refreshRoom c

/-- A frozen sequencer cycle (R296, R321, R434). -/
def frozenWord (key : Nat) (s : State) : State :=
  let s := countPkg (key / 512) 0xD0 1 (countDie (dieOfChan key) 0x8F 1
    (s.modChan key fun c => { c with thr := true, iced := c.next :: c.iced.filter fun k => decide (c.next < k + 12480) }))
  { s with nfree := s.nfree + 1 }

end Sys2Proof.Machine
end

