-- ==== Sys2Proof/Machine/Scalar.lean ====
section
/-!
DEFINITION. Sys2Proof/Machine/Scalar.lean: the integer and predicate instructions (R111 to R120), each the same on x, y
and z registers (R71).
-/

namespace Sys2Proof.Machine

/-- Shift amount of a register operand: its low six bits (R112). -/
def shamt (b : Word64) : Nat := b.toNat % 64

/-- Signed quotient rounded towards zero, with the cases of R115. -/
def sdivW (w : Nat) (a b : BitVec w) : BitVec w := if b = 0 then -1 else a.sdiv b
/-- Unsigned quotient, with the cases of R115. -/
def udivW (w : Nat) (a b : BitVec w) : BitVec w := if b = 0 then -1 else a / b
/-- Signed remainder, with the cases of R115. -/
def sremW (w : Nat) (a b : BitVec w) : BitVec w := if b = 0 then a else a.srem b
/-- Unsigned remainder, with the cases of R115. -/
def uremW (w : Nat) (a b : BitVec w) : BitVec w := if b = 0 then a else a % b

/-- Bits 127:64 of a product of two whole numbers. -/
def hi64 (x : Int) : Word64 := BitVec.ofInt 64 (x / 2 ^ 64)

/-- An operation on the low words, its 32-bit result sign-extended (R116). -/
def onWords (f : Word32 → Word32 → Word32) (a b : Word64) : Word64 := (f (a.setWidth 32) (b.setWidth 32)).signExtend 64

/-- The number of leading zero bits (R117). -/
def clz64 (a : Word64) : Nat := if a = 0 then 64 else 63 - a.toNat.log2

/-- The trailing zero bits of v among n bits. -/
def ctzGo : Nat → Nat → Nat
  | 0, _ => 0
  | n + 1, v => if v % 2 = 1 then 0 else 1 + ctzGo n (v / 2)

/-- The one bits of v among n bits. -/
def popGo : Nat → Nat → Nat
  | 0, _ => 0
  | n + 1, v => v % 2 + popGo n (v / 2)

/-- Bit i moved to bit 63 − i (R117). -/
def brev64 (a : Word64) : Word64 := a.reverse

/-- `add` (R112). -/
def execAdd (gd : Guard) (d a b : Nat) (s : State) : Host.Outcome State Fault Refusal :=
  onStream s (guarded gd (op2 0 (fun x y => x + y) d a b))

/-- `sub` (R112). -/
def execSub (gd : Guard) (d a b : Nat) (s : State) : Host.Outcome State Fault Refusal :=
  onStream s (guarded gd (op2 0 (fun x y => x - y) d a b))

/-- `and` (R112). -/
def execAnd (gd : Guard) (d a b : Nat) (s : State) : Host.Outcome State Fault Refusal :=
  onStream s (guarded gd (op2 0 (fun x y => x &&& y) d a b))

/-- `or` (R112). -/
def execOr (gd : Guard) (d a b : Nat) (s : State) : Host.Outcome State Fault Refusal :=
  onStream s (guarded gd (op2 0 (fun x y => x ||| y) d a b))

/-- `xor` (R112). -/
def execXor (gd : Guard) (d a b : Nat) (s : State) : Host.Outcome State Fault Refusal :=
  onStream s (guarded gd (op2 0 (fun x y => x ^^^ y) d a b))

/-- `andn` (R112). -/
def execAndn (gd : Guard) (d a b : Nat) (s : State) : Host.Outcome State Fault Refusal :=
  onStream s (guarded gd (op2 0 (fun x y => x &&& ~~~y) d a b))

/-- `orn` (R112). -/
def execOrn (gd : Guard) (d a b : Nat) (s : State) : Host.Outcome State Fault Refusal :=
  onStream s (guarded gd (op2 0 (fun x y => x ||| ~~~y) d a b))

/-- `xnor` (R112). -/
def execXnor (gd : Guard) (d a b : Nat) (s : State) : Host.Outcome State Fault Refusal :=
  onStream s (guarded gd (op2 0 (fun x y => ~~~(x ^^^ y)) d a b))

/-- `sll` (R112). -/
def execSll (gd : Guard) (d a b : Nat) (s : State) : Host.Outcome State Fault Refusal :=
  onStream s (guarded gd (op2 0 (fun x y => x <<< shamt y) d a b))

/-- `srl` (R112). -/
def execSrl (gd : Guard) (d a b : Nat) (s : State) : Host.Outcome State Fault Refusal :=
  onStream s (guarded gd (op2 0 (fun x y => x >>> shamt y) d a b))

/-- `sra` (R112). -/
def execSra (gd : Guard) (d a b : Nat) (s : State) : Host.Outcome State Fault Refusal :=
  onStream s (guarded gd (op2 0 (fun x y => x.sshiftRight (shamt y)) d a b))

/-- `ror` (R112). -/
def execRor (gd : Guard) (d a b : Nat) (s : State) : Host.Outcome State Fault Refusal :=
  onStream s (guarded gd (op2 0 (fun x y => x.rotateRight (shamt y)) d a b))

/-- `min`, signed (R112). -/
def execMin (gd : Guard) (d a b : Nat) (s : State) : Host.Outcome State Fault Refusal :=
  onStream s (guarded gd (op2 0 (fun x y => if y.slt x then y else x) d a b))

/-- `max`, signed (R112). -/
def execMax (gd : Guard) (d a b : Nat) (s : State) : Host.Outcome State Fault Refusal :=
  onStream s (guarded gd (op2 0 (fun x y => if x.slt y then y else x) d a b))

/-- `minu` (R112). -/
def execMinu (gd : Guard) (d a b : Nat) (s : State) : Host.Outcome State Fault Refusal :=
  onStream s (guarded gd (op2 0 (fun x y => if y.ult x then y else x) d a b))

/-- `maxu` (R112). -/
def execMaxu (gd : Guard) (d a b : Nat) (s : State) : Host.Outcome State Fault Refusal :=
  onStream s (guarded gd (op2 0 (fun x y => if x.ult y then y else x) d a b))

/-- `addi` (R113). -/
def execAddi (gd : Guard) (d a i : Nat) (s : State) : Host.Outcome State Fault Refusal :=
  onStream s (guarded gd (op1 0 (fun x => x + sext 9 i) d a))

/-- `andi` (R113). -/
def execAndi (gd : Guard) (d a i : Nat) (s : State) : Host.Outcome State Fault Refusal :=
  onStream s (guarded gd (op1 0 (fun x => x &&& sext 9 i) d a))

/-- `ori` (R113). -/
def execOri (gd : Guard) (d a i : Nat) (s : State) : Host.Outcome State Fault Refusal :=
  onStream s (guarded gd (op1 0 (fun x => x ||| sext 9 i) d a))

/-- `xori` (R113). -/
def execXori (gd : Guard) (d a i : Nat) (s : State) : Host.Outcome State Fault Refusal :=
  onStream s (guarded gd (op1 0 (fun x => x ^^^ sext 9 i) d a))

/-- `slli` (R113). -/
def execSlli (gd : Guard) (d a sh : Nat) (s : State) : Host.Outcome State Fault Refusal :=
  onStream s (guarded gd (op1 0 (fun x => x <<< sh) d a))

/-- `srli` (R113). -/
def execSrli (gd : Guard) (d a sh : Nat) (s : State) : Host.Outcome State Fault Refusal :=
  onStream s (guarded gd (op1 0 (fun x => x >>> sh) d a))

/-- `srai` (R113). -/
def execSrai (gd : Guard) (d a sh : Nat) (s : State) : Host.Outcome State Fault Refusal :=
  onStream s (guarded gd (op1 0 (fun x => x.sshiftRight sh) d a))

/-- `rori` (R113). -/
def execRori (gd : Guard) (d a sh : Nat) (s : State) : Host.Outcome State Fault Refusal :=
  onStream s (guarded gd (op1 0 (fun x => x.rotateRight sh) d a))

/-- `li` (R114). -/
def execLi (gd : Guard) (d i : Nat) (s : State) : Host.Outcome State Fault Refusal :=
  onStream s (guarded gd (fun s => result 0 (.regs [(d, sext 15 i)]) 0 s))

/-- `lix` (R114): it reads its own destination. -/
def execLix (gd : Guard) (d i : Nat) (s : State) : Host.Outcome State Fault Refusal :=
  onStream s (guarded gd (op1 0 (fun x => x <<< 15 ||| zext 15 i) d d))

/-- `cmp` (R119). -/
def execCmp (gd : Guard) (p a b c : Nat) (s : State) : Host.Outcome State Fault Refusal :=
  onStream s (guarded gd (reading [a, b] fun s => landPred p (condHolds c (s.reg a) (s.reg b)) s))

/-- `cmpi` (R119). -/
def execCmpi (gd : Guard) (p a c i : Nat) (s : State) : Host.Outcome State Fault Refusal :=
  onStream s (guarded gd (reading [a] fun s => landPred p (condHolds c (s.reg a) (sext 7 i)) s))

/-- `pand` (R120). -/
def execPand (gd : Guard) (d a b : Nat) (s : State) : Host.Outcome State Fault Refusal :=
  onStream s (guarded gd (predOp (fun x y => x && y) d a b))

/-- `por` (R120). -/
def execPor (gd : Guard) (d a b : Nat) (s : State) : Host.Outcome State Fault Refusal :=
  onStream s (guarded gd (predOp (fun x y => x || y) d a b))

/-- `pxor` (R120). -/
def execPxor (gd : Guard) (d a b : Nat) (s : State) : Host.Outcome State Fault Refusal :=
  onStream s (guarded gd (predOp (fun x y => x != y) d a b))

/-- `pandn` (R120). -/
def execPandn (gd : Guard) (d a b : Nat) (s : State) : Host.Outcome State Fault Refusal :=
  onStream s (guarded gd (predOp (fun x y => x && !y) d a b))

/-- `pnot` (R120). -/
def execPnot (gd : Guard) (d a : Nat) (s : State) : Host.Outcome State Fault Refusal :=
  onStream s (guarded gd (predOp (fun x _ => !x) d a 0))

/-- `pmov` (R120). -/
def execPmov (gd : Guard) (d a : Nat) (s : State) : Host.Outcome State Fault Refusal :=
  onStream s (guarded gd (predOp (fun x _ => x) d a 0))

/-- `pset` (R120). -/
def execPset (gd : Guard) (d : Nat) (s : State) : Host.Outcome State Fault Refusal :=
  onStream s (guarded gd (landPred d true))

/-- `pclr` (R120). -/
def execPclr (gd : Guard) (d : Nat) (s : State) : Host.Outcome State Fault Refusal :=
  onStream s (guarded gd (landPred d false))

/-- `mul` (R115). -/
def execMul (gd : Guard) (d a b : Nat) (s : State) : Host.Outcome State Fault Refusal :=
  onStream s (guarded gd (op2 1 (fun x y => x * y) d a b))

/-- `mulh` (R115). -/
def execMulh (gd : Guard) (d a b : Nat) (s : State) : Host.Outcome State Fault Refusal :=
  onStream s (guarded gd (op2 1 (fun x y => hi64 (x.toInt * y.toInt)) d a b))

/-- `mulhu` (R115). -/
def execMulhu (gd : Guard) (d a b : Nat) (s : State) : Host.Outcome State Fault Refusal :=
  onStream s (guarded gd (op2 1 (fun x y => hi64 (x.toNat * y.toNat : Nat)) d a b))

/-- `mulhsu` (R115). -/
def execMulhsu (gd : Guard) (d a b : Nat) (s : State) : Host.Outcome State Fault Refusal :=
  onStream s (guarded gd (op2 1 (fun x y => hi64 (x.toInt * (y.toNat : Int))) d a b))

/-- `div` (R115). -/
def execDiv (gd : Guard) (d a b : Nat) (s : State) : Host.Outcome State Fault Refusal :=
  onStream s (guarded gd (op2 2 (fun x y => sdivW 64 x y) d a b))

/-- `divu` (R115). -/
def execDivu (gd : Guard) (d a b : Nat) (s : State) : Host.Outcome State Fault Refusal :=
  onStream s (guarded gd (op2 2 (fun x y => udivW 64 x y) d a b))

/-- `rem` (R115). -/
def execRem (gd : Guard) (d a b : Nat) (s : State) : Host.Outcome State Fault Refusal :=
  onStream s (guarded gd (op2 2 (fun x y => sremW 64 x y) d a b))

/-- `remu` (R115). -/
def execRemu (gd : Guard) (d a b : Nat) (s : State) : Host.Outcome State Fault Refusal :=
  onStream s (guarded gd (op2 2 (fun x y => uremW 64 x y) d a b))

/-- `addw` (R116). -/
def execAddw (gd : Guard) (d a b : Nat) (s : State) : Host.Outcome State Fault Refusal :=
  onStream s (guarded gd (op2 0 (onWords fun x y => x + y) d a b))

/-- `subw` (R116). -/
def execSubw (gd : Guard) (d a b : Nat) (s : State) : Host.Outcome State Fault Refusal :=
  onStream s (guarded gd (op2 0 (onWords fun x y => x - y) d a b))

/-- `mulw` (R116). -/
def execMulw (gd : Guard) (d a b : Nat) (s : State) : Host.Outcome State Fault Refusal :=
  onStream s (guarded gd (op2 1 (onWords fun x y => x * y) d a b))

/-- `sllw` (R116). -/
def execSllw (gd : Guard) (d a b : Nat) (s : State) : Host.Outcome State Fault Refusal :=
  onStream s (guarded gd (op2 0 (onWords fun x y => x <<< (y.toNat % 32)) d a b))

/-- `srlw` (R116). -/
def execSrlw (gd : Guard) (d a b : Nat) (s : State) : Host.Outcome State Fault Refusal :=
  onStream s (guarded gd (op2 0 (onWords fun x y => x >>> (y.toNat % 32)) d a b))

/-- `sraw` (R116). -/
def execSraw (gd : Guard) (d a b : Nat) (s : State) : Host.Outcome State Fault Refusal :=
  onStream s (guarded gd (op2 0 (onWords fun x y => x.sshiftRight (y.toNat % 32)) d a b))

/-- `divw` (R116). -/
def execDivw (gd : Guard) (d a b : Nat) (s : State) : Host.Outcome State Fault Refusal :=
  onStream s (guarded gd (op2 2 (onWords fun x y => sdivW 32 x y) d a b))

/-- `remw` (R116). -/
def execRemw (gd : Guard) (d a b : Nat) (s : State) : Host.Outcome State Fault Refusal :=
  onStream s (guarded gd (op2 2 (onWords fun x y => sremW 32 x y) d a b))

/-- `clz` (R117). -/
def execClz (gd : Guard) (d a : Nat) (s : State) : Host.Outcome State Fault Refusal :=
  onStream s (guarded gd (op1 0 (fun x => BitVec.ofNat 64 (clz64 x)) d a))

/-- `ctz` (R117). -/
def execCtz (gd : Guard) (d a : Nat) (s : State) : Host.Outcome State Fault Refusal :=
  onStream s (guarded gd (op1 0 (fun x => BitVec.ofNat 64 (ctzGo 64 x.toNat)) d a))

/-- `popc` (R117). -/
def execPopc (gd : Guard) (d a : Nat) (s : State) : Host.Outcome State Fault Refusal :=
  onStream s (guarded gd (op1 0 (fun x => BitVec.ofNat 64 (popGo 64 x.toNat)) d a))

/-- `brev` (R117). -/
def execBrev (gd : Guard) (d a : Nat) (s : State) : Host.Outcome State Fault Refusal :=
  onStream s (guarded gd (op1 0 (fun x => brev64 x) d a))

/-- `sextb` (R117). -/
def execSextb (gd : Guard) (d a : Nat) (s : State) : Host.Outcome State Fault Refusal :=
  onStream s (guarded gd (op1 0 (fun x => sext 8 x.toNat) d a))

/-- `sexth` (R117). -/
def execSexth (gd : Guard) (d a : Nat) (s : State) : Host.Outcome State Fault Refusal :=
  onStream s (guarded gd (op1 0 (fun x => sext 16 x.toNat) d a))

/-- `sextw` (R117). -/
def execSextw (gd : Guard) (d a : Nat) (s : State) : Host.Outcome State Fault Refusal :=
  onStream s (guarded gd (op1 0 (fun x => sext 32 x.toNat) d a))

/-- `zextw` (R117). -/
def execZextw (gd : Guard) (d a : Nat) (s : State) : Host.Outcome State Fault Refusal :=
  onStream s (guarded gd (op1 0 (fun x => zext 32 x.toNat) d a))

/-- `sel` (R118): g and n are the selector, and the instruction always executes. -/
def execSel (gd : Guard) (d a b : Nat) (s : State) : Host.Outcome State Fault Refusal :=
  onStream s (reading [a, b] fun s =>
    let r := readP gd.p s
    result 0 (.regs [(d, if r.1 != gd.neg then s.reg a else s.reg b)]) 0 r.2)

/-- `nop` (R58): it takes its issue cycle and changes no state. -/
def execNop (s : State) : Host.Outcome State Fault Refusal := onStream s id

end Sys2Proof.Machine
end

