-- ==== Sys2Proof/Machine/Dispatch.lean ====
section
/-!
DEFINITION. Sys2Proof/Machine/Dispatch.lean: one arm for each instruction.
-/

namespace Sys2Proof.Machine

def exec (i : Instr) (s : State) : Host.Outcome State Fault Refusal :=
  match i with
  | .nop => Sys2Proof.Machine.execNop s
  | .add gd d a b => Sys2Proof.Machine.execAdd gd d a b s
  | .sub gd d a b => Sys2Proof.Machine.execSub gd d a b s
  | .and gd d a b => Sys2Proof.Machine.execAnd gd d a b s
  | .or gd d a b => Sys2Proof.Machine.execOr gd d a b s
  | .xor gd d a b => Sys2Proof.Machine.execXor gd d a b s
  | .andn gd d a b => Sys2Proof.Machine.execAndn gd d a b s
  | .orn gd d a b => Sys2Proof.Machine.execOrn gd d a b s
  | .xnor gd d a b => Sys2Proof.Machine.execXnor gd d a b s
  | .sll gd d a b => Sys2Proof.Machine.execSll gd d a b s
  | .srl gd d a b => Sys2Proof.Machine.execSrl gd d a b s
  | .sra gd d a b => Sys2Proof.Machine.execSra gd d a b s
  | .ror gd d a b => Sys2Proof.Machine.execRor gd d a b s
  | .min gd d a b => Sys2Proof.Machine.execMin gd d a b s
  | .max gd d a b => Sys2Proof.Machine.execMax gd d a b s
  | .minu gd d a b => Sys2Proof.Machine.execMinu gd d a b s
  | .maxu gd d a b => Sys2Proof.Machine.execMaxu gd d a b s
  | .addi gd d a im => Sys2Proof.Machine.execAddi gd d a im s
  | .andi gd d a im => Sys2Proof.Machine.execAndi gd d a im s
  | .ori gd d a im => Sys2Proof.Machine.execOri gd d a im s
  | .xori gd d a im => Sys2Proof.Machine.execXori gd d a im s
  | .slli gd d a si => Sys2Proof.Machine.execSlli gd d a si s
  | .srli gd d a si => Sys2Proof.Machine.execSrli gd d a si s
  | .srai gd d a si => Sys2Proof.Machine.execSrai gd d a si s
  | .rori gd d a si => Sys2Proof.Machine.execRori gd d a si s
  | .li gd d im => Sys2Proof.Machine.execLi gd d im s
  | .lix gd d im => Sys2Proof.Machine.execLix gd d im s
  | .cmp gd p a b c => Sys2Proof.Machine.execCmp gd p a b c s
  | .cmpi gd p a c im => Sys2Proof.Machine.execCmpi gd p a c im s
  | .pand gd d a b => Sys2Proof.Machine.execPand gd d a b s
  | .por gd d a b => Sys2Proof.Machine.execPor gd d a b s
  | .pxor gd d a b => Sys2Proof.Machine.execPxor gd d a b s
  | .pandn gd d a b => Sys2Proof.Machine.execPandn gd d a b s
  | .pnot gd d a => Sys2Proof.Machine.execPnot gd d a s
  | .pmov gd d a => Sys2Proof.Machine.execPmov gd d a s
  | .pset gd d => Sys2Proof.Machine.execPset gd d s
  | .pclr gd d => Sys2Proof.Machine.execPclr gd d s
  | .brp gd d o => Sys2Proof.Machine.execBrp gd d o s
  | .brpx gd d a => Sys2Proof.Machine.execBrpx gd d a s
  | .br gd si => Sys2Proof.Machine.execBr gd si s
  | .brL gd si d => Sys2Proof.Machine.execBrL gd si d s
  | .loop gd l a e => Sys2Proof.Machine.execLoop gd l a e s
  | .loopi gd l c e => Sys2Proof.Machine.execLoopi gd l c e s
  | .csrr gd d c => Sys2Proof.Machine.execCsrr gd d c s
  | .csrw gd a c => Sys2Proof.Machine.execCsrw gd a c s
  | .semWait gd im k => Sys2Proof.Machine.execSemWait gd im k s
  | .semSig gd im k => Sys2Proof.Machine.execSemSig gd im k s
  | .semTry gd im p => Sys2Proof.Machine.execSemTry gd im p s
  | .semRd gd im r => Sys2Proof.Machine.execSemRd gd im r s
  | .gbArr gd im => Sys2Proof.Machine.execGbArr gd im s
  | .gbWait gd im => Sys2Proof.Machine.execGbWait gd im s
  | .gbSync gd im => Sys2Proof.Machine.execGbSync gd im s
  | .fenceTlw gd im si r => Sys2Proof.Machine.execFenceTlw gd im si r s
  | .mul gd d a b => Sys2Proof.Machine.execMul gd d a b s
  | .mulh gd d a b => Sys2Proof.Machine.execMulh gd d a b s
  | .mulhu gd d a b => Sys2Proof.Machine.execMulhu gd d a b s
  | .mulhsu gd d a b => Sys2Proof.Machine.execMulhsu gd d a b s
  | .div gd d a b => Sys2Proof.Machine.execDiv gd d a b s
  | .divu gd d a b => Sys2Proof.Machine.execDivu gd d a b s
  | .rem gd d a b => Sys2Proof.Machine.execRem gd d a b s
  | .remu gd d a b => Sys2Proof.Machine.execRemu gd d a b s
  | .addw gd d a b => Sys2Proof.Machine.execAddw gd d a b s
  | .subw gd d a b => Sys2Proof.Machine.execSubw gd d a b s
  | .mulw gd d a b => Sys2Proof.Machine.execMulw gd d a b s
  | .sllw gd d a b => Sys2Proof.Machine.execSllw gd d a b s
  | .srlw gd d a b => Sys2Proof.Machine.execSrlw gd d a b s
  | .sraw gd d a b => Sys2Proof.Machine.execSraw gd d a b s
  | .divw gd d a b => Sys2Proof.Machine.execDivw gd d a b s
  | .remw gd d a b => Sys2Proof.Machine.execRemw gd d a b s
  | .clz gd d a => Sys2Proof.Machine.execClz gd d a s
  | .ctz gd d a => Sys2Proof.Machine.execCtz gd d a s
  | .popc gd d a => Sys2Proof.Machine.execPopc gd d a s
  | .brev gd d a => Sys2Proof.Machine.execBrev gd d a s
  | .sextb gd d a => Sys2Proof.Machine.execSextb gd d a s
  | .sexth gd d a => Sys2Proof.Machine.execSexth gd d a s
  | .sextw gd d a => Sys2Proof.Machine.execSextw gd d a s
  | .zextw gd d a => Sys2Proof.Machine.execZextw gd d a s
  | .sel gd d a b => Sys2Proof.Machine.execSel gd d a b s
  | .ld gd d a si x o => Sys2Proof.Machine.execLd gd d a si x o s
  | .st gd d a si o => Sys2Proof.Machine.execSt gd d a si o s
  | .ldsp gd d a si x o => Sys2Proof.Machine.execLdsp gd d a si x o s
  | .stsp gd d a si o => Sys2Proof.Machine.execStsp gd d a si o s
  | .ldAcq gd d a si c => Sys2Proof.Machine.execLdAcq gd d a si c s
  | .stRel gd d a si c => Sys2Proof.Machine.execStRel gd d a si c s
  | .amAddW gd d a o c => Sys2Proof.Machine.execAmAddW gd d a o c s
  | .amSwapW gd d a o c => Sys2Proof.Machine.execAmSwapW gd d a o c s
  | .amCasW gd d a o c => Sys2Proof.Machine.execAmCasW gd d a o c s
  | .amAndW gd d a o c => Sys2Proof.Machine.execAmAndW gd d a o c s
  | .amOrW gd d a o c => Sys2Proof.Machine.execAmOrW gd d a o c s
  | .amXorW gd d a o c => Sys2Proof.Machine.execAmXorW gd d a o c s
  | .amMaxW gd d a o c => Sys2Proof.Machine.execAmMaxW gd d a o c s
  | .amMinW gd d a o c => Sys2Proof.Machine.execAmMinW gd d a o c s
  | .amAddD gd d a o c => Sys2Proof.Machine.execAmAddD gd d a o c s
  | .amSwapD gd d a o c => Sys2Proof.Machine.execAmSwapD gd d a o c s
  | .amCasD gd d a o c => Sys2Proof.Machine.execAmCasD gd d a o c s
  | .amAndD gd d a o c => Sys2Proof.Machine.execAmAndD gd d a o c s
  | .amOrD gd d a o c => Sys2Proof.Machine.execAmOrD gd d a o c s
  | .amXorD gd d a o c => Sys2Proof.Machine.execAmXorD gd d a o c s
  | .amMaxD gd d a o c => Sys2Proof.Machine.execAmMaxD gd d a o c s
  | .amMinD gd d a o c => Sys2Proof.Machine.execAmMinD gd d a o c s
  | .scLd gd d a si w o => Sys2Proof.Machine.execScLd gd d a si w o s
  | .scSt gd d a si w o => Sys2Proof.Machine.execScSt gd d a si w o s
  | .fenceAcq gd c => Sys2Proof.Machine.execFenceAcq gd c s
  | .fenceRel gd c => Sys2Proof.Machine.execFenceRel gd c s
  | .fenceAr gd c => Sys2Proof.Machine.execFenceAr gd c s
  | .ecRd gd d a => Sys2Proof.Machine.execEcRd gd d a s
  | .ecCfg gd a b => Sys2Proof.Machine.execEcCfg gd a b s
  | .ecOn gd a => Sys2Proof.Machine.execEcOn gd a s
  | .ecOff gd a => Sys2Proof.Machine.execEcOff gd a s
  | .sysEnd gd => Sys2Proof.Machine.execSysEnd gd s
  | .yield gd => Sys2Proof.Machine.execYield gd s
  | .sysArg gd d a => Sys2Proof.Machine.execSysArg gd d a s
  | .sysAbort gd a => Sys2Proof.Machine.execSysAbort gd a s
  | .trap gd im => Sys2Proof.Machine.execTrap gd im s
  | .vesper gd im => Sys2Proof.Machine.execVesper gd im s
  | .vadd gd d a b => Sys2Proof.Machine.execVadd gd d a b s
  | .vsub gd d a b => Sys2Proof.Machine.execVsub gd d a b s
  | .vmul gd d a b => Sys2Proof.Machine.execVmul gd d a b s
  | .vdiv gd d a b => Sys2Proof.Machine.execVdiv gd d a b s
  | .vmin gd d a b => Sys2Proof.Machine.execVmin gd d a b s
  | .vmax gd d a b => Sys2Proof.Machine.execVmax gd d a b s
  | .vminp gd d a b => Sys2Proof.Machine.execVminp gd d a b s
  | .vmaxp gd d a b => Sys2Proof.Machine.execVmaxp gd d a b s
  | .viadd gd d a b si => Sys2Proof.Machine.execViadd gd d a b si s
  | .visub gd d a b si => Sys2Proof.Machine.execVisub gd d a b si s
  | .vimul gd d a b si => Sys2Proof.Machine.execVimul gd d a b si s
  | .viand gd d a b => Sys2Proof.Machine.execViand gd d a b s
  | .vior gd d a b => Sys2Proof.Machine.execVior gd d a b s
  | .vixor gd d a b => Sys2Proof.Machine.execVixor gd d a b s
  | .vishl gd d a b => Sys2Proof.Machine.execVishl gd d a b s
  | .vishr gd d a b => Sys2Proof.Machine.execVishr gd d a b s
  | .visra gd d a b => Sys2Proof.Machine.execVisra gd d a b s
  | .vimin gd d a b => Sys2Proof.Machine.execVimin gd d a b s
  | .vimax gd d a b => Sys2Proof.Machine.execVimax gd d a b s
  | .vfma gd d a b c => Sys2Proof.Machine.execVfma gd d a b c s
  | .vfms gd d a b c => Sys2Proof.Machine.execVfms gd d a b c s
  | .vsel gd d a b c => Sys2Proof.Machine.execVsel gd d a b c s
  | .vmov gd d a => Sys2Proof.Machine.execVmov gd d a s
  | .vneg gd d a => Sys2Proof.Machine.execVneg gd d a s
  | .vabs gd d a => Sys2Proof.Machine.execVabs gd d a s
  | .vexp2 gd d a => Sys2Proof.Machine.execVexp2 gd d a s
  | .vlog2 gd d a => Sys2Proof.Machine.execVlog2 gd d a s
  | .vrcp gd d a => Sys2Proof.Machine.execVrcp gd d a s
  | .vrsqrt gd d a => Sys2Proof.Machine.execVrsqrt gd d a s
  | .vsqrt gd d a => Sys2Proof.Machine.execVsqrt gd d a s
  | .vcvt gd d a r => Sys2Proof.Machine.execVcvt gd d a r s
  | .vqlg6 gd d a b => Sys2Proof.Machine.execVqlg6 gd d a b s
  | .vqint8 gd d a b => Sys2Proof.Machine.execVqint8 gd d a b s
  | .vdq gd d a => Sys2Proof.Machine.execVdq gd d a s
  | .vscl gd d a b => Sys2Proof.Machine.execVscl gd d a b s
  | .vperm gd d a b => Sys2Proof.Machine.execVperm gd d a b s
  | .vunpk4 gd d a => Sys2Proof.Machine.execVunpk4 gd d a s
  | .vtr8 gd d a => Sys2Proof.Machine.execVtr8 gd d a s
  | .vrsum gd d a => Sys2Proof.Machine.execVrsum gd d a s
  | .vrmax gd d a => Sys2Proof.Machine.execVrmax gd d a s
  | .vrmin gd d a => Sys2Proof.Machine.execVrmin gd d a s
  | .vrmaxp gd d a => Sys2Proof.Machine.execVrmaxp gd d a s
  | .vrminp gd d a => Sys2Proof.Machine.execVrminp gd d a s
  | .virsum gd d a => Sys2Proof.Machine.execVirsum gd d a s
  | .vany gd p a => Sys2Proof.Machine.execVany gd p a s
  | .vall gd p a => Sys2Proof.Machine.execVall gd p a s
  | .vmrg gd d a b => Sys2Proof.Machine.execVmrg gd d a b s
  | .vck gd d a => Sys2Proof.Machine.execVck gd d a s
  | .vcmpEq gd d a b => Sys2Proof.Machine.execVcmpEq gd d a b s
  | .vcmpNe gd d a b => Sys2Proof.Machine.execVcmpNe gd d a b s
  | .vcmpLt gd d a b => Sys2Proof.Machine.execVcmpLt gd d a b s
  | .vcmpLe gd d a b => Sys2Proof.Machine.execVcmpLe gd d a b s
  | .vcmpUn gd d a b => Sys2Proof.Machine.execVcmpUn gd d a b s
  | .vsetq gd d a b => Sys2Proof.Machine.execVsetq gd d a b s
  | .vgetq gd d a b => Sys2Proof.Machine.execVgetq gd d a b s
  | .vadvq gd d a b => Sys2Proof.Machine.execVadvq gd d a b s
  | .vcntq gd d a => Sys2Proof.Machine.execVcntq gd d a s
  | .vld gd q a h => Sys2Proof.Machine.execVld gd q a h s
  | .vst gd q a h => Sys2Proof.Machine.execVst gd q a h s
  | .vloop gd l a e => Sys2Proof.Machine.execVloop gd l a e s
  | .vstg gd im => Sys2Proof.Machine.execVstg gd im s
  | .mmMac a d e t => Sys2Proof.Machine.execMmMac a d e t s
  | .mmMul a d e t => Sys2Proof.Machine.execMmMul a d e t s
  | .mmZero a => Sys2Proof.Machine.execMmZero a s
  | .mmDrain a d f r => Sys2Proof.Machine.execMmDrain a d f r s
  | .mmSetd d si => Sys2Proof.Machine.execMmSetd d si s
  | .mmGetd d si => Sys2Proof.Machine.execMmGetd d si s
  | .mmAdv d => Sys2Proof.Machine.execMmAdv d s
  | .mmLdacc a d => Sys2Proof.Machine.execMmLdacc a d s
  | .mmMov a d => Sys2Proof.Machine.execMmMov a d s
  | .cp1d c a b => Sys2Proof.Machine.execCp1d c a b s
  | .cp2d c a b => Sys2Proof.Machine.execCp2d c a b s
  | .cp3d c a b => Sys2Proof.Machine.execCp3d c a b s
  | .cpGat c a b => Sys2Proof.Machine.execCpGat c a b s
  | .cpSct c a b => Sys2Proof.Machine.execCpSct c a b s
  | .cpFill c a b => Sys2Proof.Machine.execCpFill c a b s
  | .cpTol c a b => Sys2Proof.Machine.execCpTol c a b s
  | .cpFrl c a b => Sys2Proof.Machine.execCpFrl c a b s
  | .cpRedSum c a b => Sys2Proof.Machine.execCpRedSum c a b s
  | .cpRedMax c a b => Sys2Proof.Machine.execCpRedMax c a b s
  | .cpRedMrg c a b => Sys2Proof.Machine.execCpRedMrg c a b s
  | .cpMm c a b => Sys2Proof.Machine.execCpMm c a b s
  | .cpStat d k => Sys2Proof.Machine.execCpStat d k s
  | .cpAbort d k => Sys2Proof.Machine.execCpAbort d k s
  | .cpBind n k => Sys2Proof.Machine.execCpBind n k s
  | .plSetup n a k => Sys2Proof.Machine.execPlSetup n a k s
  | .plFire n k => Sys2Proof.Machine.execPlFire n k s
  | .plFree n k => Sys2Proof.Machine.execPlFree n k s
  | .plStat d k => Sys2Proof.Machine.execPlStat d k s
  | .plRedo n a k => Sys2Proof.Machine.execPlRedo n a k s
  | .plGeth d k => Sys2Proof.Machine.execPlGeth d k s
  | .plSeth a k => Sys2Proof.Machine.execPlSeth a k s
  | .nmStart n a => Sys2Proof.Machine.execNmStart n a s
  | .nmFenceBank a => Sys2Proof.Machine.execNmFenceBank a s
  | .nmFenceChan a => Sys2Proof.Machine.execNmFenceChan a s
  | .nmRatio d a => Sys2Proof.Machine.execNmRatio d a s
  | .nmColl n a => Sys2Proof.Machine.execNmColl n a s
  | .nmQbc n a => Sys2Proof.Machine.execNmQbc n a s
  | .nmWalk n a => Sys2Proof.Machine.execNmWalk n a s
  | .nmStat d a => Sys2Proof.Machine.execNmStat d a s
  | .kvAlloc d a => Sys2Proof.Machine.execKvAlloc d a s
  | .kvFree d a => Sys2Proof.Machine.execKvFree d a s
  | .kvApp d a b => Sys2Proof.Machine.execKvApp d a b s
  | .kvMap d a => Sys2Proof.Machine.execKvMap d a s
  | .kvShare d a => Sys2Proof.Machine.execKvShare d a s
  | .kvMove d a => Sys2Proof.Machine.execKvMove d a s
  | .kvStatLen d a => Sys2Proof.Machine.execKvStatLen d a s
  | .kvStatGen d a => Sys2Proof.Machine.execKvStatGen d a s
  | .kvStatFree d a => Sys2Proof.Machine.execKvStatFree d a s
  | .kvGen d a b => Sys2Proof.Machine.execKvGen d a b s
  | .l2Lease d a b => Sys2Proof.Machine.execL2Lease d a b s
  | .l2Rel d a => Sys2Proof.Machine.execL2Rel d a s
  | .l2Renew d a b => Sys2Proof.Machine.execL2Renew d a b s
  | .l2Stat d a => Sys2Proof.Machine.execL2Stat d a s
  | .l2Dot n a => Sys2Proof.Machine.execL2Dot n a s
  | .l2WbL1 n a b => Sys2Proof.Machine.execL2WbL1 n a b s
  | .l2WbL2 n a b => Sys2Proof.Machine.execL2WbL2 n a b s
  | .l2InvL1 n a b => Sys2Proof.Machine.execL2InvL1 n a b s
  | .l2InvL2 n a b => Sys2Proof.Machine.execL2InvL2 n a b s
  | .l2PfL2 a b => Sys2Proof.Machine.execL2PfL2 a b s
  | .l2PfL1 a b => Sys2Proof.Machine.execL2PfL1 a b s
  | .fenceArmSig n a b => Sys2Proof.Machine.execFenceArmSig n a b s
  | .fenceArmTrig n a b => Sys2Proof.Machine.execFenceArmTrig n a b s
  | .fenceArmWr n a b => Sys2Proof.Machine.execFenceArmWr n a b s
  | .ldC d a si x o => Sys2Proof.Machine.execLdC d a si x o s
  | .stC d a si o => Sys2Proof.Machine.execStC d a si o s
  | .bnop => Sys2Proof.Machine.execBnop s
  | .bact => Sys2Proof.Machine.execBact s
  | .bpre => Sys2Proof.Machine.execBpre s
  | .bpra => Sys2Proof.Machine.execBpra s
  | .bref => Sys2Proof.Machine.execBref s
  | .bqld => Sys2Proof.Machine.execBqld s
  | .bdot => Sys2Proof.Machine.execBdot s
  | .bemit => Sys2Proof.Machine.execBemit s
  | .bwbc => Sys2Proof.Machine.execBwbc s
  | .bwacc => Sys2Proof.Machine.execBwacc s
  | .bwr => Sys2Proof.Machine.execBwr s
  | .bwra => Sys2Proof.Machine.execBwra s
  | .bclr => Sys2Proof.Machine.execBclr s
  | .bscl => Sys2Proof.Machine.execBscl s
  | .bwact => Sys2Proof.Machine.execBwact s
  | .bwadv => Sys2Proof.Machine.execBwadv s
  | .bloop => Sys2Proof.Machine.execBloop s
  | .bjmp => Sys2Proof.Machine.execBjmp s
  | .bsync => Sys2Proof.Machine.execBsync s
  | .bend => Sys2Proof.Machine.execBend s
  | .bmx => Sys2Proof.Machine.execBmx s
  | .scAccessIssue => Sys2Proof.Machine.execScAccessIssue s
  | .resultLanding => Sys2Proof.Machine.execResultLanding s
  | .loadDataArrival => Sys2Proof.Machine.execLoadDataArrival s
  | .storeBufferDrain => Sys2Proof.Machine.execStoreBufferDrain s
  | .instructionFetchFill => Sys2Proof.Machine.execInstructionFetchFill s
  | .interlockResultReady => Sys2Proof.Machine.execInterlockResultReady s
  | .pageWalk => Sys2Proof.Machine.execPageWalk s
  | .semWaitService => Sys2Proof.Machine.execSemWaitService s
  | .semSignalApply => Sys2Proof.Machine.execSemSignalApply s
  | .gbArrivalApply => Sys2Proof.Machine.execGbArrivalApply s
  | .timelineMarkAdvance => Sys2Proof.Machine.execTimelineMarkAdvance s
  | .copyStart => Sys2Proof.Machine.execCopyStart s
  | .copyComplete => Sys2Proof.Machine.execCopyComplete s
  | .copyChunkResend => Sys2Proof.Machine.execCopyChunkResend s
  | .followOnArrival => Sys2Proof.Machine.execFollowOnArrival s
  | .followOnStart => Sys2Proof.Machine.execFollowOnStart s
  | .followOnComplete => Sys2Proof.Machine.execFollowOnComplete s
  | .matrixDrainComplete => Sys2Proof.Machine.execMatrixDrainComplete s
  | .nmTableStart => Sys2Proof.Machine.execNmTableStart s
  | .matinsPassStart => Sys2Proof.Machine.execMatinsPassStart s
  | .matinsTableStop => Sys2Proof.Machine.execMatinsTableStop s
  | .leaseExpiry => Sys2Proof.Machine.execLeaseExpiry s
  | .xinvComplete => Sys2Proof.Machine.execXinvComplete s
  | .planSetupComplete => Sys2Proof.Machine.execPlanSetupComplete s
  | .planTriggerDelivery => Sys2Proof.Machine.execPlanTriggerDelivery s
  | .planPartStart => Sys2Proof.Machine.execPlanPartStart s
  | .planPartComplete => Sys2Proof.Machine.execPlanPartComplete s
  | .mergeNodeCompute => Sys2Proof.Machine.execMergeNodeCompute s
  | .chunkHopVerify => Sys2Proof.Machine.execChunkHopVerify s
  | .chunkResend => Sys2Proof.Machine.execChunkResend s
  | .flitReceive => Sys2Proof.Machine.execFlitReceive s
  | .laneFailure => Sys2Proof.Machine.execLaneFailure s
  | .unplannedRequestTimeout => Sys2Proof.Machine.execUnplannedRequestTimeout s
  | .launchPacket => Sys2Proof.Machine.execLaunchPacket s
  | .barrierAndPacket => Sys2Proof.Machine.execBarrierAndPacket s
  | .barrierOrPacket => Sys2Proof.Machine.execBarrierOrPacket s
  | .barrierEvaluation => Sys2Proof.Machine.execBarrierEvaluation s
  | .copyPacket => Sys2Proof.Machine.execCopyPacket s
  | .signalStorePacket => Sys2Proof.Machine.execSignalStorePacket s
  | .signalAddPacket => Sys2Proof.Machine.execSignalAddPacket s
  | .signalTriggerPacket => Sys2Proof.Machine.execSignalTriggerPacket s
  | .tableLoadPacket => Sys2Proof.Machine.execTableLoadPacket s
  | .packetCompletion => Sys2Proof.Machine.execPacketCompletion s
  | .gangPlacement => Sys2Proof.Machine.execGangPlacement s
  | .taskEnd => Sys2Proof.Machine.execTaskEnd s
  | .preemptBoundExpiry => Sys2Proof.Machine.execPreemptBoundExpiry s
  | .preemptSave => Sys2Proof.Machine.execPreemptSave s
  | .gangResumption => Sys2Proof.Machine.execGangResumption s
  | .midnightExpiry => Sys2Proof.Machine.execMidnightExpiry s
  | .xinvWrite => Sys2Proof.Machine.execXinvWrite s
  | .xresResume => Sys2Proof.Machine.execXresResume s
  | .xresAbort => Sys2Proof.Machine.execXresAbort s
  | .hsplitWrite => Sys2Proof.Machine.execHsplitWrite s
  | .kvctlEnable => Sys2Proof.Machine.execKvctlEnable s
  | .kvctlDisable => Sys2Proof.Machine.execKvctlDisable s
  | .kvlostWrite => Sys2Proof.Machine.execKvlostWrite s
  | .pltrigWrite => Sys2Proof.Machine.execPltrigWrite s
  | .ptcfgWrite => Sys2Proof.Machine.execPtcfgWrite s
  | .contextEntryWrite => Sys2Proof.Machine.execContextEntryWrite s
  | .ctxabWrite => Sys2Proof.Machine.execCtxabWrite s
  | .queueEnable => Sys2Proof.Machine.execQueueEnable s
  | .queueDisable => Sys2Proof.Machine.execQueueDisable s
  | .qwrWrite => Sys2Proof.Machine.execQwrWrite s
  | .pmreqWrite => Sys2Proof.Machine.execPmreqWrite s
  | .pmresWrite => Sys2Proof.Machine.execPmresWrite s
  | .mnstKick => Sys2Proof.Machine.execMnstKick s
  | .ecownWrite => Sys2Proof.Machine.execEcownWrite s
  | .ecHostValueWrite => Sys2Proof.Machine.execEcHostValueWrite s
  | .counterWrap => Sys2Proof.Machine.execCounterWrap s
  | .atctlGo => Sys2Proof.Machine.execAtctlGo s
  | .mctpRequest => Sys2Proof.Machine.execMctpRequest s
  | .hostBarAccess => Sys2Proof.Machine.execHostBarAccess s
  | .registerWrite => Sys2Proof.Machine.execRegisterWrite s
  | .powerControlUpdate => Sys2Proof.Machine.execPowerControlUpdate s
  | .correctedError => Sys2Proof.Machine.execCorrectedError s
  | .uncorrectableError => Sys2Proof.Machine.execUncorrectableError s
  | .coreSpareTakeover => Sys2Proof.Machine.execCoreSpareTakeover s
  | .dawnStartup => Sys2Proof.Machine.execDawnStartup s
  | .routeRecovery => Sys2Proof.Machine.execRouteRecovery s
  | .kvOperationComplete => Sys2Proof.Machine.execKvOperationComplete s
  | .powerLoss => Sys2Proof.Machine.execPowerLoss s

end Sys2Proof.Machine
end

