-- ==== Sys2Proof/Machine/Step.lean ====
section
/-!
DEFINITION. Sys2Proof/Machine/Step.lean: one step of the machine: the next mover of the order in State moves. A stream
executes one cycle of its instruction, a channel issues a word, an event happens, or the clock moves.
-/

namespace Sys2Proof.Machine

/-- A stream's turn: what comes before its instruction, the instruction, what comes after; a word that is kept from issuing is tried for
the causes that only it knows (R96). -/
def streamStep (core : Nat) (st : StreamId) (s : State) : Host.Outcome State Fault Refusal :=
  let s := s.at core st
  match beginTurn s with
  | .error s' =>
    match triedWord s with
    | none => .next s'
    | some (i, s1) =>
      match exec i s1 with
      | .next s2 => .next (lowestCause s2 s')
      | _ => .next s'
  | .ok (i, s1) =>
    match exec i s1 with
    | .next s2 => .next (endTurn s s2)
    | o => o

/-- A matrix array's wall cycle: a follow-on command takes it if it may, and the one that holds it goes on (R199). -/
def matrixStep (core : Nat) (s : State) : Host.Outcome State Fault Refusal :=
  match exec .followOnStart { s with arg := { unit := core, st := .m } } with
  | .next s' => .next (followCycle (s'.at core .m))
  | o => o

/-- A channel's sequencer issues its next word, unless the memory throttle freezes it (R290, R321). -/
def chanStep (key : Nat) (s : State) : Host.Outcome State Fault Refusal :=
  if memThrottled key s then .next (frozenWord key s)
  else match beginWord key s with
    | none => .next s
    | some (i, s1) =>
      match exec i s1 with
      | .next s2 => .next (endWord s1.bop.w s2)
      | o => o

/-- An event of the agenda happens. -/
def eventStep (i : Nat) (s : State) : Host.Outcome State Fault Refusal :=
  match takeEvent i s with
  | none => .next s
  | some (e, s1) => exec e s1

/-- A mover moves. -/
def moveStep (m : Mover) (s : State) : Host.Outcome State Fault Refusal :=
  match m with
  | .stream core st => streamStep core st s
  | .matrix core => matrixStep core s
  | .event i => eventStep i s
  | .chan key => chanStep key s
  | .clock => .next (clockTick s)

/-- One step: the next mover of the order moves if its place in the wall cycle has not been passed; else it is left out. -/
def step (s : State) : Host.Outcome State Fault Refusal :=
  let m := nextMover s
  if mayMove m.2 m.1 then moveStep m.1 (reachPlace m.1 m.2) else .next m.2

/-- The state in which the next step fetches and runs one given instruction (log 8): a 32-bit word as the one word of
the stream whose map reads it, on core 0 of package 0; a 64-bit word as the one word of the table of channel 0 of package 0,
in a pass. -/
def State.withFetchWord (s : State) (nbits w : Nat) : State :=
  let k := tableStream w
  let t := freshTask ((({} : Task).setStr k (freshStream k 0 64 0)))
  if nbits = 64 then
    { (s.modChan 0 fun c => { c with table := [w], state := 2, live := true, held := false, widx := 0 }) with sched := [.chan 0], rank := 0, moved := [] }
  else { (s.modCore 0 fun c => { c with task := some t, icache := [(icKey 0 0, w)] }) with sched := [.stream 0 k], cur := {}, rank := 0, moved := [] }

end Sys2Proof.Machine
end

