-- ==== Sys2Proof/Safety.lean ====
section
/-!
DEFINITION. Sys2Proof/Safety.lean: what a safe run is, in the terms the claims use: the machine is never stuck.
-/

namespace Sys2Proof

/-- A step that answers a next state. -/
def Steps (s t : Machine.State) : Prop := Machine.step s = .next t

/-- A state whose next step is neither a fault nor a refusal. -/
def SafeAt (s : Machine.State) : Prop := ∃ t, Steps s t

end Sys2Proof
end

