-- ==== Sys2Proof/Certificates/Slice0/Obligations.lean ====
section
/-!
DEFINITION. Sys2Proof/Certificates/Slice0/Obligations.lean: the statements for the provers, and before them the vocabulary
they are written in. Values are given as the spec writes them, in whole-number arithmetic where it computes with numbers.
-/

namespace Sys2Proof.Claim

open Machine

/-! ### Vocabulary -/

/-- A word issues on the executing stream: its task is resident and its guard, read now, is true (R62). -/
def Issues (g : Guard) (s : State) : Prop := s.resident = true ∧ (guardRead g s).1 = true

/-- None of these scalar registers of the executing stream is poisoned (R428). -/
def Clean (l : List Nat) (s : State) : Prop := ∀ r ∈ l, ErrLoc.reg s.cur.core s.cur.st r ∉ s.poison

/-- The machine with a result of the executing stream in flight, due `n` cycles after issue; nothing else differs. -/
def inFlight (n : Nat) (l : Land) (fl : Nat) (s : State) : State :=
  s.modStr fun x =>
    { x with flights := x.flights ++ [{ due := x.cyc + n, iss := x.cyc, seq := x.seq, land := l, fl := fl }], seq := x.seq + 1 }

/-- The machine with a result of a latency class in flight (R91, R98, R99): due after the assumed latency of the class; where
the native latency is longer it waits for its unit, and the step in which the unit is ready is due. Nothing else differs. -/
def pending (extra cls : Nat) (l : Land) (fl : Nat) (s : State) : State :=
  let lat := Config.latCycles (s.task.lata / 16 ^ cls % 16)
  let native := Config.latCycles (Config.latn / 16 ^ cls % 16)
  let t := s.modStr fun x =>
    { x with
      flights := x.flights ++ [{ due := x.cyc + extra + lat, iss := x.cyc, seq := x.seq, land := l, fl := fl, wait := if lat < native then 10 else 0 }]
      seq := x.seq + 1 }
  if lat < native then
    { t with agenda := t.agenda ++ [(.interlockResultReady, { unit := s.cur.core, st := s.cur.st, k := s.str.seq, v := s.wall + extra + native })] }
  else t

/-- A register write of latency class `cls` in flight. -/
def regPending (cls d : Nat) (v : Word64) (s : State) : State := pending 0 cls (.regs [(d, v)]) 0 s

/-- Every byte of memory reads as before. -/
def SameMemory (s t : State) : Prop := ∀ a, Memory.get t.mem a = Memory.get s.mem a

end Sys2Proof.Claim

/-! ### Integer and predicate instructions (R111 to R120) -/

namespace Sys2Proof.Claim

open Machine

/-- The low 32 bits of a register as a signed number. -/
def low (x : Word64) : Int := (x.setWidth 32).toInt

/-- A 32-bit result, sign-extended (R116). -/
def word (x : Int) : Word64 := BitVec.ofInt 64 (x.bmod (2 ^ 32))

/-- What an integer instruction computes: its guard, latency class (0 alu, 1 mul, 2 div), destination, the registers it
reads and its value from what they hold. -/
structure Alu where
  g : Guard
  cls : Nat
  d : Nat
  src : List Nat
  val : (Nat → Word64) → Word64

/-- `op xd, xa, xb` as the tables of R112, R115 and R116 give it. -/
def alu2 : Instr → Option Alu
  | .add g d a b => some ⟨g, 0, d, [a, b], fun r => BitVec.ofInt 64 ((r a).toInt + (r b).toInt)⟩
  | .sub g d a b => some ⟨g, 0, d, [a, b], fun r => BitVec.ofInt 64 ((r a).toInt - (r b).toInt)⟩
  | .and g d a b => some ⟨g, 0, d, [a, b], fun r => r a &&& r b⟩
  | .or g d a b => some ⟨g, 0, d, [a, b], fun r => r a ||| r b⟩
  | .xor g d a b => some ⟨g, 0, d, [a, b], fun r => r a ^^^ r b⟩
  | .andn g d a b => some ⟨g, 0, d, [a, b], fun r => r a &&& ~~~(r b)⟩
  | .orn g d a b => some ⟨g, 0, d, [a, b], fun r => r a ||| ~~~(r b)⟩
  | .xnor g d a b => some ⟨g, 0, d, [a, b], fun r => ~~~(r a ^^^ r b)⟩
  | .sll g d a b => some ⟨g, 0, d, [a, b], fun r => r a <<< ((r b).toNat % 64)⟩
  | .srl g d a b => some ⟨g, 0, d, [a, b], fun r => BitVec.ofNat 64 ((r a).toNat / 2 ^ ((r b).toNat % 64))⟩
  | .sra g d a b => some ⟨g, 0, d, [a, b], fun r => BitVec.ofInt 64 ((r a).toInt / 2 ^ ((r b).toNat % 64))⟩
  | .ror g d a b => some ⟨g, 0, d, [a, b], fun r => (r a).rotateRight ((r b).toNat % 64)⟩
  | .min g d a b => some ⟨g, 0, d, [a, b], fun r => BitVec.ofInt 64 (min (r a).toInt (r b).toInt)⟩
  | .max g d a b => some ⟨g, 0, d, [a, b], fun r => BitVec.ofInt 64 (max (r a).toInt (r b).toInt)⟩
  | .minu g d a b => some ⟨g, 0, d, [a, b], fun r => BitVec.ofNat 64 (min (r a).toNat (r b).toNat)⟩
  | .maxu g d a b => some ⟨g, 0, d, [a, b], fun r => BitVec.ofNat 64 (max (r a).toNat (r b).toNat)⟩
  | .mul g d a b => some ⟨g, 1, d, [a, b], fun r => BitVec.ofInt 64 ((r a).toInt * (r b).toInt)⟩
  | .mulh g d a b => some ⟨g, 1, d, [a, b], fun r => BitVec.ofInt 64 ((r a).toInt * (r b).toInt / 2 ^ 64)⟩
  | .mulhu g d a b => some ⟨g, 1, d, [a, b], fun r => BitVec.ofNat 64 ((r a).toNat * (r b).toNat / 2 ^ 64)⟩
  | .mulhsu g d a b => some ⟨g, 1, d, [a, b], fun r => BitVec.ofInt 64 ((r a).toInt * (r b).toNat / 2 ^ 64)⟩
  | .div g d a b => some ⟨g, 2, d, [a, b], fun r => if r b = 0 then -1 else BitVec.ofInt 64 ((r a).toInt.tdiv (r b).toInt)⟩
  | .divu g d a b => some ⟨g, 2, d, [a, b], fun r => if r b = 0 then -1 else BitVec.ofNat 64 ((r a).toNat / (r b).toNat)⟩
  | .rem g d a b => some ⟨g, 2, d, [a, b], fun r => if r b = 0 then r a else BitVec.ofInt 64 ((r a).toInt - (r a).toInt.tdiv (r b).toInt * (r b).toInt)⟩
  | .remu g d a b => some ⟨g, 2, d, [a, b], fun r => if r b = 0 then r a else BitVec.ofNat 64 ((r a).toNat % (r b).toNat)⟩
  | .addw g d a b => some ⟨g, 0, d, [a, b], fun r => word (low (r a) + low (r b))⟩
  | .subw g d a b => some ⟨g, 0, d, [a, b], fun r => word (low (r a) - low (r b))⟩
  | .mulw g d a b => some ⟨g, 1, d, [a, b], fun r => word (low (r a) * low (r b))⟩
  | .sllw g d a b => some ⟨g, 0, d, [a, b], fun r => word (low (r a) * 2 ^ ((r b).toNat % 32))⟩
  | .srlw g d a b => some ⟨g, 0, d, [a, b], fun r => word (((r a).toNat % 2 ^ 32 / 2 ^ ((r b).toNat % 32) : Nat))⟩
  | .sraw g d a b => some ⟨g, 0, d, [a, b], fun r => word (low (r a) / 2 ^ ((r b).toNat % 32))⟩
  | .divw g d a b => some ⟨g, 2, d, [a, b], fun r => if low (r b) = 0 then -1 else word ((low (r a)).tdiv (low (r b)))⟩
  | .remw g d a b => some ⟨g, 2, d, [a, b], fun r => if low (r b) = 0 then word (low (r a)) else word (low (r a) - (low (r a)).tdiv (low (r b)) * low (r b))⟩
  | _ => none

/-- An n-bit field as a signed number. -/
def signed (n v : Nat) : Int := (BitVec.ofNat n v).toInt

/-- The immediate and unary forms as R113, R114 and R117 give them. -/
def alu1 : Instr → Option Alu
  | .addi g d a i => some ⟨g, 0, d, [a], fun r => BitVec.ofInt 64 ((r a).toInt + signed 9 i)⟩
  | .andi g d a i => some ⟨g, 0, d, [a], fun r => r a &&& BitVec.ofInt 64 (signed 9 i)⟩
  | .ori g d a i => some ⟨g, 0, d, [a], fun r => r a ||| BitVec.ofInt 64 (signed 9 i)⟩
  | .xori g d a i => some ⟨g, 0, d, [a], fun r => r a ^^^ BitVec.ofInt 64 (signed 9 i)⟩
  | .slli g d a sh => some ⟨g, 0, d, [a], fun r => BitVec.ofNat 64 ((r a).toNat * 2 ^ sh)⟩
  | .srli g d a sh => some ⟨g, 0, d, [a], fun r => BitVec.ofNat 64 ((r a).toNat / 2 ^ sh)⟩
  | .srai g d a sh => some ⟨g, 0, d, [a], fun r => BitVec.ofInt 64 ((r a).toInt / 2 ^ sh)⟩
  | .rori g d a sh => some ⟨g, 0, d, [a], fun r => (r a).rotateRight sh⟩
  | .li g d i => some ⟨g, 0, d, [], fun _ => BitVec.ofInt 64 (signed 15 i)⟩
  | .lix g d i => some ⟨g, 0, d, [d], fun r => BitVec.ofNat 64 ((r d).toNat * 2 ^ 15) ||| BitVec.ofNat 64 (i % 2 ^ 15)⟩
  | .clz g d a => some ⟨g, 0, d, [a], fun r => BitVec.ofNat 64 ((List.range 64).takeWhile fun k => !(r a).getLsbD (63 - k)).length⟩
  | .ctz g d a => some ⟨g, 0, d, [a], fun r => BitVec.ofNat 64 ((List.range 64).takeWhile fun k => !(r a).getLsbD k).length⟩
  | .popc g d a => some ⟨g, 0, d, [a], fun r => BitVec.ofNat 64 ((List.range 64).filter fun k => (r a).getLsbD k).length⟩
  | .brev g d a => some ⟨g, 0, d, [a], fun r => BitVec.ofBoolListLE ((List.range 64).map fun k => (r a).getLsbD (63 - k))⟩
  | .sextb g d a => some ⟨g, 0, d, [a], fun r => BitVec.ofInt 64 (signed 8 (r a).toNat)⟩
  | .sexth g d a => some ⟨g, 0, d, [a], fun r => BitVec.ofInt 64 (signed 16 (r a).toNat)⟩
  | .sextw g d a => some ⟨g, 0, d, [a], fun r => BitVec.ofInt 64 (signed 32 (r a).toNat)⟩
  | .zextw g d a => some ⟨g, 0, d, [a], fun r => BitVec.ofNat 64 ((r a).toNat % 2 ^ 32)⟩
  | _ => none

/-- The condition codes of a compare (R66, R119). -/
def condCode (c : Nat) (x y : Word64) : Bool :=
  match c with
  | 0 => x = y
  | 1 => x ≠ y
  | 2 => x.toInt < y.toInt
  | 3 => y.toInt ≤ x.toInt
  | 4 => x.toNat < y.toNat
  | 5 => y.toNat ≤ x.toNat
  | 6 => (x &&& y) ≠ 0
  | _ => (x &&& y) = 0

/-- The predicate instructions (R120): guard, destination, the predicates read, the value. -/
def predRow : Instr → Option (Guard × Nat × Nat × Nat × (Bool → Bool → Bool))
  | .pand g d a b => some (g, d, a, b, fun x y => x && y)
  | .por g d a b => some (g, d, a, b, fun x y => x || y)
  | .pxor g d a b => some (g, d, a, b, fun x y => x != y)
  | .pandn g d a b => some (g, d, a, b, fun x y => x && !y)
  | .pnot g d a => some (g, d, a, 0, fun x _ => !x)
  | .pmov g d a => some (g, d, a, 0, fun x _ => x)
  | .pset g d => some (g, d, 0, 0, fun _ _ => true)
  | .pclr g d => some (g, d, 0, 0, fun _ _ => false)
  | _ => none

end Sys2Proof.Claim

open Sys2Proof Machine Claim in
/-- The register forms of R112, R115 and R116 read their sources at issue and land their value after the latency of their
class; nothing else of the machine changes, beyond what reading the guard does. -/
def Obligations.IntegerRegisterFormsCompute : Prop :=
  ∀ (i : Instr) (r : Alu) (s : State), alu2 i = some r → Issues r.g s → Clean r.src s →
    exec i s = .next (regPending r.cls r.d (r.val s.reg) (guardRead r.g s).2)

open Sys2Proof Machine Claim in
/-- The immediate and unary forms of R113, R114 and R117, in the same way; shift amounts are the six bits of their field. -/
def Obligations.IntegerImmediateAndUnaryFormsCompute : Prop :=
  ∀ (i : Instr) (r : Alu) (s : State), alu1 i = some r → Issues r.g s → Clean r.src s →
    exec i s = .next (regPending r.cls r.d (r.val s.reg) (guardRead r.g s).2)

open Sys2Proof Machine Claim in
/-- `sel` always executes and takes its first source where its selector is true (R118); `nop` changes no state (R58).
Compares land a predicate by the condition codes of R66 (R119), and the predicate instructions combine predicates read at
issue (R120), all with class cmp (3). -/
def Obligations.SelectionsComparesAndPredicates : Prop :=
  ((∀ (g : Guard) (d a b : Nat) (s : State), s.resident = true → Clean [a, b] s →
     exec (.sel g d a b) s =
       .next (regPending 0 d (if (readP g.p s).1 ≠ g.neg then s.reg a else s.reg b) (readP g.p s).2)) ∧
   (∀ s : State, s.resident = true → exec .nop s = .next s)) ∧
  ((∀ (g : Guard) (p a b c : Nat) (s : State), c < 8 → Issues g s → Clean [a, b] s →
     exec (.cmp g p a b c) s = .next (pending 0 3 (.pred p (condCode c (s.reg a) (s.reg b))) 0 (guardRead g s).2)) ∧
   (∀ (g : Guard) (p a c i : Nat) (s : State), c < 8 → Issues g s → Clean [a] s →
     exec (.cmpi g p a c i) s = .next (pending 0 3 (.pred p (condCode c (s.reg a) (BitVec.ofInt 64 (signed 7 i)))) 0 (guardRead g s).2)) ∧
   (∀ (i : Instr) (g : Guard) (d a b : Nat) (f : Bool → Bool → Bool) (s : State), predRow i = some (g, d, a, b, f) → Issues g s →
     let x := readP a (guardRead g s).2
     let y := readP b x.2
     exec i s = .next (pending 0 3 (.pred d (f x.1 y.1)) 0 y.2)))

/-! ### Landing and control (R91, R92, R102 to R106, R178) -/

namespace Sys2Proof.Claim

open Machine

/-- The branch instructions (R102, R103, R104): guard, registers read, and the machine after the issue of one at address
`pc`. -/
def branchRow (s : State) : Instr → Option (Guard × List Nat × (State → State))
  | .brp g d o => some (g, [], inFlight 1 (.breg d (BitVec.ofInt 32 (s.str.pc + 4 * signed 18 o))) 0)
  | .brpx g d a => some (g, [a], inFlight 1 (.breg d ((s.reg a).setWidth 32)) 0)
  | .br g b => some (g, [], fun t => t.modStr fun x => { x with brs := x.brs ++ [(4, (s.str.b.getD b 0).toNat)] })
  | .brL g b d => some (g, [], fun t =>
      (regPending 0 d (BitVec.ofNat 64 (s.str.pc + 16)) t).modStr fun x => { x with brs := x.brs ++ [(4, (s.str.b.getD b 0).toNat)] })
  | _ => none

/-- The loop instructions (R105, R178): guard, registers read, counter, count, end offset, vector mark. -/
def loopRow (s : State) : Instr → Option (Guard × List Nat × Nat × Nat × Nat × Bool)
  | .loop g k a e => some (g, [a], k, (s.reg a).toNat % 2 ^ 32, e, false)
  | .loopi g k n e => some (g, [], k, n % 2 ^ 32, e, false)
  | .vloop g k a e => some (g, [a], k, (s.reg a).toNat % 2 ^ 32, e, true)
  | _ => none

/-- The loop test of one counter at an address (R106): the address it repeats at, and the counters. -/
def testOne (pc k : Nat) (lc : List Loop) : Option Nat × List Loop :=
  let l := lc.getD k {}
  if l.act = true ∧ l.stop = pc then
    if 1 < l.cnt.toNat then (some l.start, lc.set k { l with cnt := l.cnt - 1 }) else (none, lc.set k { l with cnt := 0, act := false })
  else (none, lc)

/-- The loop test of both counters, the one started more recently first (R106). -/
def testLoops (pc : Nat) (lc : List Loop) : Option Nat × List Loop :=
  let first := if (lc.getD 0 {}).ord < (lc.getD 1 {}).ord then 1 else 0
  match testOne pc first lc with
  | (some a, l) => (some a, l)
  | (none, l) => testOne pc (1 - first) l

/-- The count that is left of the counter which repeats at an address, where it is a vector loop's (R178). -/
def repeatVec (pc : Nat) (lc : List Loop) : Option Nat :=
  let first := if (lc.getD 0 {}).ord < (lc.getD 1 {}).ord then 1 else 0
  let left (k : Nat) : Option Nat := if (lc.getD k {}).vec = true then some ((lc.getD k {}).cnt.toNat - 1) else none
  match testOne pc first lc with
  | (some _, _) => left first
  | (none, l) => match testOne pc (1 - first) l with
    | (some _, _) => left (1 - first)
    | (none, _) => none

/-- The guard of the words that carry one (R58, R62), but for `sel`, which always executes (R118), and the vector instructions over several
cycles, whose false guards R158 rules. -/
def plainGuard : Instr → Option Guard
  | .add g .. | .sub g .. | .and g .. | .or g .. | .xor g .. | .andn g .. | .orn g .. | .xnor g .. | .sll g .. | .srl g .. | .sra g .. | .ror g ..
  | .min g .. | .max g .. | .minu g .. | .maxu g .. | .addi g .. | .andi g .. | .ori g .. | .xori g .. | .slli g .. | .srli g .. | .srai g ..
  | .rori g .. | .li g .. | .lix g .. | .cmp g .. | .cmpi g .. | .pand g .. | .por g .. | .pxor g .. | .pandn g .. | .pnot g .. | .pmov g ..
  | .pset g .. | .pclr g .. | .brp g .. | .brpx g .. | .br g .. | .brL g .. | .loop g .. | .loopi g .. | .csrr g .. | .csrw g .. | .semWait g ..
  | .semSig g .. | .semTry g .. | .semRd g .. | .gbArr g .. | .gbWait g .. | .gbSync g .. | .fenceTlw g .. | .mul g .. | .mulh g .. | .mulhu g ..
  | .mulhsu g .. | .div g .. | .divu g .. | .rem g .. | .remu g .. | .addw g .. | .subw g .. | .mulw g .. | .sllw g .. | .srlw g .. | .sraw g ..
  | .divw g .. | .remw g .. | .clz g .. | .ctz g .. | .popc g .. | .brev g .. | .sextb g .. | .sexth g .. | .sextw g .. | .zextw g .. | .ld g ..
  | .st g .. | .ldsp g .. | .stsp g .. | .ldAcq g .. | .stRel g .. | .amAddW g .. | .amSwapW g .. | .amCasW g .. | .amAndW g .. | .amOrW g ..
  | .amXorW g .. | .amMaxW g .. | .amMinW g .. | .amAddD g .. | .amSwapD g .. | .amCasD g .. | .amAndD g .. | .amOrD g .. | .amXorD g ..
  | .amMaxD g .. | .amMinD g .. | .scLd g .. | .scSt g .. | .fenceAcq g .. | .fenceRel g .. | .fenceAr g .. | .ecRd g .. | .ecCfg g .. | .ecOn g ..
  | .ecOff g .. | .sysEnd g .. | .yield g .. | .sysArg g .. | .sysAbort g .. | .trap g .. | .vesper g .. | .vsetq g .. | .vgetq g .. | .vadvq g ..
  | .vcntq g .. | .vloop g .. | .vstg g .. => some g
  | _ => none

/-- A result writes scalar register d. -/
def writesReg (d : Nat) (f : Flight) : Prop := ∃ l v, f.land = .regs l ∧ (d, v) ∈ l

/-- The stage predicates that a mask of n bits puts into p(base) and the predicates after it: p0 and p16 upward are dropped (R177, R178). -/
def stages (base n mask : Nat) : List (Nat × Bool) :=
  ((List.range n).filter fun k => decide (1 ≤ base + k ∧ base + k < 16)).map fun k => (base + k, mask.testBit k)

end Sys2Proof.Claim

open Sys2Proof Machine Claim in
/-- What is due lands in the order of its due cycle, then of its issue (R92), and it is exactly what is in flight with a due
cycle that has come (R91), but for loads to register 0 whose data is still to come (R100).
A register result that is alone in its due cycle is in its register when the cycle has come and in no other, register 0
discards it, and before that the registers are as they were (R63, R91, R107). Of several due results for one register the one with the
latest due cycle, and of those the one issued last, stays (R92); a register that no due result writes keeps its value, and nothing that has
landed stays in flight. -/
def Obligations.ResultsLandAtTheirDueCycle : Prop :=
  (∀ x : Stream, (dueFlights x).Pairwise (fun a b => a.due < b.due ∨ (a.due = b.due ∧ a.seq ≤ b.seq)) ∧
     ∀ f, f ∈ dueFlights x ↔ f ∈ x.flights ∧ f.due ≤ x.cyc ∧ f.req = none) ∧
  ((∀ s : State, dueFlights s.str = [] → landDue s = s) ∧
   (∀ (s : State) (f : Flight) (d : Nat) (v old : Word64), s.resident = true → dueFlights s.str = [f] → f.land = .regs [(d, v)] →
     s.str.regs[d]? = some old → ∀ r, (landDue s).reg r = if r = 0 then 0 else if r = d then v else s.reg r) ∧
   (∀ (s : State) (f : Flight) (d : Nat) (v old : Word64), s.resident = true → d ≠ 0 → s.str.regs[d]? = some old → f ∈ dueFlights s.str →
     f.land = .regs [(d, v)] →
     (∀ g ∈ dueFlights s.str, writesReg d g → g = f ∨ g.due < f.due ∨ (g.due = f.due ∧ g.seq < f.seq)) → (landDue s).reg d = v) ∧
   (∀ (s : State) (d : Nat), s.resident = true → (∀ g ∈ dueFlights s.str, ¬ writesReg d g) → (landDue s).reg d = s.reg d) ∧
   (∀ s : State, s.resident = true → (landDue s).str.flights = s.str.flights.filter fun f => !(decide (f.due ≤ s.str.cyc) && f.req.isNone)))

open Sys2Proof Machine Claim in
/-- A word whose guard reads false writes nothing and is only counted; reading the guard is all that happens (R62): the integer,
predicate, branch and loop words, loads, stores, atomics and fences, semaphores and barriers, `csrr`, `csrw` and the counter words, the
system words (R415), the stream register words and `vstg`.
Reading a guard changes no memory, no register, no flag and no other task: only what this stream has seen of that predicate
and the model's counter of free choices; the guard p0 changes nothing at all (R62, R140). -/
def Obligations.GuardsAreReadAtIssueAndFalseOnesDoNothing : Prop :=
  (∀ (i : Instr) (g : Guard) (s : State), plainGuard i = some g → s.resident = true → (guardRead g s).1 = false →
     exec i s = .next (countCore s.cur.core (5 + s.cur.st.num) 1 (guardRead g s).2)) ∧
  (∀ (g : Guard) (s : State), s.resident = true →
     ((guardRead g s).2 = s ∨ ∃ (view : List (List Bool)) (prop : List Prop') (n : Nat),
       (guardRead g s).2 = { s.modTask (fun t => { t with pview := view, pprop := prop }) with nfree := n }) ∧
     (g.p = 0 → guardRead g s = (if s.str.redo then true else !g.neg, s)))

open Sys2Proof Machine Claim in
/-- `brp`, `brpx`, `br` and `br.l`: a b register one cycle later, a transfer that comes due with the end of the fourth word from
here (three delay slots), and the link register with class alu (R102 to R104).
`loop`, `loopi` and `vloop` set their counter and hidden addresses, and a count of 0 skips the body (R105, R178).
The next fetch address at the end of a word (R103, R106): a due transfer, else the address after a skipped body, else the
start of a loop that repeats, else the next word; the counters change by the loop test only where no transfer or skip is due.
The repeat of a vector loop whose count is now n (R178): the register window turns by one, the stage mask shifts by one with the new
stage on where n has it, and the mask and its predicates land for the next word; nothing else changes. The end of a word does so where
the counter that repeats is a vector loop's, and only there. -/
def Obligations.BranchesLoopsAndTheNextFetch : Prop :=
  (∀ (i : Instr) (g : Guard) (src : List Nat) (f : State → State) (s : State), branchRow s i = some (g, src, f) → Issues g s → Clean src s →
     exec i s = .next (f (guardRead g s).2)) ∧
  (∀ (i : Instr) (g : Guard) (src : List Nat) (k n e : Nat) (vec : Bool) (s : State),
     loopRow s i = some (g, src, k, n, e, vec) → Issues g s → Clean src s →
     (n = 0 → exec i s = .next ((guardRead g s).2.modStr fun x =>
       { x with lc := x.lc.modify k fun l => { l with cnt := 0, act := false, vec := vec }, skip := some ((s.str.pc + 4 * e + 4) % 2 ^ 32) })) ∧
     (n ≠ 0 → exec i s = .next ((guardRead g s).2.modStr fun x =>
       { x with
         lc := x.lc.set k { cnt := BitVec.ofNat 32 n, start := (s.str.pc + 4) % 2 ^ 32, stop := (s.str.pc + 4 * e) % 2 ^ 32, act := true,
                            vec := vec, ord := x.loops + 1 }
         loops := x.loops + 1 }))) ∧
  (∀ s : State, s.resident = true → (∀ e ∈ s.str.brs, 1 ≤ e.1) →
     (∀ e, s.str.brs.find? (fun e => e.1 = 1) = some e → (nextPc s).str.pc = e.2 ∧ (nextPc s).str.lc = s.str.lc) ∧
     (s.str.brs.find? (fun e => e.1 = 1) = none → ∀ a, s.str.skip = some a → (nextPc s).str.pc = a ∧ (nextPc s).str.lc = s.str.lc) ∧
     (s.str.brs.find? (fun e => e.1 = 1) = none → s.str.skip = none →
       (nextPc s).str.pc = ((testLoops s.str.pc s.str.lc).1).getD ((s.str.pc + 4) % 2 ^ 32) ∧ (nextPc s).str.lc = (testLoops s.str.pc s.str.lc).2) ∧
     (nextPc s).str.brs = (s.str.brs.filter fun e => e.1 ≠ 1).map fun e => (e.1 - 1, e.2)) ∧
  ((∀ s : State, s.resident = true → (∀ e ∈ s.str.brs, 1 ≤ e.1) → s.str.brs.find? (fun e => e.1 = 1) = none → s.str.skip = none →
     let r := match repeatVec s.str.pc s.str.lc with | some n => vloopRepeat n s | none => s
     (nextPc s).task.qrot = r.task.qrot ∧ (nextPc s).str.flights = r.str.flights ∧ (nextPc s).task.stg = s.task.stg) ∧
   ∀ (n : Nat) (s : State), s.resident = true →
     let st := min (s.task.stg / 256 % 16) 8
     let mask := (2 * (s.task.stg % 256) + if st ≤ n then 1 else 0) % 2 ^ st
     vloopRepeat n s = inFlight 1 (.mask mask (stages (s.task.stg / 4096 % 16) st mask)) 0 (s.modTask fun t => { t with qrot := (t.qrot + 15) % 16 }))

/-! ### Semaphores, barriers, counters of numbers (R128 to R146, R219) -/

namespace Sys2Proof.Claim

open Machine

/-- A semaphore instruction of this wall cycle that the end of the wall cycle serves (R134). -/
def asking (a : SemAsk) (s : State) : State := s.modTask fun t => { t with semq := t.semq ++ [a] }

/-- A stream sees the predicate writes that a release of semaphore n, or of barrier n − 64, covers (R135, R141). -/
def SeesCovered (k n : Nat) (t : State) : Prop := ∀ e ∈ t.task.pprop, e.reader = k → e.p < 16 → n ∉ e.cov

end Sys2Proof.Claim

open Sys2Proof Machine Claim in
/-- `sem.wait` above the ceiling faults; else it waits, frozen with cause 6, until the end of its wall cycle, where it joins the back
of its queue (R130, R134). A wait that heads its queue takes its count as soon as that suffices: its stream goes on to its next
cycle and sees the predicates that the signals covered (R130, R135, R141).
`sem.sig` adds its count when what it covers is performed, and faults above the ceiling; before, its stream is frozen with
cause 9 (R131). `sem.try` lands with class cmp whether it took 1, which it does at its place in the order of its wall cycle where no one
waits (R132, R134). `sem.rd` lands with class csr the count as the end of its wall cycle finds it (R133). -/
def Obligations.SemaphoresTakeSignalTryAndRead : Prop :=
  ((∀ (g : Guard) (n k : Nat) (m : Sem) (s : State), Issues g s → s.str.redo = false → s.task.sems[n]? = some m →
     (m.ceil < k → exec (.semWait g n k) s = .next
       (takeFault { cls := 0x0C, reason := 0x02, i0 := n, i1 := m.cnt + k * 2 ^ 16 + m.ceil * 2 ^ 32 } .never (guardRead g s).2)) ∧
     (k ≤ m.ceil → exec (.semWait g n k) s = .next
       ((asking (.wait s.cur.st n k) (guardRead g s).2).modStr fun x => { x with frozen := some 6, redo := true }))) ∧
   (∀ (st : StreamId) (n k : Nat) (m : Sem) (s : State), s.resident = true → s.task.sems[n]? = some m → m.waiters = [] →
     (k ≤ m.cnt → ((semIssue (.wait st n k) s).sem n).cnt = m.cnt - k ∧ ((semIssue (.wait st n k) s).sem n).waiters = []) ∧
     (m.cnt < k → ((semIssue (.wait st n k) s).sem n).cnt = m.cnt ∧ ((semIssue (.wait st n k) s).sem n).waiters = [(st.num, k)])) ∧
   (∀ (st : StreamId) (k : Nat) (m : Sem) (l : List (Nat × Nat)) (s : State),
     let r := s.at s.arg.unit .s
     r.resident = true → r.task.sems[s.arg.k]? = some m → m.waiters = (st.num, k) :: l →
     (m.cnt < k → exec .semWaitService s = .next r) ∧
     (k ≤ m.cnt → ∃ t, exec .semWaitService s = .next t ∧ (t.sem s.arg.k).cnt = m.cnt - k ∧ (t.sem s.arg.k).waiters = l.filter (fun w => w.1 ≠ st.num) ∧
       SeesCovered st.num s.arg.k t ∧ SameMemory s t ∧
       ((r.at s.arg.unit st).str.status = .running → (r.at s.arg.unit st).str.redo = true →
         t.cur.st = st ∧ t.str.status = .running ∧ t.str.frozen = none ∧ t.str.cyc = (r.at s.arg.unit st).str.cyc + 1)))) ∧
  ((∀ (g : Guard) (n k p r : Nat) (m : Sem) (s : State), Issues g s → s.task.sems[n]? = some m →
     (covered s.str = true → m.cnt + k ≤ m.ceil → ∃ t, exec (.semSig g n k) s = .next t ∧
       t.task.sems = s.task.sems.modify n (fun m => { m with cnt := m.cnt + k }) ∧ t.str = { s.str with seen := t.str.seen } ∧ SameMemory s t) ∧
     (covered s.str = true → m.ceil < m.cnt + k → exec (.semSig g n k) s = .next
       (takeFault { cls := 0x0C, reason := 0x01, i0 := n, i1 := m.cnt + k * 2 ^ 16 + m.ceil * 2 ^ 32 } .never (guardRead g s).2)) ∧
     (covered s.str = false → ∃ t, exec (.semSig g n k) s = .next t ∧ t.str.frozen = some 9 ∧ t.task.sems = s.task.sems) ∧
     exec (.semTry g n p) s = .next (asking (.try' s.cur.st n p s.str.seq) (pending 0 3 (.pred p false) 0 (guardRead g s).2)) ∧
     exec (.semRd g n r) s = .next (asking (.read s.cur.st n r s.str.seq) (regPending 14 r 0 (guardRead g s).2))) ∧
   (∀ (st : StreamId) (n p r q : Nat) (m : Sem) (s : State), s.resident = true → s.task.sems[n]? = some m →
     (m.waiters = [] → 1 ≤ m.cnt → ((semIssue (.try' st n p q) s).sem n).cnt = m.cnt - 1 ∧
       ∀ f ∈ (semIssue (.try' st n p q) s).str.flights, f.seq = q → f.land = .pred p true) ∧
     ((m.waiters ≠ [] ∨ m.cnt = 0) → semIssue (.try' st n p q) s = s.at s.cur.core st) ∧
     ∀ f ∈ (semSample (.read st n r q) s).str.flights, f.seq = q → f.land = .regs [(r, BitVec.ofNat 64 m.cnt)]))

/-! ### Registers, counters and system instructions (R108 to R110, R163, R202, R218, R225, R314, R416 to R420, R438, R439) -/

namespace Sys2Proof.Claim

open Machine

/-- Control and status registers by number, as the executing stream reads them (R108, R163, R202, R218, R225, R314). -/
def csr (s : State) : List (Nat × Nat) :=
  [(0x000, s.tick % 2 ^ 64), (0x001, s.str.cyc % 2 ^ 64), (0x002, s.cur.core % 4096), (0x003, s.task.gang), (0x004, s.task.rank),
   (0x005, s.task.gsize), (0x006, s.task.ctx * 2 ^ 48 + s.task.grid * 2 ^ 24 + s.task.gang * 2 ^ 9 + s.task.rank), (0x007, s.cur.core / 4096),
   (0x008, s.task.part), (0x010, s.task.cause), (0x011, s.str.fflags), (0x012, s.task.m.fflags), (0x018, (s.str.lc.getD 0 {}).cnt.toNat),
   (0x019, (s.str.lc.getD 1 {}).cnt.toNat), (0x030, s.task.s.frz + s.task.v.frz * 2 ^ 4 + s.task.m.frz * 2 ^ 8 + s.task.c.frz * 2 ^ 12),
   (0x031, s.str.frzw % 2 ^ 64), (0x038, 0x6219B75264341A31), (0x039, s.task.lata),
   (0x03A, ((List.range 16).map fun k =>
     if Config.latCycles (s.task.lata / 16 ^ k % 16) < Config.latCycles (Config.latn / 16 ^ k % 16) then 2 ^ k else 0).sum), (0x100, s.task.stg), (0x101, s.task.qrot),
   (0x102, s.task.tagsel), (0x111, s.task.mmtl), (0x140, s.task.hsel), (0x150, s.task.nmr)] ++
  (List.range 8).map (fun k => (0x020 + k, (s.str.b.getD k 0).toNat)) ++
  (List.range 16).map (fun k => (0x120 + k, (s.tl k).mark % 2 ^ 64)) ++
  (List.range 16).map (fun k => (0x130 + k, (s.tl k).count % 2 ^ 64))

/-- The registers that `csrw` writes, from the low bits of its source; every other number it discards (R9, R110). -/
def csrTo (n v : Nat) (s : State) : State :=
  if n = 0x011 then s.modStr fun x => { x with fflags := v % 2 ^ 5 }
  else if n = 0x012 then s.modTask fun t => { t with m := { t.m with fflags := v % 2 ^ 5 } }
  else if n = 0x018 ∨ n = 0x019 then s.modStr fun x => { x with lc := x.lc.modify (n - 0x018) fun l => { l with cnt := BitVec.ofNat 32 v } }
  else if n = 0x100 then s.modTask fun t => { t with stg := v % 2 ^ 16 }
  else if n = 0x101 then s.modTask fun t => { t with qrot := v % 2 ^ 4 }
  else if n = 0x102 then s.modTask fun t => { t with tagsel := v % 2 ^ 8 }
  else if n = 0x111 then s.modTask fun t => { t with mmtl := v % 2 ^ 5 }
  else if n = 0x140 then s.modTask fun t => { t with hsel := v % 2 ^ 5 }
  else if n = 0x150 then s.modTask fun t => { t with nmr := v % 2 ^ 7 }
  else s

/-- Counter `n` of the executing task is its context's, or the resident task's own (R438). -/
def ownsCounter (s : State) (n : Nat) : Prop :=
  n ≤ 103 ∧ (((s.ec (ecOf s n)).kind = 1 ∧ (s.ec (ecOf s n)).ctx = s.task.ctx) ∨ (n < 8 ∧ (s.ec (ecOf s n)).kind = 2))

/-- A change of a counter that acts with the end of its wall cycle. -/
def counterChange (n p : Nat) (s : State) : State := s.modEc (ecOf s n) fun e => { e with pend := e.pend ++ [p] }

/-- What a fault leaves of its stream and its task: the stream stopped, the first cause of its freeze kept, `cause` set (R101,
R426). -/
def Stopped (how : Resume) (r : Rec) (s t : State) : Prop :=
  let seq := recSeq s (pkgOf s.cur.core) s.task.ctx
  t.str.status = .stopped seq how ∧ t.str.frozen = some (s.str.frozen.getD 0xE) ∧
  t.task.cause = seq * 2 ^ 32 + s.cur.st.num * 2 ^ 16 + r.reason * 2 ^ 8 + r.cls ∧
  t.str.regs = s.str.regs ∧ t.str.flights = s.str.flights ∧ t.str.brs = s.str.brs ∧ t.str.pc = s.str.pc

/-- Bytes 0 to 63 of the record of a fault of the executing stream (R423). -/
def recordBytes (how : Resume) (r : Rec) (s : State) : List Nat :=
  toBytes 4 (recSeq s (pkgOf s.cur.core) s.task.ctx) ++
  [r.cls, r.reason, s.cur.st.num, if how = .retry then 1 else 4] ++ toBytes 8 s.task.id ++ toBytes 8 s.str.cyc ++ toBytes 4 s.str.pc ++
  toBytes 4 s.str.word ++ toBytes 8 r.addr ++ toBytes 8 r.i0 ++ toBytes 8 r.i1 ++ toBytes 8 r.i2

end Sys2Proof.Claim

open Sys2Proof Machine Claim in
/-- `csrr` lands the register's value at its issue with class csr (14), and `csrw` writes the registers that can be written and
is discarded for every other (R9, R108 to R110). The tag value `tagval` (0x103) is a separate clause. -/
def Obligations.ControlRegistersReadAndWrite : Prop :=
  (∀ (g : Guard) (d n v : Nat) (s : State), Issues g s → (n, v) ∈ csr s →
    exec (.csrr g d n) s = .next (regPending 14 d (BitVec.ofNat 64 v) (guardRead g s).2)) ∧
  (∀ (g : Guard) (a n : Nat) (s : State), Issues g s → Clean [a] s → n ≠ 0x103 →
    exec (.csrw g a n) s = .next (csrTo n (s.reg a).toNat (guardRead g s).2)) ∧
  (∀ (g : Guard) (a : Nat) (s : State), Issues g s → Clean [a] s → 2048 * s.task.tagsel < s.task.spadBytes →
    exec (.csrw g a 0x103) s = .next ((guardRead g s).2.modCore s.cur.core fun c =>
      { c with tags := tabSet 0 c.tags s.task.tagsel ((s.reg a).toNat % 2 ^ 16) })) ∧
  (∀ (g : Guard) (d : Nat) (s : State), Issues g s →
    exec (.csrr g d 0x103) s = .next (regPending 14 d
      (if 2048 * s.task.tagsel < s.task.spadBytes then BitVec.ofNat 64 (tabGet 0 s.curCore.tags s.task.tagsel) else 0) (guardRead g s).2))

open Sys2Proof Machine Claim in
/-- The counter instructions on a counter that the task may use: `ec.rd` lands the value of earlier wall cycles, and the others
change the counter with the end of their wall cycle, after its events (R438, R439). On a counter number above 103, and on one
that is not the task's, each is a counter fault with its reason.
At the end of a wall cycle a counter first takes the cycle's events, modulo 2^48 with `ovf` set by a wrap, and then its instructions'
changes, one after another (R437 to R439): `ec.on` and `ec.off` set `en`, and `ec.cfg` sets event and trap and, with bit 9, clears value
and `ovf`. -/
def Obligations.CounterInstructionsAndTheirWallCycle : Prop :=
  (∀ (g : Guard) (d a b : Nat) (s : State), Issues g s → Clean [a, b] s →
     let n := (s.reg a).toNat
     let s' := (guardRead g s).2
     (ownsCounter s n →
       exec (.ecRd g d a) s = .next (regPending 14 d (BitVec.ofNat 64 (s.ec (ecOf s n)).value) s') ∧
       exec (.ecOn g a) s = .next (counterChange n 0 s') ∧
       exec (.ecOff g a) s = .next (counterChange n 1 s') ∧
       ((s.reg b).toNat < 2 ^ 10 → ecAssigned ((s.reg b).toNat % 256) = true → ecInScope n ((s.reg b).toNat % 256) = true →
         exec (.ecCfg g a b) s = .next (counterChange n (2 + (s.reg b).toNat) s'))) ∧
     (103 < n → ∀ i ∈ [Instr.ecRd g d a, .ecOn g a, .ecOff g a, .ecCfg g a b],
       exec i s = .next (takeFault { cls := 0x16, reason := 0x02, i0 := n } .never s')) ∧
     (n ≤ 103 → ¬ ownsCounter s n → ∀ i ∈ [Instr.ecRd g d a, .ecOn g a, .ecOff g a],
       exec i s = .next (takeFault { cls := 0x16, reason := 0x01, i0 := n, i1 := (s.ec (ecOf s n)).event } .never s')) ∧
     (n ≤ 103 → let v := (s.reg b).toNat
       let bad (reason : Nat) : State := takeFault { cls := 0x16, reason := reason, i0 := n, i1 := v % 256 } .never s'
       (¬ ownsCounter s n → exec (.ecCfg g a b) s = .next (bad 0x01)) ∧
       (ownsCounter s n → 2 ^ 10 ≤ v → exec (.ecCfg g a b) s = .next (bad 0x04)) ∧
       (ownsCounter s n → v < 2 ^ 10 → ¬ (ecAssigned (v % 256) = true ∧ ecInScope n (v % 256) = true) → exec (.ecCfg g a b) s = .next (bad 0x03)))) ∧
  (∀ e : Ec,
     let full := decide (2 ^ 48 ≤ e.value + e.acc)
     let c : Ec := { e with value := (e.value + e.acc) % 2 ^ 48, ovf := e.ovf || full, wrapped := e.wrapped || (full && e.trap), acc := 0, pend := [] }
     (e.pend = [] → e.commit = c) ∧
     (e.pend = [0] → e.commit = { c with en := true }) ∧
     (e.pend = [1] → e.commit = { c with en := false }) ∧
     (∀ v, v < 512 → e.pend = [2 + v] → e.commit = { c with event := v % 256, trap := decide (256 ≤ v) }) ∧
     (∀ v, v < 512 → e.pend = [2 + (512 + v)] → e.commit = { c with value := 0, ovf := false, event := v % 256, trap := decide (256 ≤ v) }) ∧
     (∀ p l, e.pend = p :: l → e.commit = ({ ({ e with pend := [p] } : Ec).commit with pend := l, acc := 0 } : Ec).commit))

open Sys2Proof Machine Claim in
/-- Taking a fault: its stream stops where it stands, results and transfers in flight stay pending, `cause` names the record, the
record's 64 bytes are written to the context's ring and to no other place, its number moves on and the partition's interrupt
is raised (R101, R422, R423, R426). -/
def Obligations.TakingAFaultStopsAndWritesTheRecord : Prop :=
  ∀ (r : Rec) (how : Resume) (s : State) (cells : List (Nat × Byte)), s.resident = true → s.poison = [] →
    let pkg := pkgOf s.cur.core
    let ctx := s.task.ctx
    let seq := recSeq s pkg ctx
    virtCells s pkg ctx (fld (ctxEntry s pkg ctx) 55 0 + 64 * (seq % 256)) (recordBytes how r s) = some cells →
    Stopped how r s (takeFault r how s) ∧
    (takeFault r how s).mem = (writeCells s cells).mem ∧
    recSeq (takeFault r how s) pkg ctx = (if (seq + 1) % 2 ^ 32 = 0 then 1 else (seq + 1) % 2 ^ 32) ∧
    ((takeFault r how s).pkg pkg).msix = (s.pkg pkg).msix ||| 2 ^ fld (ctxEntry s pkg ctx) 126 124

open Sys2Proof Machine Claim in
/-- `sys.end` ends its stream, with its pending transfers and active loops discarded and its results left to land (R416); `yield`
outside a request changes nothing and in one stops its task (R417); `sys.arg` beyond the arguments lands 0 with class ld, and
inside them loads the double-word (R418).
`trap` stops its task: `cause` names a record of class 0x20, and every stream that runs is stopped and goes on at its next
word when the host resumes it (R420). `sys.abort` ends its task and fails the packet of its grid with code 0x03 (R419). -/
def Obligations.EndYieldArgumentsTrapAndAbort : Prop :=
  ((∀ (g : Guard) (s : State), Issues g s → ∃ t, exec (.sysEnd g) s = .next t ∧ t.str.status = .ended ∧ t.str.brs = [] ∧ t.str.skip = none ∧
     (∀ l ∈ t.str.lc, l.act = false) ∧ t.str.flights = s.str.flights ∧ t.str.regs = s.str.regs ∧ SameMemory s t) ∧
   (∀ (g : Guard) (s : State), Issues g s → requested s = false → exec (.yield g) s = .next (guardRead g s).2) ∧
   (∀ (g : Guard) (s : State), Issues g s → requested s = true → ∃ t, exec (.yield g) s = .next t ∧ t.task.halt = some (3, 0) ∧
     (.preemptSave, { unit := s.cur.core / 4096, k := s.task.part }) ∈ t.agenda) ∧
   (∀ (g : Guard) (d a : Nat) (s : State), Issues g s → Clean [a] s → s.task.alen < 8 * (s.reg a).toNat + 8 →
     exec (.sysArg g d a) s = .next (regPending 4 d 0 (guardRead g s).2)) ∧
   (∀ (g : Guard) (d a : Nat) (s : State), Issues g s → Clean [a] s → 8 * (s.reg a).toNat + 8 ≤ s.task.alen →
     exec (.sysArg g d a) s = .next (loadAt 4 d ((s.task.args + 8 * (s.reg a).toNat) % 2 ^ 64) 3 false id (guardRead g s).2))) ∧
  ((∀ (g : Guard) (imm : Nat) (s : State), Issues g s → ∃ t, exec (.trap g imm) s = .next t ∧
     let seq := recSeq s (pkgOf s.cur.core) s.task.ctx
     t.task.cause = seq * 2 ^ 32 + s.cur.st.num * 2 ^ 16 + 0x20 ∧
     (∀ k : StreamId, (s.task.str k).status = .running → (t.task.str k).status = .stopped seq .cont ∧
       (t.task.str k).frozen = some ((s.task.str k).frozen.getD 0xE)) ∧
     (∀ k : StreamId, (s.task.str k).status ≠ .running → t.task.str k = s.task.str k) ∧
     ∀ k : StreamId, (t.task.str k).regs = (s.task.str k).regs ∧ (t.task.str k).flights = (s.task.str k).flights) ∧
   (∀ (g : Guard) (a : Nat) (s : State), Issues g s → Clean [a] s → ∃ t, exec (.sysAbort g a) s = .next t ∧
     t.resident = false ∧ (.gangPlacement, { unit := s.cur.core / 4096, k := s.task.part }) ∈ t.agenda ∧
     (t.queue (s.cur.core / 4096) s.task.queue).state = 2 ∧ (t.queue (s.cur.core / 4096) s.task.queue).code = 3))

/-! ### Memory (R93, R122 to R127, R205 to R216, R223 to R227) -/

namespace Sys2Proof.Claim

open Machine

/-- The guard of a word that carries none. -/
def always : Guard := ⟨0, false⟩

/-- The address of a format M access (R122). -/
def addrOf (s : State) (a sz o : Nat) : Nat := (((s.reg a).toNat + signed 6 o * 2 ^ sz) % 2 ^ 64).toNat

/-- A value of n bytes put into a register (R123). -/
def extended (n : Nat) (sx : Bool) (v : Nat) : Word64 := if sx then BitVec.ofInt 64 (signed (8 * n) v) else BitVec.ofNat 64 v

/-- A scalar load: guard, class, destination, registers read, address, bytes, sign extension, acquire. -/
structure Load where
  g : Guard
  cls : Nat
  d : Nat
  src : List Nat
  addr : Nat
  n : Nat
  sx : Bool
  acq : Bool

/-- The loads of R123, R126, R127 and R226, and whether one may issue now: an SC access in an owned hour with everything earlier
performed, or once it has issued. -/
def loadRow (s : State) : Instr → Option (Load × Prop)
  | .ld g d a sz x o => some (⟨g, 4, d, [a], addrOf s a sz o, 2 ^ sz, decide (x = 1), false⟩, True)
  | .ldC d a sz x o => some (⟨always, 4, d, [a], addrOf s a sz o, 2 ^ sz, decide (x = 1), false⟩, True)
  | .ldAcq g d a sz _ => some (⟨g, 4, d, [a], (s.reg a).toNat, 2 ^ sz, false, true⟩, True)
  | .scLd g d a sz x o => some (⟨g, 15, d, [a], addrOf s a (2 + sz) o, 2 ^ (2 + sz), false, true⟩,
      s.task.hours (decide (x = 1)) ≠ [] ∧ (s.str.redo = true ∨ scReady s (decide (x = 1)) = true))
  | _ => none

/-- A scalar store into the store buffer: guard, registers read, address, bytes, the value stored, release. -/
def storeRow (s : State) : Instr → Option (Guard × List Nat × Nat × Nat × Nat × Bool)
  | .st g d a sz o => some (g, [d, a], addrOf s a sz o, 2 ^ sz, (s.reg d).toNat, false)
  | .stC d a sz o => some (always, [d, a], addrOf s a sz o, 2 ^ sz, (s.reg d).toNat, false)
  | .stRel g d a sz _ => some (g, [d, a], (s.reg a).toNat, 2 ^ sz, (s.reg d).toNat, true)
  | _ => none

/-- An atomic update: guard, operation, bytes, destination, base register, order field. -/
def atomicRow : Instr → Option (Guard × Nat × Nat × Nat × Nat × Nat)
  | .amAddW g d a o _ => some (g, 0, 4, d, a, o)
  | .amSwapW g d a o _ => some (g, 1, 4, d, a, o)
  | .amCasW g d a o _ => some (g, 2, 4, d, a, o)
  | .amAndW g d a o _ => some (g, 3, 4, d, a, o)
  | .amOrW g d a o _ => some (g, 4, 4, d, a, o)
  | .amXorW g d a o _ => some (g, 5, 4, d, a, o)
  | .amMaxW g d a o _ => some (g, 6, 4, d, a, o)
  | .amMinW g d a o _ => some (g, 7, 4, d, a, o)
  | .amAddD g d a o _ => some (g, 0, 8, d, a, o)
  | .amSwapD g d a o _ => some (g, 1, 8, d, a, o)
  | .amCasD g d a o _ => some (g, 2, 8, d, a, o)
  | .amAndD g d a o _ => some (g, 3, 8, d, a, o)
  | .amOrD g d a o _ => some (g, 4, 8, d, a, o)
  | .amXorD g d a o _ => some (g, 5, 8, d, a, o)
  | .amMaxD g d a o _ => some (g, 6, 8, d, a, o)
  | .amMinD g d a o _ => some (g, 7, 8, d, a, o)
  | _ => none

/-- What an atomic writes of the old value, its operand and the new value of a cas (R215): none where a cas fails. -/
def atomicValue (op n old v new : Nat) : Option Nat :=
  match op with
  | 0 => some ((old + v) % 256 ^ n)
  | 1 => some v
  | 2 => if old = v then some new else none
  | 3 => some (old &&& v)
  | 4 => some (old ||| v)
  | 5 => some (old ^^^ v)
  | 6 => some (if signed (8 * n) old < signed (8 * n) v then v else old)
  | _ => some (if signed (8 * n) old < signed (8 * n) v then old else v)

/-- A remote request finds a place (R355). -/
def hasPlace (s : State) (pa : Nat) : Prop := isRemote s pa = true → s.curCore.remote < 64

/-- The location of a physical byte of HBM (R234). -/
def placeOf (s : State) (pa : Nat) : Nat := hbmLoc s (pa / 2 ^ 45) (pa % 2 ^ 45)

/-- Every byte of memory but those of these cells reads as before. -/
def SameOutside (cells : List (Nat × Byte)) (s t : State) : Prop :=
  ∀ a, a ∉ cells.map (fun c => placeOf s c.1) → Memory.get t.mem a = Memory.get s.mem a

/-- A result that the executing stream has in flight, due n cycles from now. -/
def landing (n w : Nat) (l : Land) (s : State) : Flight := { due := s.str.cyc + n, iss := s.str.cyc, seq := s.str.seq, land := l, wait := w }

/-- Results in flight once access number k is answered. -/
def answered (k : Nat) (l : Land) (fl : List Flight) : List Flight :=
  fl.map fun g => if g.seq = k then { g with req := none, wait := 0, land := l } else g

/-- The machine as the executing agent of an event sees it: the stream that the event names. -/
def asNamed (s : State) : State := s.at s.arg.unit s.arg.st

/-- A value that access number q of the executing stream may read at a physical byte (R208, R211): its own earlier store's, else the
byte that memory holds or one that an open write has replaced. -/
def MayRead (s : State) (q a b : Nat) : Prop :=
  match forwarded s.str q a with
  | some v => b = v.toNat
  | none => b = (readByte s a).toNat ∨ ∃ e ∈ s.olds, ∃ c ∈ e.cells, c.1 = a ∧ b = c.2.toNat

/-- The memory channel of a byte serves an access now, whatever the throttle withholds (R295). -/
def Served (s : State) (a : Nat) : Prop := ∀ n, chanBusy { s with nfree := n } a = false

/-- Every byte of these is reached, is no register's, and is served. -/
def Plain (s : State) (l : List Nat) : Prop := allReached s l = true ∧ ∀ a ∈ l, isWindow a = false ∧ Served s a

/-- The fault of an access to memory that its page refuses to a store or an atomic (R124): class by page. -/
def refusedBy (p : Page) : Option Nat :=
  if pteCf p.pte then some 0x0A else if !pteW p.pte then some 0x09 else if pteCmp p.pte then some 0x03 else none

end Sys2Proof.Claim

open Sys2Proof Machine Claim in
/-- A store whose page may be written enters the store buffer with its bytes, by itself or merged into an earlier store (R214), and memory and registers stay as they are until it
leaves (R122, R123, R126, R127, R212); a full buffer freezes it before its issue with cause 4; a misaligned store and a page
that refuses it take their fault (R124). -/
def Obligations.StoresEnterTheStoreBuffer : Prop :=
  ∀ (i : Instr) (g : Guard) (src : List Nat) (addr n v : Nat) (rel : Bool) (p : Page) (s : State),
    storeRow s i = some (g, src, addr, n, v, rel) → Issues g s → Clean src s →
    (16 ≤ s.str.sbuf.length → ∃ t, exec i s = .next t ∧ t.str.frozen = some 4 ∧ t.str.redo = s.str.redo ∧ t.str.sbuf = s.str.sbuf ∧ SameMemory s t) ∧
    (s.str.sbuf.length < 16 → addr % n ≠ 0 → ∃ t, exec i s = .next t ∧ Stopped .never { cls := 0x02, addr := addr } s t) ∧
    (s.str.sbuf.length < 16 → addr % n = 0 → xlate addr (guardRead g s).2 = .page p → ∀ c, refusedBy p = some c →
      ∃ t, exec i s = .next t ∧ Stopped .never { cls := c, addr := addr } s t) ∧
    (s.str.sbuf.length < 16 → addr % n = 0 → xlate addr (guardRead g s).2 = .page p → refusedBy p = none → hasPlace s p.pa →
      let bytes := (List.range n).map fun i => (p.pa + i, BitVec.ofNat 8 (v / 256 ^ i))
      ∃ t e, exec i s = .next t ∧ e.seq = s.str.seq ∧ e.fen = s.str.fen ∧
        ((t.str.sbuf = s.str.sbuf ++ [e] ∧ e.cells = bytes ∧ e.rel = rel ∧ (.storeBufferDrain, { unit := s.cur.core, st := s.cur.st }) ∈ t.agenda) ∨
         (∃ d ∈ s.str.sbuf, t.str.sbuf = s.str.sbuf.erase d ++ [e] ∧ e.cells = (d.cells.filter fun c => c.1 ∉ bytes.map Prod.fst) ++ bytes ∧
           e.rel = (d.rel || rel) ∧ d.so = false ∧ d.fen = s.str.fen)) ∧
        t.str.regs = s.str.regs ∧ t.str.flights = s.str.flights ∧ SameMemory s t)

open Sys2Proof Machine Claim in
/-- Of the stores of a buffer that nothing earlier holds back one leaves: it writes its bytes, and no other byte of memory changes (R123,
R208, R212); where all are held back, they stay.
Bytes written to distinct places of HBM read back, and every other place reads as before (R208, R233, R234).
A package's HBM addresses have places of their own (R234): no two of the 2^40 local addresses share one, for every linear part
of 0 to 64 GiB, and packages do not meet. -/
def Obligations.MemoryHoldsWhatStoresDrain : Prop :=
  (∀ s : State, (asNamed s).resident = true → (∀ e ∈ (asNamed s).str.sbuf, storeHeld (asNamed s) e = false ∧ Plain (asNamed s) (e.cells.map Prod.fst)) →
     ((∃ e ∈ (asNamed s).str.sbuf, mayDrain (asNamed s).str e = true) → s.poison = [] →
       ∃ t, ∃ e ∈ (asNamed s).str.sbuf, exec .storeBufferDrain s = .next t ∧ mayDrain (asNamed s).str e = true ∧
         t.str.sbuf = (asNamed s).str.sbuf.filter (fun d => d.seq ≠ e.seq) ∧
         t.mem = (writeCells s e.cells).mem ∧ SameOutside e.cells s t ∧ t.str.regs = (asNamed s).str.regs) ∧
     ((asNamed s).str.sbuf ≠ [] → (∀ e ∈ (asNamed s).str.sbuf, mayDrain (asNamed s).str e = false) →
       ∃ t, exec .storeBufferDrain s = .next t ∧ t.str = (asNamed s).str ∧ SameMemory s t ∧
         (.storeBufferDrain, { unit := s.arg.unit, st := s.arg.st }) ∈ t.agenda)) ∧
  (∀ (s : State) (cells : List (Nat × Byte)), (cells.map fun c => placeOf s c.1).Nodup → (∀ c ∈ cells, regionOf (c.1 % 2 ^ 45) = .hbm) →
     (∀ c ∈ cells, readByte (writeCells s cells) c.1 = c.2) ∧
     (∀ pa, regionOf (pa % 2 ^ 45) = .hbm → placeOf s pa ∉ cells.map (fun c => placeOf s c.1) → readByte (writeCells s cells) pa = readByte s pa)) ∧
  (∀ (s : State) (p q a b : Nat), (∀ pkg k, linGiB s pkg k ≤ 64) → a < 2 ^ 40 → b < 2 ^ 40 → hbmLoc s p a = hbmLoc s q b → p = q ∧ a = b)

open Sys2Proof Machine Claim in
/-- A load whose page is translated and may be read goes into flight for its bytes, due after the latency of its class, or lands at
once from the L1; it writes no memory and no register at its issue (R91, R100, R122, R123, R126, R127, R226). A constant-fill
page lands its pattern. A misaligned load takes the alignment fault.
The data of a load come when nothing earlier holds it back: it lands bytes that its stream may read, its own earlier stores' among
them, and memory stays as it is (R93, R100, R123, R208). -/
def Obligations.LoadsAskForAndSampleTheirBytes : Prop :=
  (∀ (i : Instr) (l : Load) (pre : Prop) (p : Page) (s : State), loadRow s i = some (l, pre) → pre → Issues l.g s → Clean l.src s →
     (l.addr % l.n ≠ 0 → ∃ t, exec i s = .next t ∧ Stopped .never { cls := 0x02, addr := l.addr } s t) ∧
     (l.addr % l.n = 0 → xlate l.addr (guardRead l.g s).2 = .page p → pteCmp p.pte = false → pteCf p.pte = true → ∃ t w, exec i s = .next t ∧
       t.str.flights = s.str.flights ++ [landing (s.task.lat l.cls) w
         (.regs [(l.d, extended l.n l.sx (ofBytes (patternBytes s p.pte l.addr l.n)))]) s] ∧ SameMemory s t) ∧
     (l.addr % l.n = 0 → xlate l.addr (guardRead l.g s).2 = .page p → pteCmp p.pte = false → pteCf p.pte = false → hasPlace s p.pa →
       ∃ t f, exec i s = .next t ∧ t.str.flights = s.str.flights ++ [f] ∧ f.due = s.str.cyc + s.task.lat l.cls ∧ f.iss = s.str.cyc ∧
         f.seq = s.str.seq ∧
         ((∃ r, f.req = some r ∧ r.addrs = (List.range l.n).map (p.pa + ·) ∧ r.how = .reg l.d l.n l.sx ∧
             r.acq = l.acq ∧ (.loadDataArrival, { unit := s.cur.core, st := s.cur.st, k := s.str.seq }) ∈ t.agenda) ∨
          (f.req = none ∧ ∃ bytes, List.Forall₂ (MayRead s s.str.seq) ((List.range l.n).map (p.pa + ·)) bytes ∧
             f.land = .regs [(l.d, extended l.n l.sx (ofBytes bytes % 256 ^ l.n))])) ∧
         t.str.regs = s.str.regs ∧ SameMemory s t)) ∧
  (∀ (s : State) (f : Flight) (r : LoadReq) (d n : Nat) (sx : Bool), (asNamed s).resident = true → s.arg.st ≠ .m →
     (asNamed s).str.flights.find? (fun f => f.seq = s.arg.k) = some f → f.req = some r → r.how = .reg d n sx → r.addrs ≠ [] →
     Plain (asNamed s) r.addrs → s.poison = [] →
     (maySample (asNamed s).str f r = true → (r.hard = true → scTurn (asNamed s) = true) →
       ∃ t bytes, exec .loadDataArrival s = .next t ∧ List.Forall₂ (MayRead (asNamed s) s.arg.k) r.addrs bytes ∧
       t.str.flights = answered s.arg.k (.regs [(d, extended n sx (ofBytes bytes % 256 ^ n))]) (asNamed s).str.flights ∧
       t.str.regs = (asNamed s).str.regs ∧ SameMemory s t) ∧
     (maySample (asNamed s).str f r = false → ∃ t, exec .loadDataArrival s = .next t ∧ t.str = (asNamed s).str ∧ SameMemory s t ∧
       (.loadDataArrival, { unit := s.arg.unit, st := s.arg.st, k := s.arg.k }) ∈ t.agenda))

open Sys2Proof Machine Claim in
/-- An atomic whose page may be written goes into flight with its operands, read at issue (R215, R216). When its turn comes it
reads the old value and writes the new one in one step, and no other byte of memory changes.
`ldsp` reads the scratchpad at its issue and lands with class lds (5); `stsp` writes in the cycle after its issue (R125). Below
the task's scratchpad bytes and aligned they complete; above them they take the bounds fault, misaligned the alignment fault. -/
def Obligations.AtomicsAndScratchpadAccesses : Prop :=
  ((∀ (i : Instr) (g : Guard) (op n d a o : Nat) (p : Page) (s : State), atomicRow i = some (g, op, n, d, a, o) → Issues g s →
     Clean (if op = 2 then [d, d + 1, a] else [d, a]) s → (s.reg a).toNat % n = 0 → xlate (s.reg a).toNat (guardRead g s).2 = .page p →
     refusedBy p = none → hasPlace s p.pa → ∃ t f r, exec i s = .next t ∧ t.str.flights = s.str.flights ++ [f] ∧ f.seq = s.str.seq ∧
       f.due = s.str.cyc + s.task.lat 15 ∧ f.req = some r ∧ r.addrs = (List.range n).map (p.pa + ·) ∧
       r.how = .atomic op d n ((s.reg d).toNat % 256 ^ n) ((s.reg (d + 1)).toNat % 256 ^ n) ∧ r.acq = decide (o = 1 ∨ o = 3) ∧
       r.rel = decide (o = 2 ∨ o = 3) ∧ t.str.regs = s.str.regs ∧ SameMemory s t) ∧
   (∀ (s : State) (f : Flight) (r : LoadReq) (op d n v new pa : Nat), (asNamed s).resident = true → s.arg.st ≠ .m →
     (asNamed s).str.flights.find? (fun f => f.seq = s.arg.k) = some f → f.req = some r → r.how = .atomic op d n v new →
     r.addrs = (List.range n).map (pa + ·) → 0 < n → r.hard = false → Plain (asNamed s) r.addrs → s.poison = [] →
     maySample (asNamed s).str f r = true →
     let old := ofBytes ((List.range n).map fun i => (readByte s (pa + i)).toNat)
     ∃ t, exec .loadDataArrival s = .next t ∧
       t.str.flights = answered s.arg.k (.regs [(d, BitVec.ofNat 64 (old % 256 ^ n))]) (asNamed s).str.flights ∧
       (∀ w, atomicValue op n old v new = some w → t.mem = (writeCells s ((List.range n).map fun i => (pa + i, BitVec.ofNat 8 (w / 256 ^ i)))).mem) ∧
       (atomicValue op n old v new = none → SameMemory s t) ∧
       SameOutside ((List.range n).map fun i => (pa + i, 0)) s t)) ∧
  ((∀ (g : Guard) (d a sz x o : Nat) (s : State), Issues g s → s.poison = [] →
     let va := addrOf s a sz o
     (va % 2 ^ sz = 0 → va + 2 ^ sz ≤ s.task.spadBytes → exec (.ldsp g d a sz x o) s = .next (regPending 5 d
       (extended (2 ^ sz) (decide (x = 1)) (ofBytes ((List.range (2 ^ sz)).map fun i => (s.curCore.spadGet (va + i)).toNat))) (guardRead g s).2)) ∧
     (va % 2 ^ sz ≠ 0 → exec (.ldsp g d a sz x o) s = .next (fault 0x02 0 va (guardRead g s).2)) ∧
     (va % 2 ^ sz = 0 → s.task.spadBytes < va + 2 ^ sz → exec (.ldsp g d a sz x o) s = .next (fault 0x07 0 va (guardRead g s).2))) ∧
   (∀ (g : Guard) (d a sz o : Nat) (s : State), Issues g s → Clean [d, a] s →
     let va := addrOf s a sz o
     (va % 2 ^ sz = 0 → va + 2 ^ sz ≤ s.task.spadBytes → exec (.stsp g d a sz o) s = .next (inFlight 1
       (.spad ((List.range (2 ^ sz)).map fun i => (va + i, BitVec.ofNat 8 ((s.reg d).toNat / 256 ^ i)))) 0 (guardRead g s).2)) ∧
     (va % 2 ^ sz ≠ 0 → exec (.stsp g d a sz o) s = .next (fault 0x02 0 va (guardRead g s).2)) ∧
     (va % 2 ^ sz = 0 → s.task.spadBytes < va + 2 ^ sz → exec (.stsp g d a sz o) s = .next (fault 0x07 0 va (guardRead g s).2))))

open Sys2Proof Machine Claim in
/-- Fences (R213): at stream scope they only take their issue cycle. Where what they order is performed, `fence.acq` and `fence.ar` go on
and change only what their stream sees; else they hold it in its cycle with cause 9. `fence.rel`, and `fence.ar` with it, mark the
accesses that every later store waits for, with the scope of the fence; one at least as wide stands for an earlier one.
`sc.st` in an owned hour with everything earlier performed, and with no SC access of its wheel before it in order, writes plain memory
at its issue and no other byte (R226, R227); without
hours both SC accesses take the ordering fault (class 0x0F, reason 1); outside its hours an access that has not issued is frozen
before its issue, with cause 8. -/
def Obligations.FencesAndSequentiallyConsistentAccesses : Prop :=
  (∀ (g : Guard) (sc : Nat) (s : State), Issues g s →
     let wide := if 8 ≤ sc then 0 else sc
     let marked (x : Stream) : Stream := { x with fen := (x.seq, wide) :: x.fen.filter fun e => wide < e.2 }
     (sc = 0 → ∀ i ∈ [Instr.fenceAcq g sc, .fenceAr g sc, .fenceRel g sc], exec i s = .next (guardRead g s).2) ∧
     (sc ≠ 0 → loadsDone s.str = true → ∃ t, exec (.fenceAcq g sc) s = .next t ∧ t.str = { s.str with seen := t.str.seen } ∧ SameMemory s t ∧
       t.agenda = s.agenda) ∧
     (sc ≠ 0 → loadsDone s.str = true → s.str.sbuf = [] → ∃ t, exec (.fenceAr g sc) s = .next t ∧
       t.str = marked { s.str with seen := t.str.seen } ∧ SameMemory s t ∧ t.agenda = s.agenda) ∧
     (sc ≠ 0 → loadsDone s.str = false → ∀ i ∈ [Instr.fenceAcq g sc, .fenceAr g sc],
       exec i s = .next ((guardRead g s).2.modStr fun x => { x with frozen := some 9, redo := true })) ∧
     (sc ≠ 0 → s.str.sbuf ≠ [] → exec (.fenceAr g sc) s = .next ((guardRead g s).2.modStr fun x => { x with frozen := some 9, redo := true })) ∧
     (sc ≠ 0 → exec (.fenceRel g sc) s = .next ((guardRead g s).2.modStr marked))) ∧
  (∀ (g : Guard) (d a sz x o : Nat) (p : Page) (s : State), Issues g s → Clean [d, a] s → s.poison = [] →
     let dom := decide (x = 1)
     let va := addrOf s a (2 + sz) o
     (s.task.hours dom ≠ [] → s.str.redo = false → scReady s dom = true → va % 2 ^ (2 + sz) = 0 → xlate va (guardRead g s).2 = .page p →
       refusedBy p = none → hasPlace s p.pa → plainAt s p.pa = true → Served s p.pa → scTurn (scIssue dom (guardRead g s).2) = true → ∃ t, exec (.scSt g d a sz x o) s = .next t ∧
         t.mem = (writeCells s ((List.range (2 ^ (2 + sz))).map fun i => (p.pa + i, BitVec.ofNat 8 ((s.reg d).toNat / 256 ^ i)))).mem ∧
         SameOutside ((List.range (2 ^ (2 + sz))).map fun i => (p.pa + i, 0)) s t ∧ t.str.regs = s.str.regs ∧ t.str.flights = s.str.flights) ∧
     (s.task.hours dom = [] → s.str.redo = false → ∀ i ∈ [Instr.scLd g d a sz x o, .scSt g d a sz x o], exec i s = .next (fault 0x0F 0x01 0 (guardRead g s).2)) ∧
     (s.task.hours dom ≠ [] → s.str.redo = false → (s.task.hours dom).contains (hourOf dom s.tick) = false →
       ∀ i ∈ [Instr.scLd g d a sz x o, .scSt g d a sz x o], ∃ t, exec i s = .next t ∧ t.str.frozen = some 8 ∧ t.str.redo = false ∧
         (.scAccessIssue, { unit := s.cur.core }) ∈ t.agenda ∧ SameMemory s t))

/-! ### Vector instructions (R153 to R178) -/

namespace Sys2Proof.Claim

open Machine

/-- What a vector instruction does beat by beat: guard, stream registers (destination first), latency class, whether it counts
bytes, its work count, what its operands must be (R160), the bytes and flags that a beat over items lo to hi − 1 lands, what it
gathers, and what lands after its last beat. -/
structure VRow where
  g : Guard
  regs : List Nat
  cls : Nat
  bytes : Bool := false
  n : List Qd → Nat
  ask : VAsk
  out : Core → List Qd → Nat → Nat → List (List Nat) → List (Nat × Byte) × Nat := fun _ _ _ _ _ => ([], 0)
  keep : Core → List Qd → Nat → Nat → List (List Nat) → List (List Nat) := fun _ _ _ _ _ => []
  fin : List Qd → List (List Nat) → Option (Land × Nat) := fun _ _ => none

/-- The k-th operand. -/
def opnd (ops : List Qd) (k : Nat) : Qd := ops.getD k (ops.headD (qFields 0))

/-- Codes and flags put into consecutive elements of a destination from lo. -/
def putFrom (q : Qd) (lo : Nat) (r : List (Nat × Nat)) : List (Nat × Byte) × Nat := (q.put lo (r.map Prod.fst), foldFlags r)

/-- A whole number in two's complement of the destination's width, wrapped or clamped (R167). -/
def intRes (f : EFmt) (sat : Bool) (x : Int) : Nat × Nat :=
  let w := f.bits
  ((BitVec.ofInt w (if sat then max f.lo (min f.hi x) else x)).toNat, 0)

/-- An element-wise instruction (R164): the code and flags of an element from the formats and the source codes. -/
def ew (g : Guard) (regs : List Nat) (cls : Nat) (ok : List EFmt → Bool) (op : List EFmt → List Nat → Nat × Nat) : VRow :=
  { g := g, regs := regs, cls := cls, n := fun ops => (opnd ops 0).count
    ask := { ok := ok, rel := fun ops => if ops.tail.any fun q => q.count < (opnd ops 0).count then some 0x04 else none }
    out := fun c ops lo hi _ => putFrom (opnd ops 0) lo ((List.range (hi - lo)).map fun i => op (ops.map Qd.ef) (ops.tail.map fun q => q.get c (lo + i))) }

/-- A float operation: the exact result of the sources' values, rounded once to the destination (R26, R165). -/
def fl2 (f : FVal → FVal → FVal) (fs : List EFmt) (xs : List Nat) : Nat × Nat := pack (dstF fs) false (f (srcV fs xs 0) (srcV fs xs 1))

/-- Float formats only. -/
def floats (fs : List EFmt) : Bool := fs.all EFmt.isFloat
/-- Integer formats of at least 8 bits only (R32, R167). -/
def ints (fs : List EFmt) : Bool := fs.all fun f => f.isInt && f != .int4
/-- A float source to FP32 (R168). -/
def toF32 (fs : List EFmt) : Bool := match fs with | [d, a] => d = .fp32 && a.isFloat | _ => false

/-- A bitwise integer form (R167). -/
def bits2 (f : Nat → Nat → Nat) (fs : List EFmt) (xs : List Nat) : Nat × Nat :=
  let w := (fs.headD .int32).bits
  intRes (fs.headD .int32) false (f (BitVec.ofInt w (srcI fs xs 0)).toNat (BitVec.ofInt w (srcI fs xs 1)).toNat : Nat)

/-- An integer form (R167): shifts take their amount modulo the destination's width w. -/
def int2 (f : Nat → Int → Int → Int) (sat : Bool) (fs : List EFmt) (xs : List Nat) : Nat × Nat :=
  intRes (fs.headD .int32) sat (f (fs.headD .int32).bits (srcI fs xs 0) (srcI fs xs 1))

/-- A comparison (R169): k is 0 eq, 1 ne, 2 lt, 3 le, 4 un; NV for a signalling NaN, and for any NaN in lt and le. -/
def compare (k : Nat) (fs : List EFmt) (xs : List Nat) : Nat × Nat :=
  let a := srcV fs xs 0
  let b := srcV fs xs 1
  let n := a.isNan || b.isNan
  let x := srcI fs xs 0
  let y := srcI fs xs 1
  let int := (fs.getD 1 .fp32).isInt
  let r : Bool := match k with
    | 0 => if int then x = y else eqV a b
    | 1 => if int then x ≠ y else !eqV a b
    | 2 => if int then x < y else ltV a b
    | 3 => if int then x ≤ y else !n && !ltV b a
    | _ => !int && n
  (if r then 1 else 0, if !int && (a.isSnan || b.isSnan || ((k = 2 ∨ k = 3) && n)) then flNV else 0)

/-- The element-wise instructions (R165 to R169). -/
def ewRow : Instr → Option VRow
  | .vadd g d a b => some (ew g [d, a, b] 6 floats (fl2 addV))
  | .vsub g d a b => some (ew g [d, a, b] 6 floats (fl2 fun x y => addV x (negV y)))
  | .vmul g d a b => some (ew g [d, a, b] 6 floats (fl2 mulV))
  | .vdiv g d a b => some (ew g [d, a, b] 6 floats fun fs xs => divF (dstF fs) false (srcV fs xs 0) (srcV fs xs 1))
  | .vmin g d a b => some (ew g [d, a, b] 6 floats (minmaxOp false false))
  | .vmax g d a b => some (ew g [d, a, b] 6 floats (minmaxOp true false))
  | .vminp g d a b => some (ew g [d, a, b] 6 floats (minmaxOp false true))
  | .vmaxp g d a b => some (ew g [d, a, b] 6 floats (minmaxOp true true))
  | .viadd g d a b sat => some (ew g [d, a, b] 8 ints (int2 (fun _ x y => x + y) (decide (sat = 1))))
  | .visub g d a b sat => some (ew g [d, a, b] 8 ints (int2 (fun _ x y => x - y) (decide (sat = 1))))
  | .vimul g d a b sat => some (ew g [d, a, b] 8 ints (int2 (fun _ x y => x * y) (decide (sat = 1))))
  | .viand g d a b => some (ew g [d, a, b] 8 ints (bits2 (· &&& ·)))
  | .vior g d a b => some (ew g [d, a, b] 8 ints (bits2 (· ||| ·)))
  | .vixor g d a b => some (ew g [d, a, b] 8 ints (bits2 (· ^^^ ·)))
  | .vishl g d a b => some (ew g [d, a, b] 8 ints (int2 (fun w x y => x * 2 ^ (y % w).toNat) false))
  | .vishr g d a b => some (ew g [d, a, b] 8 ints (int2 (fun w x y => ((BitVec.ofInt w x).toNat / 2 ^ (y % w).toNat : Nat)) false))
  | .visra g d a b => some (ew g [d, a, b] 8 ints (int2 (fun w x y => x / 2 ^ (y % w).toNat) false))
  | .vimin g d a b => some (ew g [d, a, b] 8 ints (int2 (fun _ x y => min x y) false))
  | .vimax g d a b => some (ew g [d, a, b] 8 ints (int2 (fun _ x y => max x y) false))
  | .vfma g d a b c => some (ew g [d, a, b, c] 6 floats fun fs xs => pack (dstF fs) false (fmaV (srcV fs xs 0) (srcV fs xs 1) (srcV fs xs 2)))
  | .vfms g d a b c => some (ew g [d, a, b, c] 6 floats fun fs xs => pack (dstF fs) false (fmaV (srcV fs xs 0) (srcV fs xs 1) (negV (srcV fs xs 2))))
  | .vsel g d a b c => some (ew g [d, a, b, c] 6
      (fun fs => match fs with | [x, y, z, c] => x = y && x = z && !x.isLg && x != .int4 && ints [c] | _ => false)
      fun _ xs => (if xs.getD 2 0 = 0 then xs.getD 1 0 else xs.getD 0 0, 0))
  | .vmov g d a => some (ew g [d, a] 6 (fun fs => match fs with | [x, y] => x.bits = y.bits && x != .int4 | _ => false) fun _ xs => (xs.headD 0, 0))
  | .vneg g d a => some (ew g [d, a] 6 (fun fs => match fs with | [x, y] => x = y && x != .int4 | _ => false) (signOp false))
  | .vabs g d a => some (ew g [d, a] 6 (fun fs => match fs with | [x, y] => x = y && x != .int4 | _ => false) (signOp true))
  | .vexp2 g d a => some (ew g [d, a] 7 toF32 (sfOp exp2_32))
  | .vlog2 g d a => some (ew g [d, a] 7 toF32 (sfOp log2_32))
  | .vrcp g d a => some (ew g [d, a] 7 toF32 (sfOp rcp32))
  | .vrsqrt g d a => some (ew g [d, a] 7 toF32 (sfOp rsqrt32))
  | .vsqrt g d a => some (ew g [d, a] 7 toF32 (sfOp sqrt32))
  | .vcvt g d a rz => some (ew g [d, a] 6 (fun fs => match fs with | [x, y] => cvtAllowed y x | _ => false)
      fun fs xs => cvt (fs.getD 1 .fp32) (fs.headD .fp32) (decide (rz = 1)) (xs.headD 0))
  | .vcmpEq g d a b => some (ew g [d, a, b] 6 cmpFmts (compare 0))
  | .vcmpNe g d a b => some (ew g [d, a, b] 6 cmpFmts (compare 1))
  | .vcmpLt g d a b => some (ew g [d, a, b] 6 cmpFmts (compare 2))
  | .vcmpLe g d a b => some (ew g [d, a, b] 6 cmpFmts (compare 3))
  | .vcmpUn g d a b => some (ew g [d, a, b] 6 cmpFmts (compare 4))
  | _ => none

/-- Elements gathered beat by beat. -/
def gathers (k : Nat) (c : Core) (ops : List Qd) (lo hi : Nat) (data : List (List Nat)) : List (List Nat) :=
  [data.flatten ++ (List.range (hi - lo)).map fun i => (opnd ops k).get c (lo + i)]

/-- A reduction of the source in as many segments as the destination has elements (R172). -/
def reduction (g : Guard) (d a : Nat) (ok : List EFmt → Bool) (red : EFmt → EFmt → List Nat → Nat × Nat) : VRow :=
  { g := g, regs := [d, a], cls := 9, n := fun ops => (opnd ops 1).count
    ask :=
      { ok := ok
        rel := fun ops => if ((opnd ops 0).count = 0 ∧ (opnd ops 1).count ≠ 0) ∨ ((opnd ops 0).count ≠ 0 ∧ (opnd ops 1).count % (opnd ops 0).count ≠ 0)
          then some 0x05 else none }
    keep := gathers 1
    fin := fun ops data =>
      let m := (opnd ops 0).count
      let len := (opnd ops 1).count / m
      let r := (List.range m).map fun k => red (opnd ops 0).ef (opnd ops 1).ef (((data.headD []).drop (k * len)).take len)
      if m = 0 then none else some (.spad ((opnd ops 0).put 0 (r.map Prod.fst)), foldFlags r) }

/-- A float reduction over the fixed tree (R45, R172). -/
def tree (op : Nat → Nat → Nat × Nat) (pad empty : Nat) (_ src : EFmt) (v : List Nat) : Nat × Nat := treeReduce op (v.map (widen32 src)) pad empty

/-- A vote (R173). -/
def vote (g : Guard) (p a : Nat) (f : List Nat → Bool) : VRow :=
  { g := g, regs := [a], cls := 9, n := fun ops => (opnd ops 0).count, ask := { ok := ints }, keep := gathers 0
    fin := fun _ data => some (.pred p (f data.flatten), 0) }

/-- Quantisation under a block scale (R170): the scale is encoded, the elements quantised under the encoded scale, and the scale word
written in the beat of its block's last element. -/
def quantised (g : Guard) (d a b : Nat) (ok : List EFmt → Bool) (q : FVal → FVal → Nat × Nat) : VRow :=
  { g := g, regs := [d, a, b], cls := 7, n := fun ops => (opnd ops 0).count
    ask :=
      { ok := ok, geo := [true]
        rel := fun ops => if (opnd ops 1).count < (opnd ops 0).count ∨ (opnd ops 2).count < (opnd ops 0).blocks then some 0x04 else none }
    out := fun c ops lo hi _ =>
      let k := lo / (opnd ops 0).blockElems
      let sc := bsc20Enc ((opnd ops 2).ef.val ((opnd ops 2).get c k))
      let r := (List.range (hi - lo)).map fun i => q ((opnd ops 1).ef.val ((opnd ops 1).get c (lo + i))) (bsc20Dec sc.1)
      if lo < hi then
        ((opnd ops 0).put lo (r.map Prod.fst) ++ (if hi % (opnd ops 0).blockElems = 0 then cellsOf ((opnd ops 0).scaleAddr k).toNat 4 sc.1 else []),
         orFlags sc.2 (foldFlags r))
      else ((opnd ops 0).put lo [], 0) }

/-- The other vector instructions (R170 to R175). -/
def vRow (i : Instr) : Option VRow :=
  match i with
  | .vqlg6 g d a b => some (quantised g d a b (fun fs => match fs with | [x, y, z] => x.isLg && y.isFloat && z.isFloat | _ => false) lg6Quant)
  | .vqint8 g d a b => some (quantised g d a b (fun fs => match fs with | [x, y, z] => x = .int8 && y.isFloat && z.isFloat | _ => false) (intQuant .int8))
  | .vdq g d a => some
      { g := g, regs := [d, a], cls := 7, n := fun ops => (opnd ops 0).count
        ask :=
          { ok := fun fs => match fs with | [x, y] => x.isFloat && (y.isLg || y = .int8) | _ => false
            geo := [false, true], rel := fun ops => if (opnd ops 1).count < (opnd ops 0).count then some 0x04 else none }
        out := fun c ops lo hi data =>
          let sc := if lo % (opnd ops 1).blockElems = 0 then (opnd ops 1).scale c (lo / (opnd ops 1).blockElems) else (data.headD []).headD 0
          putFrom (opnd ops 0) lo ((List.range (hi - lo)).map fun i =>
            dequant (opnd ops 1).ef ((opnd ops 0).ef.flt.getD fp32) ((opnd ops 1).get c (lo + i)) (bsc20Dec sc))
        keep := fun c ops lo _ data =>
          [[if lo % (opnd ops 1).blockElems = 0 then (opnd ops 1).scale c (lo / (opnd ops 1).blockElems) else (data.headD []).headD 0]] }
  | .vscl g d a b => some
      { g := g, regs := [d, a, b], cls := 7, n := fun ops => (opnd ops 1).count
        ask :=
          { ok := fun fs => match fs with | [x, y, z] => x = .fp32 && y.isFloat && z.isFloat | _ => false
            geo := [false, true]
            rel := fun ops => if (opnd ops 0).count < (opnd ops 1).blocks then some 0x05 else if (opnd ops 2).count < (opnd ops 1).blocks then some 0x04 else none }
        keep := fun c ops lo hi data =>
          [(data.headD []) ++ (List.range (hi - lo)).map (fun i => (opnd ops 1).get c (lo + i)),
           data.getD 1 [] ++ (if lo % (opnd ops 1).blockElems = 0 ∧ lo < hi then [(opnd ops 2).get c (lo / (opnd ops 1).blockElems)] else [])]
        fin := fun ops data =>
          let m := (opnd ops 1).blockElems
          let r := (List.range (opnd ops 1).blocks).map fun k =>
            let top := treeReduce (minmaxF fp32 true false) ((((data.headD []).drop (k * m)).take m).map (widen32 (opnd ops 1).ef · % 2 ^ 31)) 0xFF800000 0xFF800000
            let p := mul32 top.1 (widen32 (opnd ops 2).ef ((data.getD 1 []).getD k 0))
            (p.1, orFlags top.2 p.2)
          if (opnd ops 1).blocks = 0 then none else some (.spad ((opnd ops 0).put 0 (r.map Prod.fst)), foldFlags r) }
  | .vperm g d a b => some
      { g := g, regs := [d, a, b], cls := 8, bytes := true, n := fun ops => (opnd ops 0).nbytes
        ask :=
          { ok := fun fs => fs.getD 2 .uint8 = .uint8, one := [true, true]
            rel := fun ops => if (opnd ops 2).count < min 128 (opnd ops 0).nbytes ∨ (opnd ops 1).nbytes < (opnd ops 0).nbytes then some 0x05 else none }
        out := fun c ops lo hi _ =>
          ((List.range (hi - lo)).map fun i =>
            let k := lo + i
            let x := (opnd ops 2).get c (k % 128)
            let p := k / 128 * 128 + x % 128
            ((opnd ops 0).base + k, if 128 ≤ x ∨ (opnd ops 1).nbytes ≤ p then 0 else c.spadGet ((opnd ops 1).base + p)), 0) }
  | .vunpk4 g d a =>
      let r := ew g [d, a] 8
        (fun fs => match fs with | [x, y] => y = .int4 && (x = .int8 || x = .int16 || x = .int32 || x.isFloat) | _ => false)
        fun fs xs => ((cvt .int4 (fs.headD .int8) false (xs.headD 0)).1, 0)
      some { r with ask := { r.ask with rel := fun ops => if ops.tail.any fun q => q.count < (opnd ops 0).count then some 0x05 else none } }
  | .vtr8 g d a => some
      { g := g, regs := [d, a], cls := 8, bytes := true, n := fun ops => (opnd ops 0).nbytes
        ask :=
          { ok := fun fs => match fs with | [x, y] => x.bits = y.bits && (x.bits = 8 || x.bits = 16 || x.bits = 32) | _ => false
            one := [true, true]
            rel := fun ops => if (opnd ops 0).count % 8 ≠ 0 ∨ (opnd ops 1).count < (opnd ops 0).count then some 0x05 else none }
        out := fun c ops lo hi _ =>
          let w := (opnd ops 0).ef.bytes
          let m := (opnd ops 0).count / 8
          ((opnd ops 0).put (lo / w) ((List.range ((hi - lo) / w)).map fun i => (opnd ops 1).get c (m * ((lo / w + i) % 8) + (lo / w + i) / 8)), 0) }
  | .vrsum g d a => some (reduction g d a toF32 (tree add32 0x80000000 0))
  | .vrmax g d a => some (reduction g d a toF32 (tree (minmaxF fp32 true false) 0xFF800000 0xFF800000))
  | .vrmin g d a => some (reduction g d a toF32 (tree (minmaxF fp32 false false) 0x7F800000 0x7F800000))
  | .vrmaxp g d a => some (reduction g d a toF32 (tree (minmaxF fp32 true true) 0xFF800000 0xFF800000))
  | .vrminp g d a => some (reduction g d a toF32 (tree (minmaxF fp32 false true) 0x7F800000 0x7F800000))
  | .virsum g d a => some (reduction g d a ints fun dst src v => intRes dst false ((v.map src.int).sum))
  | .vany g p a => some (vote g p a fun l => l.any (· ≠ 0))
  | .vall g p a => some (vote g p a fun l => l.all (· ≠ 0))
  | .vmrg g d a b => some
      { g := g, regs := [d, a, b], cls := 10, n := fun ops => (opnd ops 0).count
        ask :=
          { ok := fun fs => fs.all (· = .fp32), one := [true, true, true]
            rel := fun ops => if (opnd ops 0).count < 4 ∨ 259 < (opnd ops 0).count then some 0x05
              else if (opnd ops 1).count < (opnd ops 0).count ∨ (opnd ops 2).count < (opnd ops 0).count then some 0x04 else none }
        out := fun c ops lo hi data =>
          let m := if lo = 0 then [(opnd ops 1).get c 0, (opnd ops 2).get c 0] else data.headD []
          let h := mergeHead (m.getD 0 0) (m.getD 1 0)
          let r := (List.range (hi - lo)).map fun i => mergeWord ((opnd ops 0).count - 3) h.1 (lo + i) ((opnd ops 1).get c (lo + i)) ((opnd ops 2).get c (lo + i))
          ((opnd ops 0).put lo (r.map Prod.fst), orFlags (if lo = 0 then h.2 else 0) (foldFlags r))
        keep := fun c ops lo _ data => [if lo = 0 then [(opnd ops 1).get c 0, (opnd ops 2).get c 0] else data.headD []] }
  | .vck g d a => some
      { g := g, regs := [d, a], cls := 9, bytes := true, n := fun ops => (opnd ops 1).nbytes
        ask :=
          { ok := fun _ => true, one := [false, true]
            rel := fun ops => if ((opnd ops 0).ef ≠ .uint32 ∧ (opnd ops 0).ef ≠ .int32) ∨ (opnd ops 0).count < 2 then some 0x05 else none }
        keep := fun c ops lo hi data => [data.flatten ++ (List.range (hi - lo)).map fun i => (c.spadGet ((opnd ops 1).base + lo + i)).toNat]
        fin := fun ops data =>
          let k := ck64 (words32 data.flatten)
          some (.spad ((opnd ops 0).put 0 [k % 2 ^ 32, k / 2 ^ 32]), 0) }
  | i => ewRow i

/-- Items a beat takes, and the issue cycles and cycles per beat (R157). -/
def plan (r : VRow) (s : State) : Nat × Nat × Nat :=
  let ops := (r.regs.map s.qreg).map qFields
  let clash := collides ((r.regs.map (physQ s.task.qrot)).zip (ops.map (·.lane)))
  let n := r.n ops
  if r.bytes then
    let e := if clash then 64 else 128
    (e, max 1 ((n + e - 1) / e), 1)
  else
    let e := if ops.any fun q => q.stride ≠ 0 && q.stride ≠ 1 then 8
      else if ops.any fun q => (efmtOf q.fmt).isSome && q.ef.bits = 32 then 32 else 64
    let b := max 1 ((n + e - 1) / e)
    if clash then (e, if n = 0 then 1 else 2 * b, 2) else (e, b, 1)

/-- The occupancy of a vector instruction at its issue (R158). -/
def firstOcc (r : VRow) (go : Bool) (s : State) : Occ :=
  let ops := (r.regs.map s.qreg).map qFields
  { ins := s.str.held.getD .nop, total := (plan r s).2.1, step := (plan r s).2.2, go := go, qs := r.regs.map s.qreg
    addr := if collides ((r.regs.map (physQ s.task.qrot)).zip (ops.map (·.lane))) then 1 else 0 }

/-- The machine with a result in flight if there is one. -/
def landsIf (cls : Nat) (l : Option (Land × Nat)) (s : State) : State :=
  match l with
  | some (l, fl) => pending 0 cls l fl s
  | none => s

end Sys2Proof.Claim

open Sys2Proof Machine Claim in
/-- A vector instruction whose operands pass the checks of R160 begins its beats in its issue cycle: the first beat reads the
scratchpad, its results are in flight for the latency of its class, and the rest of the occupancy follows; memory and the y
registers stay as they are (R154, R157, R158, R162, R164 to R175). The rows of the instructions follow the choices of log 11 (formats and
empty sources), log 33 (bits that LG6 formats ignore) and log 35 (what a beat checks and reads). -/
def Obligations.VectorInstructionsIssueTheirFirstBeat : Prop :=
  ∀ (i : Instr) (r : VRow) (s : State), vRow i = some r → s.resident = true → s.str.occ = none → (guardRead r.g s).1 = true → s.poison = [] →
    let ops := (r.regs.map s.qreg).map qFields
    let hi := min (r.n ops) (plan r s).1
    let out := r.out s.curCore ops 0 hi []
    let kept := r.keep s.curCore ops 0 hi []
    let last := (plan r s).2.1 ≤ 1
    vChecks r.ask s.curCore s.task.spadBytes (r.n ops) ops = none → ∃ t, exec i s = .next t ∧
      t.str.flights = (landsIf r.cls (if last then r.fin ops kept else none)
        (landsIf r.cls (if out.1 = [] ∧ out.2 = 0 then none else some (.spad out.1, out.2)) s)).str.flights ∧
      t.str.occ = (if last then none else some { firstOcc r true s with beat := 1, data := kept }) ∧
      t.str.regs = s.str.regs ∧ SameMemory s t

open Sys2Proof Machine Claim in
/-- The further beats of a vector instruction under way (R157, R158): each reads its items and lands its results, a cycle between two
beats of an instruction that a lane collision has doubled does nothing, and after the last beat what was gathered lands. The rows follow
the choices of logs 11, 33 and 35.
A vector instruction with a false guard takes the issue cycles it would take, is counted and writes nothing (R62, R158, R434), and one whose operands
fail a check of R160 takes the fault of the first that fails, precisely, before anything is written. What the checks look at follows logs 11,
33 and 35. -/
def Obligations.VectorBeatsAndFailedChecks : Prop :=
  (∀ (i : Instr) (r : VRow) (o : Occ) (s : State), vRow i = some r → s.resident = true → s.str.occ = some o → s.poison = [] → o.go = true →
     (o.step = 2 ∨ o.step = 1) →
     let ops := o.qs.map qFields
     let clash := o.step = 2 ∨ (r.bytes = true ∧ o.addr = 1)
     let e := (beatPlan r.bytes (decide clash) ops (r.n ops)).1
     let lo := o.beat / o.step * e
     let hi := min (r.n ops) (lo + e)
     let last := o.total ≤ o.beat + 1
     (o.beat % o.step = 0 →
       let out := r.out s.curCore ops lo hi o.data
       let kept := r.keep s.curCore ops lo hi o.data
       ∃ t, exec i s = .next t ∧
         t.str.flights = (landsIf r.cls (if last then r.fin ops kept else none)
           (landsIf r.cls (if out.1 = [] ∧ out.2 = 0 then none else some (.spad out.1, out.2)) s)).str.flights ∧
         t.str.occ = (if last then none else some { o with beat := o.beat + 1, data := kept }) ∧ t.str.regs = s.str.regs ∧ SameMemory s t) ∧
     (o.beat % o.step ≠ 0 → ¬ last → exec i s = .next (s.modStr fun x => { x with occ := some { o with beat := o.beat + 1 } })) ∧
     (o.beat % o.step ≠ 0 → last → exec i s = .next ((landsIf r.cls (r.fin ops o.data) s).modStr fun x => { x with occ := none }))) ∧
  (∀ (i : Instr) (r : VRow) (s : State), vRow i = some r → s.resident = true → s.str.occ = none →
     let ops := (r.regs.map s.qreg).map qFields
     ((guardRead r.g s).1 = false → exec i s = .next ((countCore s.cur.core 6 1 (guardRead r.g s).2).modStr fun x =>
       { x with occ := if 1 < (plan r s).2.1 then some { firstOcc r false s with beat := 1 } else none })) ∧
     (∀ b, (guardRead r.g s).1 = true → s.poison = [] → vChecks r.ask s.curCore s.task.spadBytes (r.n ops) ops = some b →
       exec i s = .next (fault b.1 b.2.1 b.2.2 (guardRead r.g s).2)))

/-! ### Stream registers, vector memory and the matrix engine (R155, R156, R176, R177, R179 to R197) -/

namespace Sys2Proof.Claim

open Machine

/-- The page that some translations hold for an address of the executing task (R240), none where a poisoned one has lost it (R428). -/
def pageIn (l : List TlbEnt) (s : State) (va : Nat) : Option Page := (l.find? (·.hits s.task.ctx va)).bind fun e => if e.bad then none else some (e.page va)

/-- Translations that agree: each of a page of 64 KiB or more, and one entry for each address. -/
def OnePage (l : List TlbEnt) (s : State) : Prop :=
  ∀ e ∈ l, 16 ≤ e.bits ∧ ∀ f ∈ l, ∀ v, e.hits s.task.ctx v = true → f.hits s.task.ctx v = true → e = f

/-- The physical address of a byte whose page some translations hold. -/
def physIn (l : List TlbEnt) (s : State) (va : Nat) : Nat := ((pageIn l s va).map (·.pa)).getD 0

/-- A 128-bit register with bits hi:lo replaced (R156). -/
def withBits (w : QWord) (hi lo : Nat) (v : Nat) : QWord :=
  BitVec.ofNat 128 (w.toNat % 2 ^ lo + v % 2 ^ (hi + 1 - lo) * 2 ^ lo + w.toNat / 2 ^ (hi + 1) * 2 ^ (hi + 1))

/-- The stream-register instructions (R155, R156, R177): guard, y registers read, latency class, what lands. -/
def qRow (s : State) : Instr → Option (Guard × List Nat × Nat × Land)
  | .vsetq g d a b => some (g, [a, b], 13, .qreg (physQ s.task.qrot d) (BitVec.ofNat 128 ((s.reg a).toNat + 2 ^ 64 * (s.reg b).toNat)))
  | .vgetq g d a b => some (g, [], 13, .regs [(a, BitVec.ofNat 64 (s.qreg d).toNat), (b, BitVec.ofNat 64 ((s.qreg d).toNat / 2 ^ 64))])
  | .vadvq g d a b =>
    let w := s.qreg d
    some (g, [a, b], 13, .qreg (physQ s.task.qrot d) (withBits (withBits (withBits w 18 0 (w.toNat % 2 ^ 19 + (s.reg a).toNat)) 75 57
      (w.toNat / 2 ^ 57 % 2 ^ 19 + (s.reg b).toNat)) 103 88 (w.toNat / 2 ^ 88 % 2 ^ 16 + w.toNat / 2 ^ 105 % 2)))
  | .vcntq g d a => some (g, [a], 13, .qreg (physQ s.task.qrot d) (withBits (s.qreg d) 50 35 (min (s.reg a).toNat 65535)))
  | .vstg g v => some (g, [], 3, .stg v (stagePreds (v / 2 ^ 12 % 16) (v / 2 ^ 8 % 16) (v % 2 ^ 8)))
  | _ => none

/-- The registers of `q` that a stream-register instruction reads. -/
def qReads (s : State) : Instr → List Nat
  | .vgetq _ d _ _ | .vadvq _ d _ _ | .vcntq _ d _ => [physQ s.task.qrot d]
  | _ => []

/-- The 64-byte granules of footprint bytes lo to hi − 1 (R176): first byte and end of each. -/
def halves (lo hi : Nat) : List (Nat × Nat) := [(lo, min hi (lo + 64)), (lo + 64, hi)].filter fun e => decide (e.1 < e.2)

/-- Footprint bytes lo to hi − 1, each as f gives it. -/
def spanOf {α : Type} (lo hi : Nat) (f : Nat → α) : List α := (List.range (hi - lo)).map fun m => f (lo + m)

/-- What a `vld` of a footprint at va has in flight for one granule (R176): a load of its bytes through the translations l, into the
scratchpad bytes of the stream's elements, or those bytes with the pattern of a constant-fill page. -/
def GranuleLoad (l : List TlbEnt) (s : State) (q : Qd) (va : Nat) (e : Nat × Nat) (f : Flight) : Prop :=
  f.due = s.str.cyc + s.task.lat 4 ∧ f.iss = s.str.cyc ∧ ∀ p, pageIn l s (va + e.1) = some p →
    (pteCf p.pte = false → ∃ r, f.req = some r ∧ r.addrs = spanOf e.1 e.2 (fun m => physIn l s (va + m)) ∧ r.how = .spad (spanOf e.1 e.2 q.bytePos)) ∧
    (pteCf p.pte = true → f.req = none ∧ f.land = .spad ((spanOf e.1 e.2 q.bytePos).zip ((patternBytes s p.pte (va + e.1) (e.2 - e.1)).map (BitVec.ofNat 8))))

/-- What a `vst` of a footprint at va sends for one granule: the scratchpad bytes of the stream's elements to the granule's bytes (R176). -/
def granuleCells (l : List TlbEnt) (s : State) (q : Qd) (va : Nat) (e : Nat × Nat) : List (Nat × Byte) :=
  spanOf e.1 e.2 fun m => (physIn l s (va + m), s.curCore.spadGet (q.bytePos m))

/-- Every byte of a footprint of n bytes at va lies in a page of translations l that a `vld`, or a `vst` (`store`), may use, and the core has
room for the requests to other packages of one beat (R124, R176, R355). -/
def PagesServe (l : List TlbEnt) (store : Bool) (s : State) (va n : Nat) : Prop :=
  (∀ v, v ∈ pagesOf va n ∨ (va ≤ v ∧ v < va + n) → ∃ p, pageIn l s v = some p ∧ pteCmp p.pte = false ∧ (store = true → pteW p.pte = true ∧ pteCf p.pte = false)) ∧
  ((∀ v, va ≤ v → v < va + n → isRemote s (physIn l s v) = false) ∨ s.curCore.remote ≤ 62)

/-- No store in the buffer has a byte in a double-word of these bytes: none may merge (R214). -/
def NoMerge (l : List TlbEnt) (s : State) (va n : Nat) : Prop := ∀ e ∈ s.str.sbuf, ∀ c ∈ e.cells, ∀ m < n, c.1 / 8 ≠ physIn l s (va + m) / 8

/-- What a beat of `vld` over footprint bytes lo to hi − 1 does. -/
def LoadBeat (l : List TlbEnt) (q : Qd) (va lo hi : Nat) (occ : Option Occ) (s t : State) : Prop :=
  ∃ fs, t.str.flights = s.str.flights ++ fs ∧ List.Forall₂ (GranuleLoad l s q va) (halves lo hi) fs ∧ t.str.occ = occ ∧ t.str.frozen = none ∧
    t.str.regs = s.str.regs ∧ t.str.sbuf = s.str.sbuf ∧ SameMemory s t

/-- What a beat of `vst` over footprint bytes lo to hi − 1 does. -/
def StoreBeat (l : List TlbEnt) (q : Qd) (va lo hi : Nat) (occ : Option Occ) (s t : State) : Prop :=
  ∃ es, t.str.sbuf = s.str.sbuf ++ es ∧ es.map SbEnt.cells = (halves lo hi).map (granuleCells l s q va) ∧ t.str.occ = occ ∧ t.str.frozen = none ∧
    t.str.regs = s.str.regs ∧ t.str.flights = s.str.flights ∧ SameMemory s t

/-- The occupancy of a vector memory instruction with its next beat. -/
def nextBeat (o : Occ) : Option Occ := if o.beat + 1 < o.total then some { o with beat := o.beat + 1 } else none

/-- The occupancy of a vector memory instruction at its issue: a cycle for each 128 bytes of the footprint, at least one (R176). -/
def vmOcc (s : State) (q a : Nat) (go : Bool) : Occ :=
  { ins := s.str.held.getD .nop, total := max 1 (((qFields (s.qreg q)).nbytes + 127) / 128), go := go, qs := [s.qreg q], addr := (s.reg a).toNat }

/-- The product of an M operation over its descriptors (R186). -/
def productOf (s : State) (tr da db : Nat) : Prod' :=
  prodOf (resolveD s.task.ctx (s.dreg da) (tileEntry s (s.dreg da))) (resolveD s.task.ctx (s.dreg db) (tileEntry s (s.dreg db))) tr

end Sys2Proof.Claim

open Sys2Proof Machine Claim in
/-- The stream-register instructions land their register, or the halves of one, with class sr, and `vstg` the stage control with class
cmp; logical numbers are resolved at issue (R155, R156, R177). A poisoned y register that one reads is a data-loss fault (R428).
The issue of `vld` and `vst` whose descriptor passes its checks (R160, R176). The first beat of `vld` asks, granule by granule, for the
first 128 bytes of the footprint and lands them in the scratchpad bytes of the stream's elements; the first beat of `vst` sends those
scratchpad bytes; nothing else of memory or the y registers changes. The footprint's pages are held by the micro-TLB. An empty footprint moves
nothing; a misaligned address is an alignment fault, a failed check the fault of R160.
The beats of `vld` and `vst` after the first (R176): beat k moves the granules of footprint bytes 128k to 128k + 127, through the
translations that the issue has found.
`vld` and `vst` with a false guard take the cycles they would take and do nothing (R62, R158, R176), and a beat beyond the footprint
does nothing but take its cycle. -/
def Obligations.VectorMemoryAndStreamRegisters : Prop :=
  (∀ (i : Instr) (g : Guard) (src : List Nat) (cls : Nat) (l : Land) (s : State), qRow s i = some (g, src, cls, l) → Issues g s → Clean src s →
     ((∀ r ∈ qReads s i, ErrLoc.file s.cur.core 0 r ∉ s.poison) → exec i s = .next (pending 0 cls l 0 (guardRead g s).2)) ∧
     ((∃ r ∈ qReads s i, ErrLoc.file s.cur.core 0 r ∈ s.poison) → exec i s = .next (takeFault { cls := 0x14 } .never (guardRead g s).2))) ∧
  (∀ (g : Guard) (q a h : Nat) (s : State), Issues g s → s.str.occ = none → s.str.frozen = none → s.poison = [] → s.str.got = [] →
     let d := qFields (s.qreg q)
     let va := (s.reg a).toNat
     let o := vmOcc s q a true
     let checks := vChecks { ok := fun fs => fs.all (· != .int4) } s.curCore s.task.spadBytes d.nbytes [{ d with tc := false }]
     (checks = none → va % 64 = 0 → 0 < d.nbytes → va + d.nbytes ≤ 2 ^ 56 → OnePage s.utlb s →
       (PagesServe s.utlb false s va d.nbytes → ∃ t, exec (.vld g q a h) s = .next t ∧ LoadBeat s.utlb d va 0 (min d.nbytes 128) (nextBeat o) s t) ∧
       (PagesServe s.utlb true s va d.nbytes → s.str.sbuf.length ≤ 14 → NoMerge s.utlb s va d.nbytes →
         ∃ t, exec (.vst g q a h) s = .next t ∧ StoreBeat s.utlb d va 0 (min d.nbytes 128) (nextBeat o) s t)) ∧
     ∀ i ∈ [Instr.vld g q a h, .vst g q a h],
       (checks = none → va % 64 = 0 → d.nbytes = 0 → exec i s = .next ((guardRead g s).2.modStr fun x => { x with occ := none })) ∧
       (checks = none → va % 64 ≠ 0 → exec i s = .next (faultAfter 0x02 0 va (guardRead g s).2)) ∧
       (∀ b, checks = some b → exec i s = .next (fault b.1 b.2.1 b.2.2 (guardRead g s).2))) ∧
  (∀ (g : Guard) (q a h : Nat) (o : Occ) (w : QWord) (s : State), s.resident = true → s.str.occ = some o → o.go = true → o.qs = [w] →
     s.str.frozen = none → s.poison = [] →
     let d := qFields w
     let lo := o.beat * 128
     lo < d.nbytes → o.addr % 64 = 0 → o.addr + d.nbytes ≤ 2 ^ 56 → OnePage s.str.got s →
     (PagesServe s.str.got false s o.addr d.nbytes → ∃ t, exec (.vld g q a h) s = .next t ∧ LoadBeat s.str.got d o.addr lo (min d.nbytes (lo + 128)) (nextBeat o) s t) ∧
     (PagesServe s.str.got true s o.addr d.nbytes → s.str.sbuf.length ≤ 14 → NoMerge s.str.got s o.addr d.nbytes →
       ∃ t, exec (.vst g q a h) s = .next t ∧ StoreBeat s.str.got d o.addr lo (min d.nbytes (lo + 128)) (nextBeat o) s t) ∧
     (PagesServe s.str.got true s o.addr d.nbytes → 16 ≤ s.str.sbuf.length → ∃ t, exec (.vst g q a h) s = .next t ∧ t.str.frozen = some 3 ∧
       t.str.occ = some o ∧ t.str.sbuf = s.str.sbuf ∧ SameMemory s t)) ∧
  (∀ (g : Guard) (q a h : Nat) (s : State), s.resident = true → s.str.frozen = none → ∀ i ∈ [Instr.vld g q a h, .vst g q a h],
     (s.str.occ = none → (guardRead g s).1 = false →
       exec i s = .next ((countCore s.cur.core 6 1 (guardRead g s).2).modStr fun x => { x with occ := nextBeat (vmOcc s q a false) })) ∧
     (∀ o, s.str.occ = some o → o.go = false → exec i s = .next (s.modStr fun x => { x with occ := nextBeat o })) ∧
     (∀ o w, s.str.occ = some o → o.go = true → o.qs = [w] → (qFields w).nbytes ≤ o.beat * 128 →
       (∀ v ∈ pagesOf o.addr (qFields w).nbytes, (gotXlate s v).isSome = true) → exec i s = .next (s.modStr fun x => { x with occ := nextBeat o })))

open Sys2Proof Machine Claim in
/-- The first cycle of `mm.mac` and `mm.mul` on scratchpad operands that pass their checks reads group 0 of both and folds it into
the tile they build, element by element by the group's dot product, and leaves the accumulator as it is (R179, R186, R187, R189).
Each later group of a product on scratchpad operands is folded in its own cycle in the same way (R186, R187).
A cycle of a product between two groups changes nothing but its place, and after the last cycle the whole tile is in flight with
class mm (11) and its shadow held (R179, R180, R187). -/
def Obligations.MatrixProductsFoldAndLand : Prop :=
  (∀ (mul : Bool) (acc da db tr : Nat) (x : Prod') (s : State), s.resident = true → s.str.occ = none → s.poison = [] →
     arrayHeld s.task = false → shadows s.task < 8 →
     prodChecks s tr (s.dreg da) (s.dreg db) (tileEntry s (s.dreg da)) (tileEntry s (s.dreg db)) = .ok x → x.a.kind = 0 → x.b.kind = 0 →
     let start := startTile x mul (s.accTile acc)
     x = productOf s tr da db ∧ ∃ t o, exec (if mul then .mmMul acc da db tr else .mmMac acc da db tr) s = .next t ∧ t.str.occ = some o ∧
       o.beat = 1 ∧ o.total = x.p * x.groups ∧ o.tile.length = start.length ∧
       (∀ e < start.length, e / 32 < x.m → e % 32 < x.n → (o.tile.getD e 0).toNat =
         (groupDot x.kind (start.getD e 0).toNat ((x.ks 0).map fun k => (x.atA s (e / 32) k, x.atB s k (e % 32)))
           (x.scales s 0 (e / 32) (e % 32)).1 (x.scales s 0 (e / 32) (e % 32)).2).1 % 2 ^ 32) ∧
       (∀ e < start.length, (x.m ≤ e / 32 ∨ x.n ≤ e % 32) → o.tile.getD e 0 = start.getD e 0) ∧
       t.task.acc = s.task.acc ∧ t.str.flights = s.str.flights ∧ SameMemory s t) ∧
  (∀ (acc da db tr : Nat) (o : Occ) (s : State), s.resident = true → s.str.occ = some o → s.poison = [] →
     let x := prodOf (resolveD s.task.ctx (o.ds.getD 0 0) (o.ds.getD 2 0)) (resolveD s.task.ctx (o.ds.getD 1 0) (o.ds.getD 3 0)) tr
     o.beat % x.p = 0 → o.beat + 1 < o.total → x.a.kind = 0 → x.b.kind = 0 → ∀ i ∈ [Instr.mmMac acc da db tr, .mmMul acc da db tr],
       let q := o.beat / x.p
       ∃ (t : State) (tile : List Word32) (fl : Nat), exec i s = .next t ∧ t.str.occ = some { o with beat := o.beat + 1, tile := tile, fl := fl } ∧
         tile.length = o.tile.length ∧
         (∀ e < o.tile.length, e / 32 < x.m → e % 32 < x.n → (tile.getD e 0).toNat =
           (groupDot x.kind (o.tile.getD e 0).toNat ((x.ks q).map fun k => (x.atA s (e / 32) k, x.atB s k (e % 32)))
             (x.scales s q (e / 32) (e % 32)).1 (x.scales s q (e / 32) (e % 32)).2).1 % 2 ^ 32) ∧
         (∀ e < o.tile.length, (x.m ≤ e / 32 ∨ x.n ≤ e % 32) → tile.getD e 0 = o.tile.getD e 0) ∧
         t.task.acc = s.task.acc ∧ t.str.flights = s.str.flights ∧ SameMemory s t) ∧
  (∀ (acc da db tr : Nat) (o : Occ) (s : State), s.resident = true → s.str.occ = some o →
     let x := prodOf (resolveD s.task.ctx (o.ds.getD 0 0) (o.ds.getD 2 0)) (resolveD s.task.ctx (o.ds.getD 1 0) (o.ds.getD 3 0)) tr
     o.beat % x.p ≠ 0 → ∀ i ∈ [Instr.mmMac acc da db tr, .mmMul acc da db tr],
       (o.beat + 1 < o.total → ∃ t, exec i s = .next t ∧ t.str = { s.str with occ := some { o with beat := o.beat + 1 } } ∧ SameMemory s t) ∧
       (o.total ≤ o.beat + 1 → ∃ t f, exec i s = .next t ∧ t.str.flights = s.str.flights ++ [f] ∧ f.land = .acc acc o.tile ∧ f.fl = o.fl ∧
         f.due = s.str.cyc + s.task.lat 11 ∧ f.shadow = true ∧ t.str.occ = none ∧ t.task.acc = s.task.acc ∧ SameMemory s t))

open Sys2Proof Machine Claim in
/-- Tile moves and descriptors (R192, R193, R195): `mm.zero` in the next cycle, `mm.mov` with class mmv (12), `mm.setd` from 32 aligned
scratchpad bytes and `mm.adv` with class sr (13), `mm.getd` into the scratchpad in the next cycle; a tile move holds a shadow, and
without a free one it takes the matrix fault (R180).
The first cycle of `mm.ldacc` from the scratchpad reads its first granule, the next ones a granule each, and after the last the whole
tile is in flight with class mmv (12). The first cycle of `mm.drain` to the scratchpad converts the tile and puts its first 64 bytes in flight
with class mmv, and each of the next ones the next 64 bytes. The accumulator stays as it is (R194, R196, R197). -/
def Obligations.TileInstructions : Prop :=
  (∀ (a b d sp : Nat) (s : State), s.resident = true → s.poison = [] →
     (shadows s.task < 8 → (∃ t f, exec (.mmZero a) s = .next t ∧ t.str.flights = s.str.flights ++ [f] ∧ f.due = s.str.cyc + 1 ∧
       f.land = .acc a (List.replicate 1024 0) ∧ f.shadow = true ∧ t.task.acc = s.task.acc ∧ SameMemory s t) ∧
      (∃ t f, exec (.mmMov a b) s = .next t ∧ t.str.flights = s.str.flights ++ [f] ∧ f.due = s.str.cyc + s.task.lat 12 ∧
       f.land = .acc a (s.accTile b) ∧ f.shadow = true ∧ t.task.acc = s.task.acc ∧ SameMemory s t)) ∧
     (8 ≤ shadows s.task → ∀ i ∈ [Instr.mmZero a, .mmMov a b], exec i s = .next (fault 0x0E 0x01 0 s)) ∧
     (sp % 2 = 0 → sp * 16 + 32 ≤ s.task.spadBytes →
       exec (.mmSetd d sp) s = .next (pending 0 13 (.dset d (BitVec.ofNat 256 (ofBytes ((List.range 32).map fun i => (s.curCore.spadGet (sp * 16 + i)).toNat)))) 0 s) ∧
       exec (.mmGetd d sp) s = .next (inFlight 1 (.spad ((List.range 32).map fun i => (sp * 16 + i, BitVec.ofNat 8 ((s.dreg d).toNat / 256 ^ i)))) 0 s)) ∧
     (sp % 2 = 1 → ∀ i ∈ [Instr.mmSetd d sp, .mmGetd d sp], exec i s = .next (fault 0x02 0 (sp * 16) s)) ∧
     (sp % 2 = 0 → s.task.spadBytes < sp * 16 + 32 → ∀ i ∈ [Instr.mmSetd d sp, .mmGetd d sp], exec i s = .next (fault 0x07 0 (sp * 16) s)) ∧
     exec (.mmAdv d) s = .next (pending 0 13 (.dreg d (BitVec.ofNat 256 (advD (s.dreg d).toNat))) 0 s)) ∧
  ((∀ (acc da : Nat) (d : Dd) (s : State), s.resident = true → s.str.occ = none → s.poison = [] → arrayHeld s.task = false → shadows s.task < 8 →
     ldaccChecks s (s.dreg da) = .ok d → d.kind = 0 → 1 < d.rows * d.ef.bytes / 2 → ∃ t o, exec (.mmLdacc acc da) s = .next t ∧
       t.str.occ = some o ∧ o.beat = 1 ∧ o.total = d.rows * d.ef.bytes / 2 ∧
       (∀ c < 64 / d.ef.bytes, o.tile.getD c 0 = BitVec.ofNat 32 (widenCvt d.ef (d.get s 0 c)).1) ∧
       (∀ e < 1024, 64 / d.ef.bytes ≤ e → o.tile.getD e 0 = 0) ∧ t.task.acc = s.task.acc ∧ SameMemory s t) ∧
   (∀ (acc da : Nat) (o : Occ) (s : State), s.resident = true → s.str.occ = some o → s.poison = [] → (o.ds.headD 0).toNat / 2 ^ 254 = 0 → o.tile.length = 1024 →
     let d := resolveD s.task.ctx (o.ds.headD 0) 0
     let half := 64 / d.ef.bytes
     let r := o.beat / (d.ef.bytes / 2)
     let c0 := o.beat % (d.ef.bytes / 2) * half
     ∃ (t : State) (tile : List Word32), exec (.mmLdacc acc da) s = .next t ∧ tile.length = 1024 ∧
       (∀ e < 1024, tile.getD e 0 = if e / 32 = r ∧ c0 ≤ e % 32 ∧ e % 32 < c0 + half then BitVec.ofNat 32 (widenCvt d.ef (d.get s r (e % 32))).1 else o.tile.getD e 0) ∧
       (o.beat + 1 < o.total → ∃ fl, t.str.occ = some { o with beat := o.beat + 1, tile := tile, fl := fl } ∧ t.str.flights = s.str.flights) ∧
       (o.total ≤ o.beat + 1 → t.str.occ = none ∧ ∃ f, t.str.flights = s.str.flights ++ [f] ∧ f.land = .acc acc tile ∧ f.due = s.str.cyc + s.task.lat 12 ∧
         f.shadow = true) ∧ t.task.acc = s.task.acc ∧ SameMemory s t) ∧
   (∀ (acc dd fc rz : Nat) (f : EFmt) (d : Dd) (s : State), s.resident = true → s.str.occ = none → s.str.frozen = none → s.str.redo = false → s.poison = [] → drainFmt fc = some f →
     drainChecks s f (s.dreg dd) = .ok d → d.kind = 0 →
     let bytes := (((s.accTile acc).take (d.rows * 32)).flatMap fun w => toBytes f.bytes (cvt .fp32 f (decide (rz = 1)) w.toNat).1).take 64
     ∃ t, exec (.mmDrain acc dd fc rz) s = .next t ∧
       t.str.flights = (pending 0 12 (.spad (bytes.zipIdx.map fun e => (d.base + e.2, BitVec.ofNat 8 e.1))) 0 s).str.flights ∧
       t.str.occ.isSome = decide (64 < d.rows * 32 * f.bytes) ∧ t.task.acc = s.task.acc ∧ SameMemory s t) ∧
   (∀ (acc dd fc rz : Nat) (f : EFmt) (o : Occ) (s : State), s.resident = true → s.str.occ = some o → s.str.frozen = none → drainFmt fc = some f →
     (o.ds.headD 0).toNat / 2 ^ 254 = 0 →
     let d := resolveD s.task.ctx (o.ds.headD 0) 0
     let per := 32 * f.bytes / 64
     let a := asVa ((d.base : Int) + (o.beat / per : Nat) * d.rstride + (o.beat % per * 64 : Nat))
     let bytes := ((((o.tile.take (d.rows * 32)).flatMap fun w => toBytes f.bytes (cvt .fp32 f (decide (rz = 1)) w.toNat).1).drop (64 * o.beat)).take 64)
     ∃ t, exec (.mmDrain acc dd fc rz) s = .next t ∧
       t.str.flights = (pending 0 12 (.spad (bytes.zipIdx.map fun e => (a + e.2, BitVec.ofNat 8 e.1))) 0 s).str.flights ∧
       t.str.occ = (if o.beat + 1 < o.total then some { o with beat := o.beat + 1 } else none) ∧ t.task.acc = s.task.acc ∧ SameMemory s t))

/-! ### Copies, leases, maintenance and armed actions (R220 to R222, R249 to R256, R258 to R282) -/

namespace Sys2Proof.Claim

open Machine

/-- The copy instructions (R264): form, channel, registers. -/
def copyRow : Instr → Option (Nat × Nat × Nat × Nat)
  | .cp1d c a b => some (0, c, a, b)
  | .cp2d c a b => some (1, c, a, b)
  | .cp3d c a b => some (2, c, a, b)
  | .cpGat c a b => some (3, c, a, b)
  | .cpSct c a b => some (4, c, a, b)
  | .cpFill c a b => some (5, c, a, b)
  | .cpTol c a b => some (6, c, a, b)
  | .cpFrl c a b => some (7, c, a, b)
  | .cpRedSum c a b => some (8, c, a, b)
  | .cpRedMax c a b => some (9, c, a, b)
  | .cpRedMrg c a b => some (10, c, a, b)
  | _ => none

/-- The 64 bytes of a block of the scratchpad as double-words. -/
def blockAt (s : State) (a : Nat) : List Nat :=
  (List.range 8).map fun k => ofBytes ((List.range 8).map fun i => (s.curCore.spadGet (a + (8 * k + i))).toNat)

/-- The copy that a form, a block register and an offset register give (R261, R265). -/
def copyOf (s : State) (fn a b : Nat) : Copy :=
  { fn := fn, blk := blockAt s ((s.reg a).toNat % 2 ^ 19), offs := (s.reg b).toNat, inc := (s.reg a).toNat / 2 ^ 32 % 2 ^ 16 }

/-- Every byte that the walk names at an operand of kind 1 without indices lies in the scratchpad bytes (R265, R271). -/
def InsideSpad (c : Copy) (dst : Bool) (lim : Nat) : Prop :=
  c.kind dst = 1 → ¬ (dst = false ∧ (c.fn = 5 ∨ c.fn = 3)) → ¬ (dst = true ∧ c.fn = 4) →
    ∀ i2 i1 o : Nat, i2 < c.planes → i1 < c.rows → o < c.n0 →
      0 ≤ c.start dst + i2 * c.half 4 dst + i1 * c.half 3 dst + o ∧ c.start dst + i2 * c.half 4 dst + i1 * c.half 3 dst + o < lim

/-- A lease that the executing task's context holds on its die. -/
def Holds (s : State) (h : Nat) (l : Lease) : Prop := s.lease (dieOf s.cur.core) h = some l ∧ l.ctx = s.task.ctx

/-- A page of a lease range that R249 accepts, with its frame. -/
def LeasePage (s : State) (a f : Nat) : Prop :=
  ∃ p, coreXlate s s.cur.core s.task.ctx a = .ok p ∧ pteCf p.pte = false ∧ pteCmp p.pte = false ∧ pteCache p.pte ≠ 0 ∧
    p.pa / 2 ^ 45 = dieOf s.cur.core / 8 ∧ p.pa % 2 ^ 45 < hbmTop ∧ p.pa % 2 ^ 45 / 2 ^ 36 / 2 = dieOf s.cur.core % 8 ∧ f = p.pa

/-- Cache maintenance: whether it goes on to the home slices, whether lines are removed, counter, registers. -/
def maintainRow : Instr → Option (Bool × Bool × Nat × Nat × Nat)
  | .l2WbL1 n a b => some (false, false, n, a, b)
  | .l2WbL2 n a b => some (true, false, n, a, b)
  | .l2InvL1 n a b => some (false, true, n, a, b)
  | .l2InvL2 n a b => some (true, true, n, a, b)
  | _ => none

/-- The machine with the result of a request in flight (R99, R249): due after the assumed latency of class ld, late until the
data are there in wall cycle `w`. -/
def replyIn (l : Land) (w : Nat) (s : State) : State :=
  let t := s.modStr fun x =>
    { x with
      flights := x.flights ++ [landing (s.task.lat 4) 3 l s]
      seq := x.seq + 1 }
  { t with
    agenda := t.agenda ++ [(.interlockResultReady, { unit := s.cur.core, st := s.cur.st, k := s.str.seq, v := w })]
    nfree := t.nfree + 1 }

/-- An instruction does nothing but ask for a value: its result comes in some later wall cycle. -/
def Asks (i : Instr) (l : Land) (s : State) : Prop := ∃ w, s.wall < w ∧ exec i s = .next (replyIn l w s)

/-- A counter of numbers after one more was taken. -/
def counted (c : Tl) : Tl := { c with count := c.count + 1 }

end Sys2Proof.Claim

open Sys2Proof Machine Claim in
/-- The copy forms read their block at issue, take the next number of the counter their channel is bound to and the last entry of
its queue, with the lease that an operand names, and the channel's engine takes up the copy (R217, R258, R259, R261, R264, R267, R271); no register, no other channel and no
memory changes. A full queue freezes before the issue with cause 0xC; a bad block takes the copy fault of its reason, a walk that
leaves the scratchpad the bounds fault.
`cp.mm` queues its follow-on block behind the copies of its channel, and with none of them before it arrives in the next wall
cycle (R269). `cp.stat` lands the status word and `cp.abort` empties the queue: every ended copy is complete on its counter, and
their number lands (R280, R281). `cp.bind` binds the channel (R282). -/
def Obligations.CopyInstructions : Prop :=
  (∀ (i : Instr) (fn ch a b : Nat) (x : CopyCh) (tl : Tl) (s : State), copyRow i = some (fn, ch, a, b) → s.resident = true → s.poison = [] →
     s.task.ch[ch]? = some x → s.task.tls[x.tl]? = some tl →
     let za := (s.reg a).toNat
     let c := copyOf s fn a b
     let good := za / 2 ^ 19 % 2 ^ 13 = 0 ∧ za / 2 ^ 48 = 0 ∧ za % 2 ^ 19 % 64 = 0 ∧ za % 2 ^ 19 + 64 ≤ s.task.spadBytes
     (16 ≤ x.q.length → ∃ t, exec i s = .next t ∧ t.str.frozen = some 0xC ∧ t.str.redo = s.str.redo ∧ t.task.ch = s.task.ch ∧ SameMemory s t) ∧
     (x.q.length < 16 → (za / 2 ^ 19 % 2 ^ 13 ≠ 0 ∨ za / 2 ^ 48 ≠ 0) → exec i s = .next (fault 0x05 0x01 0 s)) ∧
     (x.q.length < 16 → good → ∀ r, c.reason = some r → exec i s = .next (fault 0x05 r 0 s)) ∧
     (x.q.length < 16 → good → c.reason = none → ¬ (InsideSpad c false s.task.spadBytes ∧ InsideSpad c true s.task.spadBytes) →
       exec i s = .next (fault 0x07 0 0 s)) ∧
     (x.q.length < 16 → good → c.reason = none → InsideSpad c false s.task.spadBytes → InsideSpad c true s.task.spadBytes →
       c.listLeaves s.task.spadBytes = false → (fn ≠ 5 → c.kind false = 2 → ∃ l, Holds s (c.handle false) l) →
       (c.kind true = 2 → ∃ l, Holds s (c.handle true) l) →
       ∃ t id, exec i s = .next t ∧ (∀ d l, c.kind d = 2 → (d = false → fn ≠ 5) → Holds s (c.handle d) l → id = l.id) ∧
         t.task.ch = s.task.ch.set ch
           { x with last := tl.count + 1, q := x.q ++ [{ c with num := tl.count + 1, tl := x.tl, lid := id, seq := s.task.c.seq }] } ∧
         t.task.tls = s.task.tls.set x.tl (counted tl) ∧
         (.copyStart, { unit := s.cur.core, k := ch, n := tl.count + 1, j := x.tl }) ∈ t.agenda ∧ t.str = s.str ∧ SameMemory s t)) ∧
  (∀ (ch a b d n : Nat) (x : CopyCh) (s : State), s.resident = true → s.poison = [] → s.task.ch[ch]? = some x →
     (x.q.length < 16 → (s.reg a).toNat / 2 ^ 19 = 0 → (s.reg a).toNat % 64 = 0 → (s.reg a).toNat + 64 ≤ s.task.spadBytes →
       (s.reg b).toNat / 2 ^ 6 = 0 →
       let c : Copy := { fn := 11, blk := blockAt s (s.reg a).toNat, offs := (s.reg b).toNat, seq := s.task.c.seq }
       ∃ t y, exec (.cpMm ch a b) s = .next t ∧ t.task.ch = s.task.ch.set ch { x with q := y } ∧ y.length = x.q.length + 1 ∧
         ((∃ e ∈ x.q, e.fn ≠ 11) → y.getLast? = some c) ∧
         ((∀ e ∈ x.q, e.fn = 11) → y.getLast? = some { c with ready := some (s.wall + 1) } ∧
           (.followOnArrival, { unit := s.cur.core, k := ch }) ∈ t.agenda) ∧ t.str = s.str ∧ SameMemory s t) ∧
     exec (.cpStat d ch) s = .next (regPending 14 d (BitVec.ofNat 64
       (x.last % 2 ^ 40 * 2 ^ 24 + x.tl * 2 ^ 20 + (if x.pf = none then 0 else 2 ^ 17) + (if x.hs = true then 2 ^ 16 else 0) + x.q.length)) s) ∧
     ((∀ c ∈ x.q, c.tl < s.task.tls.length) → ∃ t w, exec (.cpAbort d ch) s = .next t ∧
       t.task.ch = s.task.ch.set ch { x with q := [], pf := none, hs := false } ∧
       (∀ c ∈ x.q, c.fn ≠ 11 → c.num ≤ (t.tl c.tl).mark ∨ c.num ∈ (t.tl c.tl).done) ∧
       t.str.flights = s.str.flights ++ [landing (s.task.lat 14) w (.regs [(d, BitVec.ofNat 64 x.q.length)]) s] ∧ SameMemory s t) ∧
     (∃ t, exec (.cpBind n ch) s = .next t ∧ t.task.ch = s.task.ch.set ch { x with tl := n } ∧ t.str = s.str ∧ SameMemory s t))

open Sys2Proof Machine Claim in
/-- `l2.lease` grants a free handle of the die (any: log 4) with the frames of its range, or lands a status whose condition holds and
leaves every lease as it is (R248, R249). `l2.rel`, `l2.renew` and `l2.stat` act on a handle that the context holds (R250). Results
are due after the latency of class ld (4) and may be late. -/
def Obligations.LeaseInstructionsActOnTheDie : Prop :=
  ∀ (d a b : Nat) (s : State), s.resident = true → s.poison = [] →
    let die := dieOf s.cur.core
    let size := (s.reg b).toNat % 2 ^ 6
    let life := (s.reg b).toNat / 2 ^ 16
    let base := (s.reg a).toNat
    let free := (List.range 16).map (freeUnits s die)
    let h := (s.reg a).toNat % 64
    let Pages : Prop := ∃ frames : List Nat, frames.length = 16 * size ∧ ∀ k, k < 16 * size → LeasePage s (base + k * 2 ^ 16) (frames.getD k 0)
    let NoHandle : Prop := ∀ k, k < 64 → s.lease die k ≠ none
    let BadSize : Prop := size = 0 ∨ 32 < size ∨ life = 0 ∨ (s.reg b).toNat / 2 ^ 6 % 2 ^ 10 ≠ 0
    (¬ NoHandle → size ≤ free.sum → base % 2 ^ 16 = 0 → Pages → ¬ BadSize → ∃ t g l w, exec (.l2Lease d a b) s = .next t ∧
      g < 64 ∧ s.lease die g = none ∧ t.lease die g = some l ∧
      l.ctx = s.task.ctx ∧ l.base = base ∧ l.size = size ∧ l.expiry = s.tick + life ∧ l.frames.length = 16 * size ∧
      (∀ k, k < 16 * size → LeasePage s (base + k * 2 ^ 16) (l.frames.getD k 0)) ∧ l.units = placeUnits size free ∧
      (∀ k, k ≠ g → t.lease die k = s.lease die k) ∧
      t.str.flights = s.str.flights ++ [landing (s.task.lat 4) w (.regs [(d, BitVec.ofNat 64 (g * 256))]) s] ∧ SameMemory s t) ∧
    (NoHandle ∨ free.sum < size ∨ base % 2 ^ 16 ≠ 0 ∨ ¬ Pages ∨ BadSize → ∃ t v w, exec (.l2Lease d a b) s = .next t ∧
      ((v = 1 ∧ NoHandle) ∨ (v = 2 ∧ free.sum < size) ∨ (v = 3 ∧ (base % 2 ^ 16 ≠ 0 ∨ ¬ Pages)) ∨ (v = 4 ∧ BadSize)) ∧
      t.str.flights = s.str.flights ++ [landing (s.task.lat 4) w (.regs [(d, BitVec.ofNat 64 v)]) s] ∧ t.dies = s.dies ∧ SameMemory s t) ∧
    ((∀ l, ¬ Holds s h l) → Asks (.l2Rel d a) (.regs [(d, 5)]) s ∧ Asks (.l2Stat d a) (.regs [(d, 0)]) s) ∧
    (∀ l, Holds s h l → Asks (.l2Stat d a) (.regs [(d, BitVec.ofNat 64 l.expiry)]) s ∧
      (∃ t w, exec (.l2Rel d a) s = .next t ∧ t.lease die h = none ∧ (∀ k, k ≠ h → t.lease die k = s.lease die k) ∧
        t.str.flights = s.str.flights ++ [landing (s.task.lat 4) w (.regs [(d, 0)]) s] ∧ SameMemory s t) ∧
      ((s.reg b).toNat ≠ 0 → (s.reg b).toNat < 2 ^ 48 → ∃ t w, exec (.l2Renew d a b) s = .next t ∧
        t.lease die h = some { l with expiry := s.tick + (s.reg b).toNat } ∧ (∀ k, k ≠ h → t.lease die k = s.lease die k) ∧
        t.str.flights = s.str.flights ++ [landing (s.task.lat 4) w (.regs [(d, 0)]) s] ∧ SameMemory s t))

open Sys2Proof Machine Claim in
/-- `l2.dot` takes the next number of its counter and waits among the task's operations with the leases its context holds (R252). The
cache maintenance forms take a number and clean or remove the L1 lines of their range, those of level 2 the lines of their home slices
too, where a leased line stays pinned; prefetches change no register, no memory and only the caches, that of L2 no L1 line (R255,
R256). -/
def Obligations.SliceDotMaintenanceAndPrefetch : Prop :=
  (∀ (n a : Nat) (tl : Tl) (s : State), s.resident = true → s.poison = [] → s.task.tls[n]? = some tl →
    ∃ t held, exec (.l2Dot n a) s = .next t ∧ (∀ h l, (h, l) ∈ held ↔ h < 64 ∧ Holds s h l) ∧
      t.task.ldots = s.task.ldots ++ [{ tl := n, num := tl.count + 1, va := (s.reg a).toNat, held := held, seq := s.task.c.seq }] ∧
      t.task.tls = s.task.tls.set n (counted tl) ∧
      (.timelineMarkAdvance, { unit := s.cur.core, k := n, n := tl.count + 1, v := s.task.id }) ∈ t.agenda ∧
      t.str = s.str ∧ SameMemory s t) ∧
  (∀ (i : Instr) (l2 inv : Bool) (n a b : Nat) (tl : Tl) (s : State), maintainRow i = some (l2, inv, n, a, b) → s.resident = true → s.poison = [] →
    s.task.tls[n]? = some tl →
    let range := rangeLines s (s.reg a).toNat (s.reg b).toNat
    let lines := range.map (·.1 / 128)
    ((s.reg b).toNat < 2 ^ 32 → ∃ t, exec i s = .next t ∧ t.task.tls = s.task.tls.set n (counted tl) ∧
      (.timelineMarkAdvance, { unit := s.cur.core, k := n, n := tl.count + 1, v := s.task.id }) ∈ t.agenda ∧
      (∀ l, (l, true) ∈ t.curCore.l1 ↔ (l, true) ∈ s.curCore.l1 ∧ l ∉ lines) ∧
      (∀ l, (∃ d, (l, d) ∈ t.curCore.l1) ↔ (∃ d, (l, d) ∈ s.curCore.l1) ∧ (inv = true → l ∉ lines)) ∧
      (l2 = true → ∀ p ∈ range, (p.1 / 128, true) ∉ (t.die (homeDie p.1)).l2 ∧
        (inv = true → leaseSlice s p.1 = none → (p.1 / 128, false) ∉ (t.die (homeDie p.1)).l2)) ∧
      t.str = s.str ∧ SameMemory s t) ∧
    (2 ^ 32 ≤ (s.reg b).toNat → exec i s = .next (illegal .c03 s))) ∧
  (∀ (i : Instr) (a b : Nat) (s : State), i = .l2PfL1 a b ∨ i = .l2PfL2 a b → s.resident = true → s.poison = [] →
    let lines := (rangeLines s (s.reg a).toNat ((s.reg b).toNat % 2 ^ 32)).map (·.1 / 128)
    ∃ t, exec i s = .next t ∧ t.task = s.task ∧ t.agenda = s.agenda ∧ SameMemory s t ∧ (i = .l2PfL2 a b → t.curCore.l1 = s.curCore.l1) ∧
      (∀ l d, (l, d) ∈ t.curCore.l1 → (∃ d', (l, d') ∈ s.curCore.l1) ∨ l ∈ lines) ∧
      ∀ k l d, (l, d) ∈ (t.die k).l2 → (∃ d', (l, d') ∈ (s.die k).l2) ∨ l ∈ lines ∨ ∃ d', (l, d') ∈ s.curCore.l1)

open Sys2Proof Machine Claim in
/-- An arrival at a gang barrier is counted once per phase when what it covers is performed, the last one expected ends the
phase, and a wait ends when the phase that the task's latest arrival had at the wait's issue is over, seeing the predicates that the arrivals covered (R143 to R146).
`fence.tlw` goes on when the counter's mark has reached the number in its register, and is frozen with cause 9 before (R219).
The arming instructions append one action to the task's pool with the operands they read at issue (R220, R222); a full pool and
bad fields take their ordering faults, a misaligned address the alignment fault, a page that refuses a store its own. -/
def Obligations.BarrierTimelineWaitsAndArmedActions : Prop :=
  (∀ (g : Guard) (n : Nat) (s : State), Issues g s →
     let i := s.task.bars.getD n 0
     let b := s.gbar i
     (s.task.bars.length ≤ n → ∀ ins ∈ [Instr.gbArr g n, .gbWait g n], exec ins s = .next (fault 0x0D 0x01 0 (guardRead g s).2)) ∧
     (n < s.task.bars.length → s.str.redo = false → s.mine n = some b.phase → exec (.gbArr g n) s = .next (fault 0x0D 0x02 0 (guardRead g s).2)) ∧
     (n < s.task.bars.length → s.mine n ≠ some b.phase → covered s.str = true → b.owner ≠ 0 → ∃ t, exec (.gbArr g n) s = .next t ∧
       (b.arrived + 1 = b.expected →
         t.gbar i = { b with arrived := 0, phase := b.phase + 1, expected := b.expected - b.next, next := 0 }) ∧
       (b.arrived + 1 ≠ b.expected → t.gbar i = { b with arrived := b.arrived + 1 }) ∧
       t.task.mine = s.task.mine.set n (some b.phase) ∧ t.str = { s.str with seen := t.str.seen } ∧ SameMemory s t) ∧
     (n < s.task.bars.length → s.mine n ≠ some b.phase → covered s.str = false → ∃ t, exec (.gbArr g n) s = .next t ∧ t.str.frozen = some 9 ∧
       t.gbar i = b ∧ SameMemory s t) ∧
     (n < s.task.bars.length → s.str.redo = false → s.mine n ≠ some b.phase → covered s.str = true → b.owner ≠ 0 → (s.task.mine[n]?).isSome = true →
       b.arrived + 1 = b.expected → ∃ t, exec (.gbSync g n) s = .next t ∧ (t.gbar i).phase = b.phase + 1 ∧ t.str.frozen = s.str.frozen ∧
         SeesCovered s.cur.st.num (64 + n) t ∧ SameMemory s t) ∧
     (n < s.task.bars.length → ∀ ph, s.awaited n = some ph → ph < b.phase → ∃ t, exec (.gbWait g n) s = .next t ∧ t.str.frozen = s.str.frozen ∧
       SeesCovered s.cur.st.num (64 + n) t ∧ t.dies = s.dies ∧ SameMemory s t) ∧
     (n < s.task.bars.length → ∀ ph, s.awaited n = some ph → b.phase ≤ ph → ∃ t, exec (.gbWait g n) s = .next t ∧ t.str.frozen = some 7 ∧
       t.str.redo = true ∧ t.awaited n = some ph ∧ SameMemory s t) ∧
     (s.str.redo = false → s.awaited n = s.mine n)) ∧
  (∀ (g : Guard) (n sc r : Nat) (s : State), Issues g s → Clean [r] s →
     ((s.reg r).toNat ≤ (s.tl n).mark → exec (.fenceTlw g n sc r) s = .next (guardRead g s).2) ∧
     ((s.tl n).mark < (s.reg r).toNat → ∃ t, exec (.fenceTlw g n sc r) s = .next t ∧ t.str.frozen = some 9 ∧ SameMemory s t)) ∧
  (∀ (n a b : Nat) (s : State), s.resident = true → s.poison = [] →
     let thr := (s.reg a).toNat
     let w := (s.reg b).toNat
     let put (k : ArmKind) (p : List Arm) : List Arm := p ++ [{ tl := n, thr := thr, kind := k, late := decide (thr ≤ (s.tl n).mark), seq := s.task.c.seq }]
     let goodSig := w / 2 ^ 16 % 2 ^ 10 ≠ 0 ∧ w / 2 ^ 6 % 2 ^ 10 = 0 ∧ w / 2 ^ 26 = 0
     (s.task.armed.length < 32 → goodSig → ∃ t, exec (.fenceArmSig n a b) s = .next t ∧
       t.task.armed = put (.sig (w % 2 ^ 6) (w / 2 ^ 16 % 2 ^ 10)) s.task.armed ∧ t.str = s.str ∧ SameMemory s t) ∧
     (¬ goodSig → exec (.fenceArmSig n a b) s = .next (fault 0x0F 0x03 0 s)) ∧
     (s.task.armed.length < 32 → ∃ t, exec (.fenceArmTrig n a b) s = .next t ∧ t.task.armed = put (.trig w) s.task.armed ∧ t.str = s.str ∧ SameMemory s t) ∧
     (32 ≤ s.task.armed.length → exec (.fenceArmTrig n a b) s = .next (fault 0x0F 0x02 0 s) ∧
       (goodSig → exec (.fenceArmSig n a b) s = .next (fault 0x0F 0x02 0 s))) ∧
     (w % 8 ≠ 0 → exec (.fenceArmWr n a b) s = .next (faultAfter 0x02 0 w s)) ∧
     (∀ p, w % 8 = 0 → xlate w s = .page p → refusedBy p = none → s.task.armed.length < 32 → ∃ t, exec (.fenceArmWr n a b) s = .next t ∧
       t.task.armed = put (.wr p.pa (s.reg (b + 1)).toNat) s.task.armed ∧ t.str.regs = s.str.regs ∧ t.str.flights = s.str.flights ∧ SameMemory s t) ∧
     (∀ p c, w % 8 = 0 → xlate w s = .page p → refusedBy p = some c → ∃ t, exec (.fenceArmWr n a b) s = .next t ∧ Stopped .never { cls := c, addr := w } s t) ∧
     (∀ p, w % 8 = 0 → xlate w s = .page p → refusedBy p = none → 32 ≤ s.task.armed.length →
       ∃ t, exec (.fenceArmWr n a b) s = .next t ∧ Stopped .never { cls := 0x0F, reason := 0x02 } s t))

/-! ### Near-memory and page-manager instructions (R287, R288, R310 to R318, R326 to R347) -/

namespace Sys2Proof.Claim

open Machine

/-- The block forms that wait to be carried out (R315 to R317), and `nm.start` (R312): kind, counter, register. -/
def nmRow : Instr → Option (Nat × Nat × Nat)
  | .nmStart n a => some (0, n, a)
  | .nmColl n a => some (1, n, a)
  | .nmQbc n a => some (2, n, a)
  | .nmWalk n a => some (3, n, a)
  | _ => none

/-- A register names an aligned 64-byte block inside the scratchpad bytes. -/
def BlockReg (s : State) (a : Nat) : Prop :=
  (s.reg a).toNat / 2 ^ 19 = 0 ∧ (s.reg a).toNat % 64 = 0 ∧ (s.reg a).toNat + 64 ≤ s.task.spadBytes

/-- What a `kv` instruction asks its page manager for (R335 to R347): the two register values sent, the block, the IDs named. -/
structure Ask where
  d : Nat
  za : Nat
  zb : Nat
  blk : List Nat
  ids : List Nat

/-- The `kv` instructions, with what must hold of their operands: a good block, or a good list (R337, R341), and the pages of a map
destination accepted (R342). -/
def askRow (s : State) : Instr → Option (Ask × Prop)
  | .kvAlloc d a => some (⟨d, (s.reg a).toNat, 0, blockAt s (s.reg a).toNat, []⟩, BlockReg s a)
  | .kvShare d a => some (⟨d, (s.reg a).toNat, 0, blockAt s (s.reg a).toNat, [(blockAt s (s.reg a).toNat).getD 0 0]⟩, BlockReg s a)
  | .kvMove d a => some (⟨d, (s.reg a).toNat, 0, blockAt s (s.reg a).toNat, [(blockAt s (s.reg a).toNat).getD 0 0]⟩, BlockReg s a)
  | .kvMap d a =>
    let b := blockAt s (s.reg a).toNat
    let r := mapResult s b s.task.spadBytes
    some (⟨d, (s.reg a).toNat, 0, b, [b.getD 0 0]⟩, BlockReg s a ∧
      (r.1 = 0 → (b.getD 4 0) / 2 ^ 56 % 4 = 0 → ∀ va ∈ pagesOf ((b.getD 4 0) % 2 ^ 56) (r.2.map List.length).sum,
        va < 2 ^ 56 ∧ ∃ e, s.utlb.find? (·.hits s.task.ctx va) = some e ∧ refusedBy (e.page va) = none))
  | .kvApp d a b =>
    let l := (List.range (s.reg b).toNat).map fun k => ofBytes ((List.range 8).map fun i => (s.curCore.spadGet ((s.reg a).toNat + (8 * k + i))).toNat)
    some (⟨d, (s.reg a).toNat, (s.reg b).toNat, l, l⟩, 1 ≤ (s.reg b).toNat ∧ (s.reg b).toNat ≤ 1024 ∧ (s.reg a).toNat / 2 ^ 19 = 0 ∧
      (s.reg a).toNat % 8 = 0 ∧ (s.reg a).toNat + 8 * (s.reg b).toNat ≤ s.task.spadBytes)
  | .kvFree d a => some (⟨d, (s.reg a).toNat, 0, [], [(s.reg a).toNat]⟩, True)
  | .kvStatLen d a => some (⟨d, (s.reg a).toNat, 0, [], [(s.reg a).toNat]⟩, True)
  | .kvStatGen d a => some (⟨d, (s.reg a).toNat, 0, [], [(s.reg a).toNat]⟩, True)
  | .kvStatFree d _ => some (⟨d, 0, 0, [], []⟩, True)
  | .kvGen d a b => some (⟨d, (s.reg a).toNat, (s.reg b).toNat, [], [(s.reg a).toNat]⟩, True)
  | _ => none

/-- The packages other than the executing one that are homes of the IDs named, each once (R329). -/
def otherHomes (s : State) (ids : List Nat) : List Nat := ((ids.map fun w => w / 2 ^ 16 % 2 ^ 13).filter (· ≠ pkgOf s.cur.core)).dedup

/-- The remote requests that an operation sends at once (R22, R341): one for each other home, as many as a core may have. -/
def askedAt (s : State) (ids : List Nat) : Nat := min 64 (otherHomes s ids).length

/-- The frames of the map area of `kv.alloc`, translated at issue (R339): none where a page is refused. -/
def mapFrames (s : State) (i : Instr) (k : Ask) : Option (List Nat) :=
  match i with
  | .kvAlloc _ _ => areaFrames s s.cur.core s.task.ctx (k.blk.getD 1 0 % 2 ^ 56)
      (16 * ((k.blk.getD 0 0 % 2 ^ 13 + 63) / 64 + k.blk.getD 0 0 / 2 ^ 32 % 2 ^ 16))
  | _ => none

/-- The operation sent. -/
def sent (s : State) (i : Instr) (k : Ask) : KvOp :=
  { ins := i, za := k.za, zb := k.zb, blk := k.blk, core := s.cur.core, task := s.task.id, fseq := s.str.seq, seq := s.str.seq
    remote := askedAt s k.ids, org := (s.str.cyc, s.str.pc, s.str.word), frames := mapFrames s i k }

/-- The machine with the accesses of an operation's task before it performed for every agent (R135, R334). -/
def released (s : State) (op : KvOp) : State :=
  let t : State := { s with cur := { s.cur with core := op.core, st := .c } }
  { perform 6 (viewAt op.seq t) t with cur := s.cur }

/-- The executing package. -/
def here (s : State) : Pkg := s.pkg (pkgOf s.cur.core)

end Sys2Proof.Claim

open Sys2Proof Machine Claim in
/-- `nm.coll`, `nm.qbc` and `nm.walk` take the next number of their counter and wait with their block, and `nm.start` starts every
loaded channel of its range at the values of its block (R217, R288, R311, R312, R315 to R317); no memory changes. A broken block
takes the descriptor fault of its reason. -/
def Obligations.NearMemoryOperationsAreAccepted : Prop :=
  ∀ (i : Instr) (kind n a : Nat) (tl : Tl) (s : State), nmRow i = some (kind, n, a) → s.resident = true → s.poison = [] →
    s.task.tls[n]? = some tl →
    let b := blockAt s (s.reg a).toNat
    let sp := nmSpan kind b
    let dw (k : Nat) : Nat := b.getD k 0
    let range := (List.range (dw 0 / 2 ^ 16 % 2 ^ 10)).map fun j => chanKey s (dw 0 % 2 ^ 9 + j)
    ((s.reg a).toNat / 2 ^ 19 ≠ 0 → exec i s = .next (fault 0x06 0x01 0 s)) ∧
    (BlockReg s a → ∀ r, nmReason s kind b = some r → exec i s = .next (fault 0x06 r 0 s)) ∧
    (BlockReg s a → nmReason s kind b = none → (sp.2 ≠ 0 → sp.1 / 2 ^ 56 % 4 = 1 → sp.1 % 2 ^ 19 + sp.2 ≤ s.task.spadBytes) →
      (kind ≠ 0 → ∃ t, exec i s = .next t ∧
        t.task.nms = s.task.nms ++ [{ kind := kind, tl := n, num := tl.count + 1, blk := b, seq := s.task.c.seq }] ∧
        t.task.tls = s.task.tls.set n (counted tl) ∧
        (.timelineMarkAdvance, { unit := s.cur.core, k := n, n := tl.count + 1, v := s.task.id }) ∈ t.agenda ∧
        t.str = s.str ∧ SameMemory s t) ∧
      (kind = 0 → (∀ k ∈ range, (s.chan k).state = 1 ∧ (s.chan k).held = false) → ∃ t, exec i s = .next t ∧
        t.task.nms = s.task.nms ++ [{ kind := 0, tl := n, num := tl.count + 1, blk := b, left := range, seq := s.task.c.seq }] ∧
        t.task.tls = s.task.tls.set n (counted tl) ∧
        (∀ k ∈ range, (.nmTableStart, { unit := k }) ∈ t.agenda ∧ (t.chan k).state = 2 ∧ (t.chan k).live = false ∧ (t.chan k).pass = 0 ∧
          (t.chan k).widx = 0 ∧ (t.chan k).round = 0 ∧ (t.chan k).cyc = 0 ∧ (t.chan k).flights = [] ∧ (t.chan k).late = false ∧
          (t.chan k).lp = List.replicate 4 (0, false) ∧ (t.chan k).q = List.replicate 512 0 ∧ (t.chan k).passes = dw 2 % 2 ^ 16 ∧ (t.chan k).fmt = dw 2 / 2 ^ 16 % 2 ^ 4 ∧ (t.chan k).d = dw 2 / 2 ^ 32 % 2 ^ 9 ∧
          (t.chan k).c = dw 3 % 2 ^ 32 ∧ (t.chan k).mask = dw 4 % 2 ^ 16 ∧ (t.chan k).ctr = dw 5 ∧ (t.chan k).owner = s.cur.core ∧
          (t.chan k).tl = n ∧ (t.chan k).num = tl.count + 1 ∧ (t.chan k).table = (s.chan k).table ∧ (t.chan k).out = (s.chan k).out) ∧
        (∀ k, k ∉ range → t.chan k = s.chan k) ∧ t.str = s.str ∧ SameMemory s t))

open Sys2Proof Machine Claim in
/-- The near-memory fences end as an acquire once the stream's stores have left and the commands their bank or channel issued
before are complete, and are frozen with cause 9 before; a compressed page takes its format fault as a load's does, a place outside
the package's HBM the descriptor fault, reason 5 (R124, R287, R313). `nm.ratio` and `nm.stat` land their words (R314, R318). -/
def Obligations.NearMemoryFencesRatioAndStatus : Prop :=
  (∀ (all : Bool) (a : Nat) (p : Page) (s : State), s.resident = true → s.poison = [] → xlate (s.reg a).toNat s = .page p →
    let i := if all then Instr.nmFenceChan a else .nmFenceBank a
    let pkg := pkgOf s.cur.core
    let o := placeOf s p.pa % 2 ^ 45
    let c := s.chan (pkg * 512 + o / 2 ^ 36 * 32 + o / 2 ^ 31 % 32)
    let bank := o % 2 ^ 31 / 1024 % 64
    let n := if s.str.phase = 0 then c.seq else s.str.phase - 1
    let busy : Prop := c.state ≠ 3 ∧ ((∃ f ∈ c.flights, f.seq < n ∧ (all = true ∨ f.bank = bank)) ∨ ∃ m ∈ c.nums, m.seq < n ∧ (all = true ∨ m.bank = bank))
    let good : Prop := pteCmp p.pte = false ∧ pteCf p.pte = false ∧ p.pa / 2 ^ 45 = pkg ∧ p.pa % 2 ^ 45 < hbmTop
    (good → (s.str.phase ≠ 0 ∨ s.str.sbuf = []) → ¬ busy → ∃ t, exec i s = .next t ∧ t.str.frozen = s.str.frozen ∧ t.str.redo = s.str.redo ∧
      t.str.regs = s.str.regs ∧ SameMemory s t) ∧
    (good → (s.str.phase ≠ 0 ∨ s.str.sbuf = []) → busy → ∃ t, exec i s = .next t ∧ t.str.frozen = some 9 ∧ t.str.redo = true ∧
      t.str.phase = n + 1 ∧ SameMemory s t) ∧
    (good → s.str.phase = 0 → s.str.sbuf ≠ [] → ∃ t, exec i s = .next t ∧ t.str.frozen = some 9 ∧ t.str.redo = true ∧ t.str.phase = 0 ∧ SameMemory s t) ∧
    (pteCmp p.pte = true → ∃ t, exec i s = .next t ∧ Stopped .stop { cls := 0x03, addr := (s.reg a).toNat } s t) ∧
    (pteCmp p.pte = false → (pteCf p.pte = true ∨ p.pa / 2 ^ 45 ≠ pkg ∨ hbmTop ≤ p.pa % 2 ^ 45) →
      ∃ t, exec i s = .next t ∧ Stopped .stop { cls := 0x06, reason := 0x05, addr := (s.reg a).toNat } s t)) ∧
  (∀ (d a : Nat) (s : State), s.resident = true → s.poison = [] →
    exec (.nmRatio d a) s = .next (regPending 14 d (BitVec.ofNat 64 ((s.reg a).toNat % 2 ^ 32 * min s.task.nmr 64 / 64)) s) ∧
    (chanMine s ((s.reg a).toNat % 512) = true →
      Asks (.nmStat d a) (.regs [(d, BitVec.ofNat 64 (s.chan (chanKey s ((s.reg a).toNat % 512))).mcst)]) s) ∧
    (chanMine s ((s.reg a).toNat % 512) = false → Asks (.nmStat d a) (.regs [(d, 0)]) s))

open Sys2Proof Machine Claim in
/-- A `kv` instruction sends one operation to its page manager with its operands and block read at issue, and its result is in
flight, due after the latency of class ld, until the reply (R335, R337, R339 to R347); each other home is one unplanned request, of
which a list sends at most 64 at once, and past 64 of the core's it is frozen before its issue with cause 5 (R22, R329, R341).
The page manager carries out an operation that waits for no resumption once the accesses before it are performed and the task's
earlier operations are over: the value is in the flight that waits for it and the operation is gone (R334, R335). Before that it stays
due.
Values of the page manager's operations (R327, R340, R341, R343, R346): lengths, generations, free pairs, a freed sequence, a
generation raised, and an append that adds its count to the length or changes nothing; a manager that is off answers 0x0C, an
unknown sequence 0x02. -/
def Obligations.KvOperationsSendReplyAndGiveValues : Prop :=
  (∀ (i : Instr) (k : Ask) (pre : Prop) (s : State), askRow s i = some (k, pre) → pre → s.resident = true → s.poison = [] →
     (s.curCore.remote + askedAt s k.ids ≤ 64 → ∃ t, exec i s = .next t ∧
       t.str.flights = s.str.flights ++ [landing (s.task.lat 4) 3 (.regs [(k.d, 0)]) s] ∧
       (here t).kvOps = (here s).kvOps ++ [((here s).kvNext, sent s i k)] ∧ (here t).kvNext = (here s).kvNext + 1 ∧
       (.kvOperationComplete, { unit := pkgOf s.cur.core, n := (here s).kvNext }) ∈ t.agenda ∧
       t.curCore.remote = s.curCore.remote + askedAt s k.ids ∧ t.str.regs = s.str.regs ∧ SameMemory s t) ∧
     (64 < s.curCore.remote + askedAt s k.ids → ∃ t, exec i s = .next t ∧ t.str.frozen = some 5 ∧ t.str.redo = s.str.redo ∧
       t.str.flights = s.str.flights ∧ SameMemory s t)) ∧
  (∀ (s : State) (op : KvOp) (x : Task) (f : Flight) (d : Nat) (w : Word64), (s.pkg s.arg.unit).kvOps.find? (fun e => e.1 = s.arg.n) = some (s.arg.n, op) →
     op.pf = none → (s.core op.core).task = some x → x.id = op.task → f ∈ x.c.flights → f.seq = op.fseq → f.land = .regs [(d, w)] →
     let later : Prop := performedBefore x op.seq = false ∨ ∃ e ∈ (s.pkg s.arg.unit).kvOps, e.1 < s.arg.n ∧ e.2.core = op.core ∧ e.2.task = op.task
     let r := kvDo s.arg.unit op s.arg.flag (released s op)
     (¬ later → reachable s s.arg.unit (op.home s.arg.unit * 2 ^ 45) = true → (∀ a b c, op.ins ≠ .kvApp a b c) → (∀ a b, op.ins ≠ .kvMap a b) →
       ∀ x', (r.2.core op.core).task = some x' → x'.id = op.task → x'.c.flights = x.c.flights → ∃ t y, exec .kvOperationComplete s = .next t ∧
       (t.core op.core).task = some y ∧ { f with wait := 0, land := .regs [(d, BitVec.ofNat 64 r.1)] } ∈ y.c.flights ∧
       (∀ e ∈ (t.pkg s.arg.unit).kvOps, e.1 ≠ s.arg.n) ∧ t.mem = r.2.mem) ∧
     (later → ∃ t, exec .kvOperationComplete s = .next t ∧ (.kvOperationComplete, s.arg) ∈ t.agenda ∧ t.pkgs = s.pkgs ∧ SameMemory s t)) ∧
  (∀ (s : State) (op : KvOp) (pkg id : Nat) (ok : Bool), op.za = id → id < 2 ^ 29 →
     let home := s.pkg (seqHome id)
     let e0 := op.zb % 2 ^ 32
     (∀ d a, op.ins = .kvStatFree d a → kvDo pkg op ok s = (((List.range 512).map (freePairs s pkg)).sum, s)) ∧
     (∀ d a, op.ins = .kvStatLen d a ∨ op.ins = .kvStatGen d a →
       (home.kvEn = false → kvDo pkg op ok s = (0x0C * 2 ^ 56, s)) ∧
       (home.kvEn = true → s.seq id = none → kvDo pkg op ok s = (0x02 * 2 ^ 56, s)) ∧
       (home.kvEn = true → ∀ q, s.seq id = some q → kvDo pkg op ok s =
         (if op.ins = .kvStatLen d a then q.n else q.gen + (q.ents.filter fun e => e.2.state = 2 ∨ e.2.state = 3).length * 2 ^ 16, s))) ∧
     (∀ d a, op.ins = .kvFree d a →
       (home.kvEn = false → kvDo pkg op ok s = (0x0C, s)) ∧ (home.kvEn = true → s.seq id = none → kvDo pkg op ok s = (0x02, s)) ∧
       (home.kvEn = true → (s.seq id).isSome = true → (kvDo pkg op ok s).1 = 0 ∧ (kvDo pkg op ok s).2.seq id = none ∧ SameMemory s (kvDo pkg op ok s).2)) ∧
     (∀ d a b, op.ins = .kvGen d a b →
       (home.kvEn = true → ∀ q, s.seq id = some q → op.zb = 0xFFFFFFFF → (kvDo pkg op ok s).1 = (q.gen + 1) % 2 ^ 16 * 2 ^ 16 ∧
         (kvDo pkg op ok s).2.seq id = some { q with gen := (q.gen + 1) % 2 ^ 16 } ∧ SameMemory s (kvDo pkg op ok s).2) ∧
       (home.kvEn = true → ∀ q, s.seq id = some q → op.zb ≠ 0xFFFFFFFF → e0 < q.size → (q.ent e0).state = 3 → (kvDo pkg op ok s).1 = (q.gen + 1) % 2 ^ 16 * 2 ^ 16 ∧
         ∃ q', (kvDo pkg op ok s).2.seq id = some q' ∧ q'.gen = (q.gen + 1) % 2 ^ 16 ∧ q'.n = q.n ∧
           q'.ent e0 = { q.ent e0 with state := 1, mgen := (q.gen + 1) % 2 ^ 16 } ∧ ∀ e, e ≠ e0 → q'.ent e = q.ent e)) ∧
     (∀ (w : Nat) (dry : Bool), let r := appendEntry w dry s
       (r.1 = 0 → ∃ q q', s.seq (w % 2 ^ 32) = some q ∧ r.2.2.seq (w % 2 ^ 32) = some q' ∧ q'.n = q.n + w / 2 ^ 32 % 2 ^ 13 ∧ q'.gen = q.gen ∧
         q'.sink = q.sink ∧ q'.win = q.win ∧ 1 ≤ w / 2 ^ 32 % 2 ^ 13 ∧ w / 2 ^ 32 % 2 ^ 13 ≤ 64 * q.win ∧ r.2.1 = dry) ∧
       (r.1 ≠ 0 → r.2.2 = s) ∧ (r.1 = 1 ↔ r.2.1 = true ∧ (s.pkg (seqHome (w % 2 ^ 32))).kvEn = true)))

/-! ### Plans (R357 to R384) -/

namespace Sys2Proof.Claim

open Machine

/-- Number `n` of a counter is complete. -/
def Done (c : Tl) (n : Nat) : Prop := n ≤ c.mark ∨ n ∈ c.done

/-- The plan that a handle register names, with its number (R357, R384): v = 1, ID and generation current in the executing package,
the plan of the task's context. -/
def Named (s : State) (h x : Nat) (p : Plan) : Prop :=
  (s.h h) / 2 ^ 63 % 2 = 1 ∧ tabGet 0 (here s).plans (s.h h % 2 ^ 16) = x ∧ x ≠ 0 ∧ s.plan x = p ∧ p.gen = s.h h / 2 ^ 16 % 2 ^ 8 ∧ p.ctx = s.task.ctx

/-- The rank of the executing core in a plan (R357). -/
def RankHere (s : State) (p : Plan) (j : Nat) : Prop :=
  ∃ r, p.ranks[j]? = some r ∧ r.pkg * 4096 + r.core = s.cur.core ∧ ∀ i < j, ∀ r', p.ranks[i]? = some r' → r'.pkg * 4096 + r'.core ≠ s.cur.core

/-- A group with an outstanding fault at or above a member (R377). -/
def Faulted (p : Plan) (j it : Nat) (y : Grp) : Prop :=
  y ∈ p.grps ∧ (j, it) ∈ p.members y.q y.g ∧
    ∃ f ∈ y.faults, f ∈ pathUp p.shape (p.members y.q y.g).length (p.members y.q y.g).length (p.itemOf y.q j it).2

/-- A plan as its record and rank table give it (R358 to R360). -/
def recorded (dws tab : List Nat) : Plan := { planHeader dws with ranks := planRanks (planHeader dws) tab (dws.getD 0 0 % 2 ^ 14) }

/-- A plan that a task of the executing core sets up with number `num` of counter `n` (R365). -/
def setUpBy (s : State) (n num : Nat) (p : Plan) : Plan :=
  { p with home := pkgOf s.cur.core, ctx := s.task.ctx, setup := some (s.cur.core, s.task.id, n, num) }

end Sys2Proof.Claim

open Sys2Proof Machine Claim in
/-- `pl.setup` takes a number; a record that is refused lands its reason and is complete at once, and a good one enters the plan as
setting up under a free ID and a new generation in the table of every package of its ranks, lands the handle with class ld and goes
on being set up (R357, R365 to R367). A misaligned record takes the alignment fault. -/
def Obligations.PlanSetupEntersThePlanEverywhere : Prop :=
  ∀ (n h a : Nat) (tl : Tl) (s : State), s.resident = true → s.poison = [] → s.task.tls[n]? = some tl →
    let va := (s.reg a).toNat
    (va % 64 ≠ 0 → exec (.plSetup n a h) s = .next (fault 0x02 0 va s)) ∧
    (va % 64 = 0 → ∀ r, readRecord s va = .error r → ∃ t w, exec (.plSetup n a h) s = .next t ∧ Done (t.tl n) (tl.count + 1) ∧ t.plans = s.plans ∧
      (t.tl n).count = tl.count + 1 ∧ t.str.flights = s.str.flights ++ [landing (s.task.lat 4) w (.hreg h (BitVec.ofNat 64 (r * 2 ^ 48))) s] ∧ SameMemory s t) ∧
    (va % 64 = 0 → ∀ dws tab, readRecord s va = .ok (dws, tab) → planLayoutOk (recorded dws tab) = false → ∃ t w, exec (.plSetup n a h) s = .next t ∧
      Done (t.tl n) (tl.count + 1) ∧ t.plans = s.plans ∧
      t.str.flights = s.str.flights ++ [landing (s.task.lat 4) w (.hreg h (BitVec.ofNat 64 (2 * 2 ^ 48))) s] ∧ SameMemory s t) ∧
    (va % 64 = 0 → ∀ dws tab, readRecord s va = .ok (dws, tab) → planLayoutOk (recorded dws tab) = true →
      let p := setUpBy s n (tl.count + 1) (recorded dws tab)
      (∀ k ∈ p.pkgs, k ≠ pkgOf s.cur.core → k ∈ (here s).reach) → (freePlanId s (pkgOf s.cur.core) p.pkgs).isSome = true →
      ∃ t w id gen rank, exec (.plSetup n a h) s = .next t ∧ t.task.tls = s.task.tls.set n (counted tl) ∧
        t.plan s.nplan = { p with id := id, gen := gen } ∧ id < 2 ^ 16 ∧ gen < 2 ^ 8 ∧
        (∀ k ∈ p.pkgs, tabGet 0 (s.pkg k).plans id = 0 ∧ tabGet 0 (s.pkg k).planGen id ≠ gen ∧ tabGet 0 (t.pkg k).plans id = s.nplan ∧
          tabGet 0 (t.pkg k).planGen id = gen) ∧
        ((∃ j, RankHere s p j ∧ rank = j) ∨ ((∀ j, ¬ RankHere s p j) ∧ rank = 0x3FFF)) ∧
        (.planSetupComplete, { unit := pkgOf s.cur.core, k := s.nplan }) ∈ t.agenda ∧
        t.str.flights = s.str.flights ++ [landing (s.task.lat 4) w (.hreg h (BitVec.ofNat 64 (2 ^ 63 + rank * 2 ^ 32 + gen * 2 ^ 16 + id))) s] ∧ SameMemory s t)

open Sys2Proof Machine Claim in
/-- `pl.fire` queues one trigger for the executing core's rank, or drops it as complete past 255 (R369, R382); `pl.free` ends the
plan in every package, its chunks stay in flight to be dropped (R367), and no memory changes but what its started parts write (R368);
`pl.redo` makes the faults of a member's group wait for the router, which reads the member again, and without a fault is complete at
once (R377). Their checks take the plan fault of their reason and no number (R384).
`pl.stat` lands status, state, faults and rounds of the plan that the handle names, 0 for one that is not current and the reason
of a register that holds no handle (R383); `pl.geth` lands the handle register, `pl.seth` looks a plan up by ID and generation
(R382, R384). -/
def Obligations.PlanFireFreeRedoStatusAndHost : Prop :=
  (∀ (n h a x : Nat) (tl : Tl) (p : Plan) (s : State), s.resident = true → s.poison = [] → s.task.tls[n]? = some tl →
     ((∀ x p, ¬ Named s h x p) → ∀ i ∈ [Instr.plFire n h, .plFree n h, .plRedo n a h], exec i s = .next (fault 0x11 0x01 0 s)) ∧
     (Named s h x p → (∀ j, ¬ RankHere s p j) → exec (.plFire n h) s = .next (fault 0x11 0x02 0 s)) ∧
     (Named s h x p → (p.state = 3 ∨ p.state = 4) → (∀ j, RankHere s p j → exec (.plFire n h) s = .next (fault 0x11 0x04 0 s)) ∧
       exec (.plRedo n a h) s = .next (fault 0x11 0x04 0 s)) ∧
     (∀ j, Named s h x p → RankHere s p j → p.state ≠ 3 → p.state ≠ 4 → (p.rank j).trigs.length < 255 → ∃ t, exec (.plFire n h) s = .next t ∧
       t.task.tls = s.task.tls.set n (counted tl) ∧
       t.plan x = { p with ranks := p.ranks.modify j fun r => { r with trigs := r.trigs ++ [{ op := some (s.task.id, n, tl.count + 1), seq := s.task.c.seq }] } } ∧
       (.planPartStart, { unit := (p.rank j).pkg, k := x, j := j }) ∈ t.agenda ∧ t.str = s.str ∧ SameMemory s t) ∧
     (∀ j, Named s h x p → RankHere s p j → p.state ≠ 3 → p.state ≠ 4 → 255 ≤ (p.rank j).trigs.length → ∃ t, exec (.plFire n h) s = .next t ∧
       t.plans = s.plans ∧ (t.tl n).count = tl.count + 1 ∧ Done (t.tl n) (tl.count + 1) ∧ t.str = s.str ∧ SameMemory s t) ∧
     (Named s h x p → ∃ t, exec (.plFree n h) s = .next t ∧ (t.tl n).count = tl.count + 1 ∧ t.plan x = {} ∧
       (∀ k ∈ p.pkgs, tabGet 0 (t.pkg k).plans p.id = 0) ∧ t.chunks = s.chunks ∧
       (.timelineMarkAdvance, { unit := s.cur.core, k := n, n := tl.count + 1, v := s.task.id }) ∈ t.agenda ∧ t.str = s.str ∧
       ∀ m, (∀ b ∈ p.openBytes, placeOf s b ≠ m) → Memory.get t.mem m = Memory.get s.mem m) ∧
     (let j := (s.reg a).toNat % 2 ^ 14
      let it := (s.reg a).toNat / 2 ^ 16 % 2 ^ 24
      let good : Prop := (s.reg a).toNat / 2 ^ 14 % 4 = 0 ∧ (s.reg a).toNat / 2 ^ 40 = 0 ∧ j < p.ranks.length
      Named s h x p → p.state ≠ 3 → p.state ≠ 4 →
       (¬ good → exec (.plRedo n a h) s = .next (fault 0x11 0x05 0 s)) ∧
       (good → (∀ y, ¬ Faulted p j it y) → ∃ t, exec (.plRedo n a h) s = .next t ∧ t.task.tls = s.task.tls.set n (counted tl) ∧ t.plans = s.plans ∧
         t.chunks = s.chunks ∧ (.timelineMarkAdvance, { unit := s.cur.core, k := n, n := tl.count + 1, v := s.task.id }) ∈ t.agenda ∧ t.str = s.str ∧ SameMemory s t) ∧
       (good → ∀ y, Faulted p j it y → (∀ y', Faulted p j it y' → y' = y) → p.grp y.q y.g = y → ∃ t, exec (.plRedo n a h) s = .next t ∧
         let z := (t.plan x).grp y.q y.g
         let up := pathUp p.shape (p.members y.q y.g).length (p.members y.q y.g).length (p.itemOf y.q j it).2
         t.task.tls = s.task.tls.set n (counted tl) ∧ t.chunks = s.chunks ∧ z.redos = y.redos ++ [(s.cur.core, s.task.id, n, tl.count + 1)] ∧
         (∀ f, f ∈ z.faults ↔ f ∈ y.faults ∧ f ∉ up) ∧ (∀ e, e ∈ z.ins ↔ e ∈ y.ins ∧ e.1 ∉ up) ∧
         (.planPartStart, { unit := (p.rank j).pkg, k := x, j := j, n := y.q * 2 ^ 32 + it, flag := false }) ∈ t.agenda ∧ t.str = s.str ∧ SameMemory s t))) ∧
  (∀ (d h a : Nat) (s : State), s.resident = true → s.poison = [] →
     let w := s.h h
     let x := tabGet 0 (here s).plans (w % 2 ^ 16)
     let stat (v : Nat) : Prop := ∃ t u, exec (.plStat d h) s = .next t ∧
       t.str.flights = s.str.flights ++ [landing (s.task.lat 4) u (.regs [(d, BitVec.ofNat 64 v)]) s] ∧ t.plans = s.plans ∧ SameMemory s t
     (w / 2 ^ 63 % 2 = 0 → stat (w / 2 ^ 48 % 2 ^ 8 * 2 ^ 56)) ∧
     (w / 2 ^ 63 % 2 = 1 → x = 0 ∨ (s.plan x).gen ≠ w / 2 ^ 16 % 2 ^ 8 → stat 0) ∧
     (∀ j, w / 2 ^ 63 % 2 = 1 → x ≠ 0 → (s.plan x).gen = w / 2 ^ 16 % 2 ^ 8 → RankHere s (s.plan x) j →
       stat ((s.plan x).status * 2 ^ 56 + (s.plan x).state * 2 ^ 52 + (s.plan x).flt * 2 ^ 32 + ((s.plan x).rank j).done % 2 ^ 32)) ∧
     exec (.plGeth d h) s = .next (regPending 14 d (BitVec.ofNat 64 w) s) ∧
     (let za := (s.reg a).toNat
      let y := tabGet 0 (here s).plans (za % 2 ^ 16)
      (za / 2 ^ 24 ≠ 0 → exec (.plSeth a h) s = .next (fault 0x11 0x05 0 s)) ∧
      (za / 2 ^ 24 = 0 → y = 0 ∨ (s.plan y).gen ≠ za / 2 ^ 16 ∨ (s.plan y).ctx ≠ s.task.ctx →
        Asks (.plSeth a h) (.hreg h (BitVec.ofNat 64 (0x0C * 2 ^ 48))) s) ∧
      (∀ j, za / 2 ^ 24 = 0 → y ≠ 0 → (s.plan y).gen = za / 2 ^ 16 → (s.plan y).ctx = s.task.ctx → RankHere s (s.plan y) j →
        Asks (.plSeth a h) (.hreg h (BitVec.ofNat 64 (2 ^ 63 + j * 2 ^ 32 + (s.plan y).gen * 2 ^ 16 + (s.plan y).id))) s)))

/-! ### Bank commands (R286 to R309) -/

namespace Sys2Proof.Claim

open Machine

/-- A result of the executing command, due n cycles from its own (R291). -/
def bflight (s : State) (n os bank : Nat) (l : BLand) : BFlight :=
  { due := s.curChan.cyc + n, seq := s.curChan.seq, os := os, bank := bank, land := l }

/-- A bank of the executing channel. -/
def bankOf (s : State) (b : Nat) : Bank := s.curChan.bank b

/-- No bank but these differs, nor the channel's table, output, slots, cursor and query buffer. -/
def OtherBanks (l : List Nat) (s t : State) : Prop :=
  (∀ b, b ∉ l → bankOf t b = bankOf s b) ∧ t.curChan.table = s.curChan.table ∧ t.curChan.out = s.curChan.out ∧ t.curChan.ms = s.curChan.ms ∧
    t.curChan.cur = s.curChan.cur ∧ t.curChan.q = s.curChan.q ∧ t.curChan.cyc = s.curChan.cyc ∧ t.curChan.widx = s.curChan.widx

/-- An activation in cycle k does something (R293): no row open, 12 cycles after a precharge, 160 after a refresh. -/
def Opens (x : Bank) (k : Nat) : Prop :=
  x.openAt k = none ∧ (∀ p, x.pre = some p → p + 12 ≤ k) ∧ ∀ p, x.ref = some p → p + 160 ≤ k

/-- A bank after an activation. -/
def Activated (x y : Bank) (k row : Nat) : Prop :=
  (Opens x k → y = { x with row := some row, act := some k, pre := none }) ∧ (¬ Opens x k → y = x)

/-- An access in cycle k reaches row r (R293): open for 12 cycles, named by the command or any, 2 cycles after the last access. -/
def Reaches (x : Bank) (k row r : Nat) : Prop :=
  x.openAt k = some r ∧ (∀ p, x.act = some p → p + 12 ≤ k) ∧ (∀ p, x.acc = some p → p + 2 ≤ k) ∧ (row = 0x8000 ∨ row = r)

/-- The bytes that a command reads of its row, zeros where no row is reached (R293). -/
def Row (s : State) (b row o n : Nat) (data : List Nat) : Prop :=
  (∀ r, Reaches (bankOf s b) s.curChan.cyc row r →
    data = (List.range n).map fun i => (Memory.get s.mem (chanLoc s.cur.chan (r * 65536 + b * 1024 + (o + i)))).toNat) ∧
  ((∀ r, ¬ Reaches (bankOf s b) s.curChan.cyc row r) → data = List.replicate n 0)

/-- The counter that an ordering stream of the executing channel is bound to (R309). -/
def boundTo (s : State) (os : Nat) : Option Nat :=
  if s.curChan.mask / 2 ^ os % 2 = 1 then some (s.curChan.ctr / 16 ^ os % 16) else none

/-- The executing command is numbered, its own effect complete in n cycles (R309): on a bound counter of the task that started the table,
where it is resident, it takes the next number. -/
def Numbered (n os bank : Nat) (s t : State) : Prop :=
  ∃ m : BNum, t.curChan.nums = s.curChan.nums ++ [m] ∧ m.os = os ∧ m.tl = boundTo s os ∧ m.due = s.curChan.cyc + n ∧ m.seq = s.curChan.seq ∧ m.bank = bank ∧
    ∀ k x c, boundTo s os = some k → (s.core s.curChan.owner).task = some x → x.id = s.curChan.task → x.tls[k]? = some c →
      m.num = c.count + 1 ∧ ∃ y, (t.core s.curChan.owner).task = some y ∧ y = { x with tls := x.tls.set k (counted c) }

/-- No command was numbered. -/
def NoNumber (s t : State) : Prop := t.curChan.nums = s.curChan.nums ∧ t.cores.map Prod.fst = s.cores.map Prod.fst ∧ ∀ k, (t.core k).task = (s.core k).task

end Sys2Proof.Claim

open Sys2Proof Machine Claim in
/-- The commands that read a row or a query slot land what R299, R302 and R305 give with their latency: the row's bytes where R293 is
met and zeros where it is not; a bank that has no page, or too few tokens, skips. No byte of memory changes. -/
def Obligations.BankReadingCommands : Prop :=
  ∀ s : State, s.poison = [] → let o := s.bop; let c := s.curChan; let x := bankOf s o.b
    let slot := o.col / 8 % 4; let half := o.col / 128 % 2
    (∃ t data, exec .bscl s = .next t ∧ Row s o.b o.r (32 * (o.col % 32)) 32 data ∧
      t.curChan.flights = c.flights ++ [bflight s 2 o.os o.b (.br o.b (o.col / 32 % 4) (BitVec.ofNat 256 (ofBytes data)))] ∧
      bankOf t o.b = { x with acc := some c.cyc } ∧ OtherBanks [o.b] s t ∧ NoNumber s t ∧ SameMemory s t) ∧
    (x.nul = false → slot < x.lim → ∃ t data, exec .bdot s = .next t ∧ Row s o.b o.r (256 * slot) 256 data ∧
      t.curChan.flights = c.flights ++ [bflight s 8 o.os o.b (.dot o.b (slotDot c x half data x.dot))] ∧
      bankOf t o.b = { x with acc := some c.cyc } ∧ OtherBanks [o.b] s t ∧ NoNumber s t ∧ SameMemory s t) ∧
    (x.nul = false → slot < x.lim → ∃ t data, exec .bwacc s = .next t ∧ Row s o.b o.r (256 * slot) 256 data ∧
      t.curChan.flights = c.flights ++ [bflight s 8 o.os o.b (.acc o.b
        (((valueElems c x half data).filter fun e => e.1 < c.d).map fun e => (e.1, weigh x.w (tabGet 0 x.a e.1) e.2)))] ∧
      bankOf t o.b = { x with acc := some c.cyc } ∧ OtherBanks [o.b] s t ∧ NoNumber s t ∧ SameMemory s t) ∧
    (x.nul = true ∨ x.lim ≤ slot →
      (∃ t, exec .bdot s = .next t ∧ t.curChan.flights = c.flights ++ [bflight s 8 o.os o.b (.sk o.b true)] ∧
        bankOf t o.b = { x with acc := some c.cyc } ∧ OtherBanks [o.b] s t ∧ NoNumber s t ∧ SameMemory s t) ∧
      (∃ t, exec .bwacc s = .next t ∧ t.curChan.flights = c.flights ∧ bankOf t o.b = { x with acc := some c.cyc } ∧ OtherBanks [o.b] s t ∧
        NoNumber s t ∧ SameMemory s t)) ∧
    (let q := c.query (if o.q / 8 % 2 = 1 then (o.q + c.pass) % 8 else o.q % 8)
     ∃ t, exec .bqld s = .next t ∧ t.curChan.flights = c.flights ++ [bflight s 4 16 64 (.query (q.take 512) (q.drop 512))] ∧ OtherBanks [] s t ∧
      NoNumber s t ∧ SameMemory s t)

open Sys2Proof Machine Claim in
/-- `bemit`, `bwbc`, `bmx` and `bclr` land what the bank units and slots hold (R300, R301, R303, R305); an emit to the output area and
`bmx` are numbered, and past its 4,096 words they write nothing and set the overflow bit (R298, R309).
`bwr` and `bwra` write a bank register or the accumulator vector to the row they name where R293 is met, and nothing where it is
not; every other byte of memory stays, and no L2 copy of what they write is left but a pinned one (R229); both are numbered and
complete in their own cycle (R306, R309). -/
def Obligations.BankUnitAndWritingCommands : Prop :=
  (∀ s : State, let o := s.bop; let c := s.curChan; let x := bankOf s o.b
     let v : Option Nat := if x.sk = true then none else some (mul32 x.dot c.c).1
     let f := (if x.abs = true then 2 ^ 31 else 0) + (if x.stl = true then 2 ^ 30 else 0)
     let first := [bflight s 1 o.os o.b (.dot o.b 0x80000000), bflight s 1 o.os o.b (.sk o.b false)]
     (o.col / 64 % 2 = 0 → ∃ t, exec .bemit s = .next t ∧ t.curChan.flights = c.flights ++ first ++ [bflight s 6 o.os o.b (.emit (o.col % 64) v f)] ∧
       OtherBanks [] s t ∧ NoNumber s t ∧ SameMemory s t) ∧
     (o.col / 64 % 2 = 1 → c.cur < 4096 → ∃ t, exec .bemit s = .next t ∧ t.curChan.flights = c.flights ++ first ++
       [bflight s 6 o.os o.b (.out c.cur [v.getD 0x7FC00000]), bflight s 1 o.os o.b (.cursor (c.cur + 1))] ∧
       OtherBanks [] s t ∧ Numbered 6 o.os o.b s t ∧ SameMemory s t) ∧
     (o.col / 64 % 2 = 1 → 4096 ≤ c.cur → ∃ t, exec .bemit s = .next t ∧ t.curChan.flights = c.flights ++ first ∧ t.curChan.ovf = true ∧
       OtherBanks [] s t ∧ Numbered 0 o.os o.b s t ∧ SameMemory s t) ∧
     (let y := c.slot o.b
      let special (v : Nat) : Prop := (unpack fp32 v).isNan = true ∨ v = 0x7F800000
      ∃ t w m u st, exec .bwbc s = .next t ∧ OtherBanks [] s t ∧ NoNumber s t ∧ SameMemory s t ∧
       t.curChan.flights = c.flights ++ [bflight s 1 16 o.b (.taken o.b), bflight s 10 16 o.b (.slot o.b m u st), bflight s 10 16 o.b (.weight o.b w)] ∧
       (y.pend = none → w = .skip ∧ m = y.m ∧ u = y.s ∧ st = mergeStatus y.st y.pfl) ∧
       (∀ p, y.pend = some p → st = mergeStatus (mergeStatus y.st y.pfl) 1) ∧
       (∀ p, y.pend = some p → y.m = 0xFF800000 → w = .replace ∧ m = p ∧ u = 0x3F800000) ∧
       (∀ p, y.pend = some p → y.m ≠ 0xFF800000 → p = 0xFF800000 → w = .skip ∧ m = y.m ∧ u = y.s) ∧
       (∀ p, y.pend = some p → y.m ≠ 0xFF800000 → p ≠ 0xFF800000 → (special y.m ∨ special p) → w = .nan ∧ m = 0x7FC00000 ∧ u = 0x7FC00000) ∧
       (∀ p, y.pend = some p → y.m ≠ 0xFF800000 → p ≠ 0xFF800000 → ¬ special y.m → ¬ special p →
         let e1 := (exp2_32 (sub32 y.m m).1).1
         let e2 := (exp2_32 (sub32 p m).1).1
         m = (maxNum32 y.m p).1 ∧ w = .scale e1 e2 ∧ u = (fma32 0x3F800000 e2 (mul32 y.s e1).1).1)) ∧
     (c.cur + c.d + 3 ≤ 4096 → ∃ t, exec .bmx s = .next t ∧ t.curChan.flights = c.flights ++ [bflight s 1 o.os 64 .flush,
       bflight s 80 o.os 64 (.out c.cur (channelTriple c)), bflight s 1 o.os 64 (.cursor (c.cur + c.d + 3))] ∧ OtherBanks [] s t ∧
       Numbered 80 o.os 64 s t ∧ SameMemory s t) ∧
     (4096 < c.cur + c.d + 3 → ∃ t, exec .bmx s = .next t ∧ t.curChan.flights = c.flights ++ [bflight s 1 o.os 64 .flush] ∧ t.curChan.ovf = true ∧
       OtherBanks [] s t ∧ Numbered 0 o.os 64 s t ∧ SameMemory s t) ∧
     (∃ t, exec .bclr s = .next t ∧ OtherBanks [] s t ∧ NoNumber s t ∧ SameMemory s t ∧
       t.curChan.flights = c.flights ++ [if o.all = 1 then bflight s 1 16 64 (.clear none) else bflight s 1 16 o.b (.clear (some o.b))])) ∧
  (∀ s : State, let o := s.bop; let x := bankOf s o.b
     let rows : List (Instr × Nat × List Nat) := [(.bwr, 32 * (o.col % 32), toBytes 32 ((x.br.getD 3 0).toNat)),
       (.bwra, 0, bytes32 ((List.range 256).map (tabGet 0 x.a)))]
     ∀ e ∈ rows, ∃ t, exec e.1 s = .next t ∧ Numbered 0 o.os o.b s t ∧ t.curChan.flights = s.curChan.flights ∧
       bankOf t o.b = { x with acc := some s.curChan.cyc } ∧ OtherBanks [o.b] s t ∧
       ((∀ r, ¬ Reaches x s.curChan.cyc o.r r) → SameMemory s t) ∧
       (∀ r, Reaches x s.curChan.cyc o.r r →
         let at' := chanLoc s.cur.chan (r * 65536 + o.b * 1024 + e.2.1)
         (∀ i, 32 * i < e.2.2.length → let pa := chanAddr s s.cur.chan (r * 65536 + o.b * 1024 + e.2.1 + 32 * i)
           leaseSlice s pa = none → l2Has t pa = false) ∧
         ∀ a, Memory.get t.mem a = if at' ≤ a ∧ a < at' + e.2.2.length then BitVec.ofNat 8 (e.2.2.getD (a - at') 0) else Memory.get s.mem a))

open Sys2Proof Machine Claim in
/-- `bact`, `bpre`, `bpra`, `bref` and `bwact` act on the rows of their banks in their own cycle (R293): an activation that comes too
early is ignored, a precharge takes effect 28 cycles after the activation at the earliest. `bact` and `bwact` land the page flags a
cycle later (R307). `bnop` does nothing (R308). No byte of memory changes.
`bwadv` lands a walk pointer; `bloop` counts and goes to its target until its counter runs out, `bjmp` always goes; `bsync` is
numbered and complete with what its ordering stream has in flight; `bend` ends the pass, the next one no earlier than its length
allows, and after a short pass all banks are closed (R290, R307 to R309). No byte of memory changes. -/
def Obligations.BankRowAndControlCommands : Prop :=
  (∀ s : State, let o := s.bop; let k := s.curChan.cyc
     exec .bnop s = .next s ∧
     (∃ t, exec .bact s = .next t ∧ Activated (bankOf s o.b) (bankOf t o.b) k o.r ∧ OtherBanks [o.b] s t ∧
       t.curChan.flights = s.curChan.flights ++ [bflight s 1 16 o.b (.page o.b false false false 4)] ∧ NoNumber s t ∧ SameMemory s t) ∧
     (∃ t, exec .bpre s = .next t ∧ OtherBanks [o.b] s t ∧ t.curChan.flights = s.curChan.flights ∧ NoNumber s t ∧ SameMemory s t ∧
       ((bankOf s o.b).openAt k ≠ none → (bankOf s o.b).pre = none →
         bankOf t o.b = { bankOf s o.b with pre := some (max k (((bankOf s o.b).act.map (· + 28)).getD 0)) }) ∧
       ((bankOf s o.b).openAt k = none ∨ (bankOf s o.b).pre ≠ none → bankOf t o.b = bankOf s o.b)) ∧
     (∃ t, exec .bpra s = .next t ∧ t.curChan.flights = s.curChan.flights ∧ NoNumber s t ∧ SameMemory s t ∧ (∀ b, b < 64 →
       ((bankOf s b).openAt k ≠ none → (bankOf s b).pre = none →
         bankOf t b = { bankOf s b with pre := some (max k (((bankOf s b).act.map (· + 28)).getD 0)) }) ∧
       ((bankOf s b).openAt k = none ∨ (bankOf s b).pre ≠ none → bankOf t b = bankOf s b))) ∧
     (∃ t, exec .bref s = .next t ∧ bankOf t o.b = { bankOf s o.b with ref := some k } ∧ OtherBanks [o.b] s t ∧
       t.curChan.flights = s.curChan.flights ∧ NoNumber s t ∧ SameMemory s t) ∧
     (s.poison = [] → let e := s.curChan.entry o.wk
       ∃ t, exec .bwact s = .next t ∧ OtherBanks [o.b] s t ∧ NoNumber s t ∧ SameMemory s t ∧
         (e / 2 ^ 29 % 8 ≠ 0 → bankOf t o.b = bankOf s o.b ∧ t.curChan.flights = s.curChan.flights ++
           [bflight s 1 16 o.b (.page o.b true (decide (e / 2 ^ 30 % 2 = 1)) (decide (e / 2 ^ 29 % 2 = 1)) (bankOf s o.b).lim)]) ∧
         (e / 2 ^ 29 % 8 = 0 → Activated (bankOf s o.b) (bankOf t o.b) k (e % 2 ^ 15) ∧ t.curChan.flights = s.curChan.flights ++
           [bflight s 1 16 o.b (.page o.b false false false (min 4 (min (e / 2 ^ 16 % 2 ^ 7) 64 - 4 * (o.b % 16))))]))) ∧
  (∀ s : State, let o := s.bop; let c := s.curChan
     (∃ t, exec .bwadv s = .next t ∧ OtherBanks [] s t ∧ NoNumber s t ∧ SameMemory s t ∧
       t.curChan.flights = c.flights ++ [bflight s 1 16 64 (.ptr (o.wk % 16) (((c.walkReg (o.wk % 16)).ptr + o.wk / 16) % 65536))]) ∧
     (∀ l, c.lp[o.lp]? = some l → let n := if l.2 = true then l.1 else o.cnt
       ∃ t, exec .bloop s = .next t ∧ OtherBanks [] s t ∧ NoNumber s t ∧ SameMemory s t ∧
         (1 < n → t.curChan.lp = c.lp.set o.lp (n - 1, true) ∧ t.curChan.jump = some o.tgt) ∧
         (n ≤ 1 → t.curChan.lp = c.lp.set o.lp (n, false) ∧ t.curChan.jump = none)) ∧
     (∃ t, exec .bjmp s = .next t ∧ OtherBanks [] s t ∧ NoNumber s t ∧ SameMemory s t ∧ t.curChan.jump = some o.tgt ∧ t.curChan.lp = c.lp) ∧
     (∃ t n, exec .bsync s = .next t ∧ Numbered n o.os 64 s t ∧ OtherBanks [] s t ∧ SameMemory s t ∧ t.curChan.flights = c.flights ∧
       (∀ f ∈ c.flights, f.os = o.os → f.due ≤ c.cyc + n) ∧ (n = 0 ∨ ∃ f ∈ c.flights, f.os = o.os ∧ f.due = c.cyc + n)) ∧
     (let len := c.cyc - c.base + 1 + o.w
      ∃ t, exec .bend s = .next t ∧ NoNumber s t ∧ SameMemory s t ∧ t.curChan.live = false ∧ t.curChan.widx = 0 ∧ t.curChan.pass = (c.pass + 1) % 65536 ∧
       t.curChan.round = (c.round + 1) % 2 ^ 32 ∧ t.curChan.flights = c.flights ∧
       (3120 < len → t.curChan.next = c.base + len ∧ ∀ b, bankOf t b = bankOf s b) ∧
       (len ≤ 3120 → t.curChan.next = c.base + len + 200 ∧ ∀ b, b < 64 →
         bankOf t b = { bankOf s b with row := none, act := none, pre := none, acc := none, ref := none }) ∧
       ((if (c.pass + 1) % 65536 < c.passes then .matinsPassStart else .matinsTableStop), { unit := s.cur.chan }) ∈ t.agenda))

/-! ### What goes on beside the streams (R91 to R101, R130 to R144, R198 to R201, R217, R241, R258 to R277, R468) -/

namespace Sys2Proof.Claim

open Machine

/-- The events that try an instruction again in which a stream stands frozen, with the instructions they try (R95). -/
def retryRow : Instr → List Instr → Prop
  | .scAccessIssue, l => ∀ i ∈ l, isSc i = true
  | .semSignalApply, l => ∀ i ∈ l, isSemSig i = true
  | .gbArrivalApply, l => ∀ i ∈ l, isArrival i = true
  | _, _ => False

/-- The machine as an event of a core's C or M stream sees it. -/
def onCore (st : StreamId) (s : State) : State := s.at s.arg.unit st

/-- A task of a core. -/
def TaskOn (s : State) (c : Nat) (x : Task) : Prop := (s.core c).task = some x

/-- Whoever waits at the router, as the machine sees it: the stream that the event names, or an agent of no core (R468). -/
def asHeld (s : State) : State := if s.arg.j = 3 ∨ s.arg.j = 8 then s else asNamed s

/-- The physical bytes that the next piece of a copy's walk reads and writes. -/
def piecePas (u : State) (c : Copy) : List Nat :=
  physOf ((c.nextLocs (walker u).io u).1 ++ (c.nextLocs (walker u).io u).2)

/-- A copy of a channel that has begun. -/
def begun (c : Copy) : Copy := { c with begun := true }

end Sys2Proof.Claim

open Sys2Proof Machine Claim in
/-- RESULT_LANDING lands what is due, in a cycle that is not held, before the stream's move, for a stream that runs, has ended, or is an M
stream that lost operand data (R91, R99, R191, R416).
INTERLOCK_RESULT_READY makes a result ready from its wall cycle (R99). The events SC_ACCESS_ISSUE, SEM_SIGNAL_APPLY and
GB_ARRIVAL_APPLY try the word again in which a stream stands frozen, in a turn of its own (R95, R131, R144, R226): what the word does
then is what the word does. -/
def Obligations.LandingAndRetryEvents : Prop :=
  ∀ s : State, let u := asNamed s
    let still : Prop := (Mover.stream s.arg.unit s.arg.st).key ∉ s.moved
    let there : Prop := ∀ f ∈ u.str.flights, f.due ≤ u.str.cyc → f.wait = 0
    (still → u.str.status = .running → u.str.frozen = none → there → exec .resultLanding s = .next (landDue u)) ∧
    (u.str.status = .running → (u.str.frozen ≠ none ∨ ∃ f ∈ u.str.flights, f.due ≤ u.str.cyc ∧ f.wait ≠ 0) → exec .resultLanding s = .next u) ∧
    (still → u.str.status = .ended ∨ u.landsOn = true ∧ u.str.status ≠ .running → u.str.flights ≠ [] → there →
      exec .resultLanding s = .next (landDue u)) ∧
    (¬ still → exec .resultLanding s = .next u) ∧
    (s.wall < s.arg.v → exec .interlockResultReady s = .next (s.post .interlockResultReady s.arg)) ∧
    (s.arg.v ≤ s.wall → u.resident = true → ∃ t, exec .interlockResultReady s = .next t ∧ SameMemory s t ∧
      t.str.flights = u.str.flights.map fun f => if f.seq = s.arg.k ∧ f.req = none then { f with wait := 0 } else f) ∧
    (∀ (ev h i : Instr) (v' : State), retryRow ev [h, i] → let v := if ev = .scAccessIssue then onCore .s s else u
      v.resident = true → v.str.frozen ≠ none → v.str.held = some h → beginTurn v = .ok (i, v') →
      ∃ t m, exec i v' = .next t ∧ exec ev s = .next { endTurn v t with moved := m } ∧
        ((endTurn v t).str.frozen ≠ none → m = (endTurn v t).moved))

open Sys2Proof Machine Claim in
/-- INSTRUCTION_FETCH_FILL brings the 64-byte line of the fetch address into the instruction cache, has its translation walked first, or
takes the replayable translation fault (R95, R124, R241). PAGE_WALK gives the oldest queued walk of a die to one of its 64 walkers, and
ends one whose table entries the memory channels serve (R295): its translation goes to the die's TLB, or its reason to the streams that wait for the page (R14, R241). A request that no route
carries goes on when its route is up, is held for 10^6 ticks, and then fails: a store that fails leaves its buffer with a data-loss
fault (R468). -/
def Obligations.FetchWalkAndRouteEvents : Prop :=
  ∀ s : State, let u := asNamed s
    let line := fetchVa u / 64 * 64
    let core := s.arg.unit
    (∀ p, u.resident = true → wantsFetch u = true → s.poison = [] → coreMisses (!s.arg.flag) u core u.task.ctx line = false →
      coreXlate u core u.task.ctx line = .ok p → pteCmp p.pte = false → pteCf p.pte = false → reachable u (pkgOf core) p.pa = true →
      Served u p.pa → ∃ t, exec .instructionFetchFill s = .next t ∧
      t.curCore.icache.find? (fun l => l.1 = icKey u.task.ctx (fetchVa u)) =
        some (icKey u.task.ctx (fetchVa u), ofBytes ((List.range 64).map fun i => (readByte s (p.pa + i)).toNat)) ∧ t.str = u.str ∧ SameMemory s t) ∧
    (u.resident = true → wantsFetch u = true → coreMisses (!s.arg.flag) u core u.task.ctx line = true → ∃ t, exec .instructionFetchFill s = .next t ∧
      (.instructionFetchFill, { unit := core, st := s.arg.st, flag := decide (2048 ≤ (s.die (dieOf core)).walkq.length) }) ∈ t.agenda ∧ t.str = u.str ∧ SameMemory s t) ∧
    (∀ r l, u.resident = true → wantsFetch u = true → coreMisses (!s.arg.flag) u core u.task.ctx line = false → coreXlate u core u.task.ctx line = .error (r, l) → r ≠ poisonedEntry →
      ∃ t, exec .instructionFetchFill s = .next t ∧ Stopped .retry { cls := 0x0B, reason := r } u t) ∧
    (∀ w rest, s.arg.flag = true → (s.die core).walkq = w :: rest →
      (64 ≤ (s.die core).walkers.length → exec .pageWalk s = .next (s.post .pageWalk { unit := core })) ∧
      ((s.die core).walkers.length < 64 → ∃ t, exec .pageWalk s = .next t ∧ (t.die core).walkq = rest ∧
        (t.die core).walkers = (s.die core).walkers ++ [w] ∧ (.pageWalk, { unit := core, k := w.ctx, v := w.va, flag := false }) ∈ t.agenda ∧
        SameMemory s t)) ∧
    (let w : Walk := { ctx := s.arg.k, va := s.arg.v }
     s.arg.flag = false → w ∈ (s.die core).walkers → (∀ a ∈ walkReads s (core / 8) w.va 5 (ctxEntry s (core / 8) w.ctx / 2 ^ 64 % 2 ^ 46 * 2 ^ 12), Served s a) → ∃ t, exec .pageWalk s = .next t ∧ (t.die core).walkers = (s.die core).walkers.erase w ∧
      SameMemory s t ∧
      (∀ p, walk s (core / 8) w.ctx w.va = .ok p → { ctx := w.ctx, vpn := w.va / 2 ^ p.bits, bits := p.bits, pte := p.pte } ∈ (t.die core).tlb) ∧
      (∀ r, walk s (core / 8) w.ctx w.va = .error r → (t.die core).tlb = (s.die core).tlb ∧
        ∀ c x k, dieOf c = core → TaskOn s c x → x.ctx = w.ctx → (x.str k).miss = some (w.va / 2 ^ 16) →
          ∃ y, TaskOn t c y ∧ (y.str k).walkRes = some r)) ∧
    (let v := asHeld s
     requestLives s.arg v = true →
      (routeUp s.arg v = true → exec .unplannedRequestTimeout s = .next (requestAgain s.arg v)) ∧
      (routeUp s.arg v = false → s.arg.v = 0 →
        exec .unplannedRequestTimeout s = .next (s.post .unplannedRequestTimeout { s.arg with v := s.tick + 10 ^ 6 })) ∧
      (routeUp s.arg v = false → s.tick < s.arg.v → exec .unplannedRequestTimeout s = .next (s.post .unplannedRequestTimeout s.arg)) ∧
      (∀ e, routeUp s.arg v = false → s.arg.v ≠ 0 → s.arg.v ≤ s.tick → s.arg.j = 4 → u.str.sbuf.find? (fun e => e.seq = s.arg.k) = some e →
        ∃ t, exec .unplannedRequestTimeout s = .next t ∧ t.str.sbuf = u.str.sbuf.filter (fun d => d.seq ≠ s.arg.k) ∧
          t.str.status = .stopped (recSeq s (pkgOf core) u.task.ctx) .never))

open Sys2Proof Machine Claim in
/-- COPY_START moves the next bytes of the copy it names: once the accesses before it are performed and the copies of its channel before it
have begun (R260, R270), its walks are found (R241), no copy before it still writes what it writes (R266), and its memory channels
serve it (R295); until then it stays due. COPY_COMPLETE
takes a walked copy from its queue with its tags written and its number complete (R217, R272); a chunk that fails its checksum on its
way to or from another die is resent and charged (R277). -/
def Obligations.CopyEvents : Prop :=
  ∀ (s : State) (c : Copy), let u := onCore .c s
    let ch := s.arg.k
    let x := u.ch ch
    let me : Args := { unit := s.arg.unit, k := ch, n := s.arg.n, j := s.arg.j }
    let e := (walker u).io
    (u.resident = true → copyAt u ch s.arg.n s.arg.j = some c → x.hs = false → x.pf = none → c.walked = false →
      let v := setCopy ch (begun c) u
      let miss := (begun c).misses (!s.arg.flag) e v
      let w := drawUnits (piecePas v (begun c)) v
      let r := (begun c).stretch e 64 w
      (mayBegin u x.q c = false → ∃ t, exec .copyStart s = .next t ∧ (.copyStart, me) ∈ t.agenda ∧ t.task = u.task ∧ SameMemory s t) ∧
      (mayBegin u x.q c = true → miss ≠ [] → ∃ t b, exec .copyStart s = .next t ∧ (.copyStart, { me with flag := b }) ∈ t.agenda ∧ t.task = v.task ∧ SameMemory s t) ∧
      (mayBegin u x.q c = true → miss = [] → writesLater e v x.q (begun c) = true →
        ∃ t, exec .copyStart s = .next t ∧ (.copyStart, me) ∈ t.agenda ∧ t.task = v.task ∧ SameMemory s t) ∧
      (mayBegin u x.q c = true → miss = [] → writesLater e v x.q (begun c) = false → (∀ a ∈ piecePas v (begun c), Served v a) →
        r.2.2 = none → r.1.cur = u.cur → r.1.task.ch.length = u.task.ch.length → ∃ t, exec .copyStart s = .next t ∧ t.mem = r.1.mem ∧
        (t.ch ch).q = ((overrun e w x.q (begun c)).map fun d => if c.same d then { r.2.1 with sends := if newChunk c r.2.1 then 0 else c.sends } else d) ∧
        t.str = r.1.str ∧ ((if r.2.1.walked then Instr.copyComplete else .copyStart), me) ∈ t.agenda)) ∧
    (∀ tl, u.resident = true → u.task.tls[s.arg.j]? = some tl → copyAt u ch s.arg.n s.arg.j = some c → c.walked = true →
      ∃ t, exec .copyComplete s = .next t ∧
      (∀ d ∈ (t.ch ch).q, c.same d = false) ∧ Done (t.tl s.arg.j) s.arg.n ∧ t.str = u.str ∧ SameMemory s t ∧
      ∀ p, tabGet 0 t.curCore.tags p =
        if c.dw 6 / 2 ^ 16 % 2 = 1 ∧ p ∈ c.pages then (c.dw 6 % 2 ^ 16 + c.inc) % 2 ^ 16 else tabGet 0 u.curCore.tags p) ∧
    (let bytes := (c.chunkOf e u).1
     u.resident = true → s.arg.flag = true → copyAt u ch (s.arg.v / 16) (s.arg.v % 16) = some c → x.hs = false → x.pf = none → c.walked = false → c.o % 4096 = 0 →
      c.crosses e u (dieOf s.arg.unit) = true → bytes ≠ [] → ck64 (words32 (flipWord bytes)) ≠ ck64 (words32 bytes) → c.sends < 3 →
      s.arg.j < 8192 → s.arg.n < 0x24 → ∃ t, exec .copyChunkResend s = .next t ∧
        (t.ch ch).q = (x.q.map fun d => if c.same d then { c with sends := c.sends + 1 } else d) ∧
        (t.port s.arg.j s.arg.n).ckf = min ((s.port s.arg.j s.arg.n).ckf + 1) 65535 ∧ SameMemory s t)

open Sys2Proof Machine Claim in
/-- FOLLOW_ON_ARRIVAL takes the attachment that became ready first into the matrix queue with its number (R198, R200, R269);
FOLLOW_ON_START gives the lowest-numbered waiting command the free array (R180, R199); FOLLOW_ON_COMPLETE writes its tile and flags,
completes its number, and lets a waiting attachment arrive in its place (R30, R199, R200). MATRIX_DRAIN_COMPLETE and
TIMELINE_MARK_ADVANCE complete a numbered operation of the task that issued it (R198, R217). -/
def Obligations.FollowOnAndCompletionEvents : Prop :=
  ∀ s : State, let u := onCore .m s
    (∀ e rest c, u.resident = true → readyList u.task = e :: rest → u.task.follow.length < 16 → e.1 ≤ s.wall →
      (u.ch e.2).q.find? (fun c => c.fn = 11 && c.ready = some e.1) = some c → ∃ t, exec .followOnArrival s = .next t ∧
      t.task.follow = u.task.follow ++ [c.command u.task.nfollow e.2 (nextNumber u (matrixTl u.task)) (matrixTl u.task)] ∧
      t.task.nfollow = u.task.nfollow + 1 ∧ (t.ch e.2).q = (u.ch e.2).q.erase c ∧
      (∀ k tl, matrixTl u.task = some k → u.task.tls[k]? = some tl → t.task.tls = u.task.tls.set k (counted tl)) ∧ SameMemory s t) ∧
    (∀ f p, u.resident = true → f ∈ u.task.follow → f.running = false → (∀ g ∈ u.task.follow, g.running = false → g ≠ f → f.num < g.num) →
      (∀ g ∈ u.task.follow, g.holds = false) → arrayTaken u = false → shadows u.task < 8 →
      prodChecks u f.tr f.da f.db (tileEntry u f.da) (tileEntry u f.db) = .ok p → ∃ t, exec .followOnStart s = .next t ∧
      t.task.follow = (u.task.follow.map fun x => if x.id = f.id then
        { f with ea := tileEntry u f.da, eb := tileEntry u f.db, running := true, tile := startTile p f.mul (u.accTile f.acc) } else x) ∧ SameMemory s t) ∧
    (∀ f, u.resident = true → u.task.follow.find? (fun f => match f.endWall with | some w => decide (w ≤ s.wall) && !f.dead | none => false) = some f →
      ∃ t l, exec .followOnComplete s = .next t ∧ t.task.follow = u.task.follow.erase f ++ l ∧ l.length ≤ 1 ∧
        t.task.acc = u.task.acc.set f.acc f.tile ∧ t.task.m.fflags = u.task.m.fflags ||| f.fl ∧
        (∀ k tl, f.numTl = some k → u.task.tls[k]? = some tl → Done (t.tl k) f.num) ∧ SameMemory s t) ∧
    (∀ x tl, TaskOn s s.arg.unit x → x.id = s.arg.v → (∀ e ∈ x.m.sbuf, s.arg.j ≤ e.seq) → s.arg.k ≠ 0 → x.tls[s.arg.k - 1]? = some tl →
      ∃ t y, exec .matrixDrainComplete s = .next t ∧ TaskOn t s.arg.unit y ∧ Done (y.tls.getD (s.arg.k - 1) {}) s.arg.n ∧ SameMemory s t) ∧
    (∀ x, TaskOn s s.arg.unit x → x.id = s.arg.v → (∃ e ∈ x.m.sbuf, e.seq < s.arg.j) →
      exec .matrixDrainComplete s = .next (s.post .matrixDrainComplete s.arg)) ∧
    (∀ x tl, TaskOn s s.arg.unit x → x.id = s.arg.v → x.tls[s.arg.k]? = some tl →
      (∀ d ∈ x.ldots, ¬ (d.tl = s.arg.k ∧ d.num = s.arg.n)) → (∀ o ∈ x.nms, ¬ (o.tl = s.arg.k ∧ o.num = s.arg.n)) →
      ∃ t y, exec .timelineMarkAdvance s = .next t ∧ TaskOn t s.arg.unit y ∧ Done (y.tls.getD s.arg.k {}) s.arg.n ∧ y.tls = x.tls.set s.arg.k (tl.complete s.arg.n) ∧
        SameMemory s t) ∧
    (∀ x o, TaskOn s s.arg.unit x → x.id = s.arg.v → (∀ d ∈ x.ldots, ¬ (d.tl = s.arg.k ∧ d.num = s.arg.n)) →
      x.nms.find? (fun o => o.tl = s.arg.k && o.num = s.arg.n) = some o → o.pf = none → o.kind ≠ 0 → performedBefore x o.seq = true →
      let r := nmWork o (onCore .c s)
      r.2.2 = none → r.1.cur.core = s.arg.unit → ∀ x', TaskOn r.1 s.arg.unit x' → s.arg.k < x'.tls.length →
        ∃ t y, exec .timelineMarkAdvance s = .next t ∧ t.mem = r.1.mem ∧ TaskOn t s.arg.unit y ∧ Done (y.tls.getD s.arg.k {}) s.arg.n ∧ o ∉ y.nms)

/-! ### Plans under way, chunks, ports, channels (R288 to R290, R312, R327, R345, R351 to R378) -/

namespace Sys2Proof.Claim

open Machine

/-- The counter of a task that a numbered operation waits on is complete at its number, if the task is on its core. -/
def OpDone (s t : State) (core : Nat) (op : Nat × Nat × Nat) : Prop :=
  ∀ x c, TaskOn s core x → x.id = op.1 → x.tls[op.2.1]? = some c → ∃ y, TaskOn t core y ∧ Done (y.tls.getD op.2.1 {}) op.2.2

/-- The routes of a plan over the ports that it has reserved (R354, R378). -/
def reservedPorts (s : State) (p : Plan) : Option (List (Nat × Nat)) := planPorts s p fun h => p.res.contains (h.out, h.outPort)

/-- A chunk of a current plan stands at a point of its path with another after it, over a link that is up, at packages of which no
injector runs and whose router has lost nothing (R367, R375, R428, R459). -/
def Between (s : State) (c : Chunk) (a b : Nat × Nat) : Prop :=
  c.path[c.pos]? = some a ∧ c.path[c.pos + 1]? = some b ∧ 2 ≤ linkState s a b ∧ (s.pkg a.1).ckinj = 0 ∧ (s.pkg b.1).ckinj = 0 ∧ c.cur = c.good ∧
    s.poison = [] ∧ chunkCurrent s c = true

/-- A port after a change, and every other port of the package as before. -/
def PortChange (u k : Nat) (f : Port → Port) (s t : State) : Prop :=
  t.port u k = f (s.port u k) ∧ ∀ j, j ≠ k → t.port u j = s.port u j

end Sys2Proof.Claim

open Sys2Proof Machine Claim in
/-- PLAN_SETUP_COMPLETE ends a set-up ready or failed (R365, R366). A trigger starts a waiting part of a ready plan, which fails where a round
begins without a route (R378); a part under way sends its next member, in ascending order, once the round gate lets it go and its memory
channels serve it (R295, R361), and a faulted member is read again (R377). PLAN_PART_COMPLETE writes a column of a result (R371); with
none left it raises the rank's round, with its tags, its arrival word and its operation complete (R369, R370). PLTRIG_WRITE and PLAN_TRIGGER_DELIVERY bring a trigger to a rank, or drop and count it (R369, R379). -/
def Obligations.PlanEvents : Prop :=
  ∀ s : State, let k := s.arg.k; let j := s.arg.j; let p := s.plan k
    (p.ranks ≠ [] → p.state = 1 → setupStatuses s p = [] → ∃ t, exec .planSetupComplete s = .next t ∧ (t.plan k).state = 2 ∧ (t.plan k).setup = none ∧
      (t.plan k).ranks = p.ranks ∧ (∀ o, p.setup = some o → OpDone s t o.1 o.2) ∧ SameMemory s t) ∧
    (p.ranks ≠ [] → p.state = 1 → setupStatuses s p ≠ [] → ∃ t, exec .planSetupComplete s = .next t ∧ (t.plan k).state = 3 ∧
      (t.plan k).status ∈ setupStatuses s p ∧ (∀ r ∈ (t.plan k).ranks, r.trigs = []) ∧ SameMemory s t) ∧
    (∀ r g rest, s.arg.flag = true → p.ranks[j]? = some r → r.part = none → r.trigs = g :: rest →
      (p.state ≠ 2 → exec .planPartStart s = .next s) ∧
      (p.state = 2 → p.begins j = true → reservedPorts s p = none → planPorts s p (roomOn s p) = none → ∃ t, exec .planPartStart s = .next t ∧
        (t.plan k).state = 3 ∧ (t.plan k).status = 0x06 ∧ (t.plan k).ranks = p.ranks ∧ SameMemory s t) ∧
      (p.state = 2 → (p.begins j = true → (reservedPorts s p).isSome = true) →
        (∀ o x, g.op = some o → TaskOn s r.key x → x.id = o.1 → performedBefore x g.seq = true) → ∃ t, exec .planPartStart s = .next t ∧
        (t.plan k).ranks = p.ranks.set j { r with trigs := rest, part := some (g, List.range p.iters), taken := [] } ∧
        (.planPartStart, { unit := r.pkg, k := k, j := j }) ∈ t.agenda ∧ SameMemory s t)) ∧
    (∀ r g it rest, s.arg.flag = true → p.ranks[j]? = some r → r.part = some (g, it :: rest) →
      let path := itemPath s p r.done (p.itemOf r.done j it).1 (p.itemOf r.done j it).2
      let sends (b : List Nat) (r' : PRank) : Prop := ∃ t c, exec .planPartStart s = .next t ∧ (t.plan k).ranks = p.ranks.set j r' ∧
        t.chunks = s.chunks ++ [(s.nchunk, c)] ∧ c.plan = k ∧ c.q = r.done ∧ c.item = (p.itemOf r.done j it).2 ∧ c.sends = 1 ∧ c.good = b ∧
        ((if rest = [] then Instr.planPartComplete else .planPartStart), { unit := r.pkg, k := k, j := j }) ∈ t.agenda ∧ SameMemory s t
      (maySend p j it = false → exec .planPartStart s = .next s) ∧
      (∀ b, maySend p j it = true → p.skind = 0 → (∀ a ∈ sourcePas p r.done j it, Served s a) → sourceBytes s p r.done j it = some b →
        path.isSome = true → sends b { r with part := some (g, rest) }) ∧
      (∀ c, maySend p j it = true → p.skind = 1 → r.slots.find? (fun c => c.slot = it) = some c → (∀ e ∈ r.taken, e.1 ≠ it) → path.isSome = true →
        sends c.bytes { r with part := some (g, rest), slots := r.slots.erase c, taken := r.taken ++ [(it, c.bytes)] })) ∧
    (let q := s.arg.n / 2 ^ 32
     let it := s.arg.n % 2 ^ 32
     ∀ b, s.arg.flag = false → (∀ a ∈ sourcePas p q j it, Served s a) → sourceBytes s p q j it = some b →
      (itemPath s p q (p.itemOf q j it).1 (p.itemOf q j it).2).isSome = true → ∃ t c, exec .planPartStart s = .next t ∧ (t.plan k).ranks = p.ranks ∧
      t.chunks = s.chunks ++ [(s.nchunk, c)] ∧ c.plan = k ∧ c.q = q ∧ c.item = (p.itemOf q j it).2 ∧ c.sends = 1 ∧ c.good = b ∧ SameMemory s t) ∧
    (let here (x : Grp) : Bool := !x.cols.isEmpty && decide (p.peer x.q (x.g / p.iters) (x.g % p.iters) = j)
     (∀ x, j < p.ranks.length → p.grps.find? here = some x → p.grp x.q x.g = x →
      let col := x.column s
      let pas := col.map fun i => (p.destBytes x.q x.g).getD i 0
      let new := col.map fun i => x.out.getD i 0
      let v := if p.acc = true ∧ p.op ≠ 0 then p.combine (pas.map fun a => (readByte s a).toNat) new else new
      (∀ a ∈ pas, Served s a) → ∃ t, exec .planPartComplete s = .next t ∧ t.mem = (storeCells s (pas.zip (v.map (BitVec.ofNat 8)))).mem ∧
        (1 < x.cols.length → ((t.plan k).grp x.q x.g).cols = x.cols.erase col) ∧
        (x.cols.length ≤ 1 → ((t.plan k).grp x.q x.g).written = true ∧ ((t.plan k).grp x.q x.g).cols = []) ∧
        (.planPartComplete, { unit := (p.rank j).pkg, k := k, j := j }) ∈ t.agenda) ∧
     (∀ r g, p.ranks[j]? = some r → p.grps.find? here = none → p.state ≠ 3 → r.part = some (g, []) → (∀ q ∈ p.groupsTo r.done j, (p.grp r.done q).written = true) →
      (r.aword ≠ 0 → Served s (p.pa r.aword)) → ∃ t, exec .planPartComplete s = .next t ∧
        (t.plan k).ranks = p.ranks.set j { r with done := r.done + 1, part := none, taken := [] } ∧
        (∀ o, g.op = some o → OpDone s t r.key o) ∧ (r.aword = 0 → SameMemory s t) ∧
        (∀ m, tabGet 0 (t.core r.key).tags m =
          if p.tw = true ∧ m ∈ roundPages p r.done j then (p.tag + r.done) % 65536 else tabGet 0 (s.core r.key).tags m) ∧
        (r.aword ≠ 0 → t.mem = (storeCells s (cellsOf (p.pa r.aword) 8 (ofBytes (readBytes s (p.pa r.aword) 8) + 1))).mem))) ∧
    (∀ x r, trigPlan s s.arg.unit s.arg.v = some x → (s.plan x).ranks[k]? = some r → r.trigs.length < 255 → ∃ t, exec .planTriggerDelivery s = .next t ∧
      (t.plan x).ranks = (s.plan x).ranks.set k { r with trigs := r.trigs ++ [{}] } ∧
      (.planPartStart, { unit := r.pkg, k := x, j := k }) ∈ t.agenda ∧ SameMemory s t) ∧
    (trigPlan s s.arg.unit s.arg.v = none → ∀ i ∈ [Instr.planTriggerDelivery, .pltrigWrite], ∃ t, exec i s = .next t ∧ t.plans = s.plans ∧
      (t.pkg s.arg.unit).plStale = min ((s.pkg s.arg.unit).plStale + 1) 65535 ∧ SameMemory s t) ∧
    (∀ x, trigPlan s s.arg.unit s.arg.v = some x → ∃ t, exec .pltrigWrite s = .next t ∧ t.plans = s.plans ∧ SameMemory s t ∧
      ∀ i, (s.arg.v / 2 ^ 38 % 2 = 1 ∧ i < (s.plan x).ranks.length) ∨ (s.arg.v / 2 ^ 38 % 2 = 0 ∧ i = s.arg.v / 2 ^ 24 % 2 ^ 14) →
        (.planTriggerDelivery, { unit := ((s.plan x).rank i).pkg, k := i, j := s.arg.unit, v := s.arg.v }) ∈ t.agenda)

open Sys2Proof Machine Claim in
/-- An undamaged chunk moves to the next point of its path; at its end it is an input of its node, or its group's result, which goes to
its destination column by column, a merge into old contents at once (R363, R371, R373, R375). A chunk of a plan that has ended or failed is dropped
and counted (R367, R379). One whose checksum fails is kept to be resent, and charged to the point that sent it (R375, R376). A link that
retrains holds it, over one that is down it is resent, by another route if there is one, else its plan fails (R351, R352, R378). A unit
combines the inputs of a node and sends its output (R363). A flit that fails is replayed, and after 16 in a row the port retrains (R351);
a lane failure takes the spare, then narrows the port, then takes both ends of its link down (R352); a trained link is up (R353, R468). -/
def Obligations.ChunkAndPortEvents : Prop :=
  ∀ s : State, let n := s.arg.k; let u := s.arg.unit
    (∀ c a b, s.chunk n = some c → Between s c a b → s.arg.flag = true → s.tick ≤ c.tick + 2000000 → c.hops < 64 →
      (c.pos + 2 < c.path.length → ∃ t, exec .chunkHopVerify s = .next t ∧ t.chunk n = some { c with pos := c.pos + 1, hops := c.hops + 1 } ∧
        (.chunkHopVerify, { k := n }) ∈ t.agenda ∧ t.plans = s.plans ∧ SameMemory s t) ∧
      (c.path.length = c.pos + 2 →
        let p := s.plan c.plan
        let y := p.grp c.q c.g
        let pas := p.destBytes c.q c.g
        let j := p.peer c.q (c.g / p.iters) (c.g % p.iters)
        let m := (p.members c.q c.g).length
        ∃ t, exec .chunkHopVerify s = .next t ∧ t.chunk n = none ∧
          let z := (t.plan c.plan).grp c.q c.g
          (parentOf p.shape m c.item = none → (.planPartComplete, { unit := (p.rank j).pkg, k := c.plan, j := j }) ∈ t.agenda) ∧
          (parentOf p.shape m c.item = none → (p.acc = false ∨ p.op ≠ 3) → z.out = c.good ∧ z.cols = columnsOf pas ∧ z.written = y.written ∧ SameMemory s t) ∧
          (parentOf p.shape m c.item = none → p.acc = true → p.op = 3 → z.written = true ∧
            t.mem = (storeCells s (pas.zip ((p.combine (pas.map fun a => (readByte s a).toNat) c.good).map (BitVec.ofNat 8)))).mem) ∧
          (∀ x, parentOf p.shape m c.item = some x → z.ins = (y.ins.filter fun e => e.1 ≠ c.item) ++ [(c.item, c.good)] ∧ SameMemory s t ∧
            ((∀ i, (nodeInputs p.shape m x).1 = some i ∨ (nodeInputs p.shape m x).2 = some i → ∃ e ∈ z.ins, e.1 = i) →
              (.mergeNodeCompute, { unit := p.destPkg c.q c.g, k := c.plan, n := c.q * 2 ^ 32 + c.g, j := x }) ∈ t.agenda)))) ∧
    (∀ c a b, s.chunk n = some c → c.path[c.pos]? = some a → c.path[c.pos + 1]? = some b → 2 ≤ linkState s a b → chunkCurrent s c = false → b.1 < 8192 →
      ∃ t, exec .chunkHopVerify s = .next t ∧ t.chunk n = none ∧ t.plans = s.plans ∧
        (t.pkg b.1).plStale = min ((s.pkg b.1).plStale + 1) 65535 ∧ SameMemory s t) ∧
    (∀ c a b, s.chunk n = some c → Between s c a b → a.1 < 8192 → a.2 < 0x24 → s.arg.flag = false →
      ck64 (words32 (flipWord c.good)) ≠ ck64 (words32 c.good) → c.sends < 4 → ∃ t, exec .chunkHopVerify s = .next t ∧
      t.chunk n = some { c with cur := flipWord c.good } ∧ (.chunkResend, { k := n }) ∈ t.agenda ∧
      (t.port a.1 a.2).ckf = min ((s.port a.1 a.2).ckf + 1) 65535 ∧ SameMemory s t) ∧
    (∀ c a b, s.chunk n = some c → c.path[c.pos]? = some a → c.path[c.pos + 1]? = some b →
      (linkState s a b = 1 → exec .chunkHopVerify s = .next (s.post .chunkHopVerify { k := n, flag := s.arg.flag })) ∧
      (linkState s a b = 0 → exec .chunkHopVerify s = .next (s.post .chunkResend { k := n, flag := false })) ∧
      (linkState s a b ≠ 0 → chunkCurrent s c = true → ∃ t, exec .chunkResend s = .next t ∧
        t.chunk n = some { c with cur := c.good, sends := c.sends + (if s.arg.flag = true then 1 else 0), tick := s.tick } ∧
        (.chunkHopVerify, { k := n }) ∈ t.agenda ∧ SameMemory s t) ∧
      (linkState s a b = 0 → chunkCurrent s c = true → 0 < c.pos → ∀ tail, endPoints s (s.plan c.plan) c.q c.g c.item = some tail →
        (planRoute s (s.plan c.plan) a.1 (tail.headD (0, 0)).1 = none → ∃ t, exec .chunkResend s = .next t ∧
          (t.plan c.plan).state = 3 ∧ (t.plan c.plan).status = 0x06 ∧ SameMemory s t) ∧
        (∀ hops, planRoute s (s.plan c.plan) a.1 (tail.headD (0, 0)).1 = some hops → ∃ t d, exec .chunkResend s = .next t ∧ t.chunk n = some d ∧
          d.path.drop (d.pos + 1) = hops.flatMap Hop.points ++ tail ∧ d.cur = c.good ∧ d.sends = c.sends + (if s.arg.flag = true then 1 else 0) ∧
          SameMemory s t))) ∧
    (let p := s.plan n
     let q := s.arg.n / 2 ^ 32
     let g := s.arg.n % 2 ^ 32
     let y := p.grp q g
     let i := nodeInputs p.shape (p.members q g).length s.arg.j
     let inp (i : Option Nat) (v : List Nat) : Prop := match i with | some i => ∃ e, y.ins.find? (fun e => e.1 = i) = some e ∧ e.2 = v | none => v = p.pad
     ∀ a b v, inp i.1 a → inp i.2 b → unitOf s p q g s.arg.j = some v → y.written = false → s.arg.flag = true →
      (itemPath s p q g (nodeItem s.arg.j)).isSome = true → ∃ t c, exec .mergeNodeCompute s = .next t ∧ t.chunks = s.chunks ++ [(s.nchunk, c)] ∧
      c.plan = n ∧ c.q = q ∧ c.g = g ∧ c.item = nodeItem s.arg.j ∧ c.good = p.combine a b ∧ SameMemory s t) ∧
    let far := (s.port u n).far
    (∃ t, exec .flitReceive s = .next t ∧ SameMemory s t ∧
      (s.arg.flag = true → PortChange u n (fun p => { p with replays := 0 }) s t) ∧
      (s.arg.flag = false → (s.port u n).replays < 16 → PortChange u n (fun p => { p with replays := p.replays + 1 }) s t) ∧
      (s.arg.flag = false → 16 ≤ (s.port u n).replays → u < 8192 → far.1 ≠ u →
        PortChange u n (fun p => { p with replays := 0, ev := min (p.ev + 1) 65535, state := 1 }) s t ∧ t.portOf far = { s.portOf far with state := 1 } ∧
        (.routeRecovery, { unit := u, j := n, k := (s.port u n).peer }) ∈ t.agenda)) ∧
    ((s.port u n).state = 0 → exec .laneFailure s = .next s) ∧
    ((s.port u n).state ≠ 0 → (s.port u n).spu = false → ∃ t, exec .laneFailure s = .next t ∧
      PortChange u n (fun p => { p with ev := min (p.ev + 1) 65535, spu := true }) s t) ∧
    ((s.port u n).state ≠ 0 → (s.port u n).spu = true →
      let w := if (s.port u n).width = 0 then 4 else (s.port u n).width
      (2 < w → ∃ t, exec .laneFailure s = .next t ∧
        PortChange u n (fun p => { p with ev := min (p.ev + 1) 65535, width := w - 1, state := if p.state = 1 then 1 else 3 }) s t) ∧
      (w ≤ 2 → u < 8192 → ∃ t, exec .laneFailure s = .next t ∧ ∀ e ∈ [(u, n), far],
        (t.portOf e).state = 0 ∧ (t.portOf e).width = 0 ∧ (t.portOf e).down = true)) ∧
    (let far := (s.port u s.arg.j).far
     let up (p : Port) : Port :=
      { p with width := if p.width = 0 then 4 else p.width, state := if p.width = 2 ∨ p.width = 3 then 3 else 2, down := false, fresh := false }
     s.arg.flag = true → u < 8192 → far.1 ≠ u → (8192 ≤ far.1 ∨ (s.pkg far.1).on = true) → ∃ t, exec .routeRecovery s = .next t ∧ SameMemory s t ∧
      PortChange u s.arg.j up s t ∧ t.portOf far = up (s.portOf far)) ∧
    (s.arg.flag = false → n ≠ u → n ∈ s.members → ∃ t, exec .routeRecovery s = .next t ∧ SameMemory s t ∧ n ∈ (t.pkg u).reach)

open Sys2Proof Machine Claim in
/-- NM_TABLE_START lets word 0 of a started table issue at its tick, once the accesses before the start are performed, or takes the fault
of a channel that could not start (R312); what comes due for a table that is held stays due (R325).
MATINS_PASS_START resets what every pass begins with (R288, R290), MATINS_TABLE_STOP leaves nothing in flight (R290). LEASE_EXPIRY ends
the lease whose tick has come (R248). KVCTL_ENABLE, KVCTL_DISABLE and KVLOST_WRITE are the page manager's registers (R327, R345). -/
def Obligations.ChannelLeaseAndPageManagerEvents : Prop :=
  ∀ s : State, let u := s.arg.unit; let c := s.chan u
    (∀ x o before rest, s.arg.flag = true → c.held = false → TaskOn s c.owner x → x.id = c.task → x.nms = before ++ o :: rest → o ∉ before → o.kind = 0 → u ∈ o.left →
      (∀ y ∈ before, ¬ (y.kind = 0 ∧ u ∈ y.left)) → c.state = 2 → c.live = false →
      (o.blk.getD 1 0 ≤ s.tick → performedBefore x o.seq = true → (∀ y ∈ before, writesChan u y = false) → ∃ t y, exec .nmTableStart s = .next t ∧
        t.chan u = { c with late := decide (o.blk.getD 1 0 < s.tick) } ∧ (.matinsPassStart, { unit := u }) ∈ t.agenda ∧ TaskOn t c.owner y ∧
        y.nms = x.nms.map (fun z => if z = o then { o with left := o.left.filter (· ≠ u) } else z) ∧ SameMemory s t) ∧
      (s.tick < o.blk.getD 1 0 ∨ performedBefore x o.seq = false ∨ (∃ y ∈ before, writesChan u y = true) → ∃ t, exec .nmTableStart s = .next t ∧
        t.chans = s.chans ∧ (.nmTableStart, { unit := u }) ∈ t.agenda ∧ SameMemory s t)) ∧
    (s.arg.flag = true → c.state = 2 → (c.held = true ∨ ∀ x, TaskOn s c.owner x → x.id ≠ c.task) → ∃ t, exec .nmTableStart s = .next t ∧
      t.chans = s.chans ∧ t.cores = s.cores ∧ (.nmTableStart, { unit := u }) ∈ t.agenda ∧ SameMemory s t) ∧
    (∀ x, s.arg.flag = false → TaskOn s u x → x.id = s.arg.v → exec .nmTableStart s = .next (chanFault
      { cls := 0x15, reason := s.arg.j / 512, whn := s.arg.n % 2 ^ 60 + s.arg.k * 2 ^ 60, i0 := s.arg.j % 512 } u s)) ∧
    (c.state = 2 → c.live = false → c.held = false → ∃ t, exec .matinsPassStart s = .next t ∧ (t.chan u).live = true ∧ (t.chan u).widx = 0 ∧
      (t.chan u).base = c.next ∧ (t.chan u).ms = [] ∧ (t.chan u).flights = c.flights.filter (fun f => c.next < f.due) ∧ (t.chan u).table = c.table ∧
      (∀ w ∈ (t.chan u).wk, w.ptr = 0) ∧ (t.chan u).lp = List.replicate 4 (0, false) ∧ (∀ b, b < 64 → ((t.chan u).bank b).dot = 0x80000000 ∧ ((t.chan u).bank b).sk = false ∧
        ((t.chan u).bank b).a = [] ∧ ((t.chan u).bank b).w = .skip) ∧ SameMemory s t) ∧
    (c.state = 2 → c.live = false → c.held = false → ∃ t, exec .matinsTableStop s = .next t ∧ (t.chan u).state = 1 ∧ (t.chan u).widx = 0 ∧
      (t.chan u).flights = [] ∧ (t.chan u).nums = [] ∧ (t.chan u).table = c.table ∧ SameMemory s t) ∧
    (∀ i ∈ [Instr.matinsPassStart, .matinsTableStop], (c.state ≠ 2 ∨ c.live = true → exec i s = .next s) ∧
      (c.state = 2 → c.live = false → c.held = true → exec i s = .next (s.post i { unit := u }))) ∧
    (∃ t, exec .leaseExpiry s = .next t ∧ SameMemory s t ∧
      (t.die u).leases = (s.die u).leases.filter fun e => !(e.1 = s.arg.k && decide (e.2.expiry ≤ s.tick))) ∧
    (∃ t, exec .kvctlEnable s = .next t ∧ (t.pkg u).kvEn = true ∧ (t.pkg u).seqs = (s.pkg u).seqs ∧ SameMemory s t) ∧
    ((s.pkg u).kvEn = false → exec .kvctlDisable s = .next s) ∧
    ((s.pkg u).kvEn = true → ∃ t, exec .kvctlDisable s = .next t ∧ (t.pkg u).kvEn = false ∧ (t.pkg u).seqs = [] ∧ SameMemory s t) ∧
    (s.arg.v / 2 ^ 31 % 2 = 0 → exec .kvlostWrite s = .next s) ∧
    (s.arg.v / 2 ^ 31 % 2 = 1 → u < 2 ^ 13 → (∀ e ∈ (s.pkg u).seqs, e.1 < 2 ^ 16) → ∃ t, exec .kvlostWrite s = .next t ∧
      ∀ id q e, (id, q) ∈ (t.pkg u).seqs → (q.ent e).pkg = s.arg.v % 2 ^ 13 → (q.ent e).state ≠ 1 ∧ (q.ent e).state ≠ 3)

/-! ### Queues, packets, gangs (R386 to R411) -/

namespace Sys2Proof.Claim

open Machine

/-- The queue that an event names. -/
def queueOf (s : State) : Queue := s.queue s.arg.unit s.arg.k

/-- Where a queue reads on once its head is taken: past the head, or where it stood if it was disabled since it read it (R393, R396). -/
def nextRd (x : Queue) : Nat := if x.hidx = x.rd then x.rd + 1 else x.rd

/-- A queue of a package that reads no further packet at an index (R393, R394, R403, R431). -/
def ReadsNothing (s : State) (x : Queue) (rd : Nat) : Prop := x.state ≠ 1 ∨ x.en = false ∨ x.wr ≤ rd ∨ (s.pkg s.arg.unit).health = 2

/-- The head that its event may work on (R395, R396): a packet of the event's form in a queue that is not in error, that no `bar` holds, with a
good header, no older packet of its index, and no packet behind it to be read. -/
def Head (s : State) (i : Instr) (w : List Nat) : Prop :=
  let x := queueOf s
  x.head = some w ∧ x.state ≠ 2 ∧ packetEvent w = some i ∧ (w.headD 0 / 2 ^ 8 % 2 = 0 ∨ x.opens = []) ∧ headerOk w = true ∧
    ReadsNothing s x (nextRd x) ∧ ∀ e ∈ x.opens, e.1 ≠ x.hidx

/-- The head packet has been taken and is complete: the queue stands at the next one, nothing else of it changed. -/
def Passed (s t : State) : Prop := queueOf t = { queueOf s with rd := nextRd (queueOf s), head := none, ready := none } ∧ t.arg = s.arg

/-- Memory after −1 was added to a packet's completion signal, if it has one (R395, R402). -/
def signalled (s : State) (w : List Nat) (u : State) : State :=
  if w.getD 7 0 = 0 then u else signalAdd s.arg.unit (packetCtx (queueOf s) w) (w.getD 7 0) (2 ^ 64 - 1) u

/-- Packet i of the queue has failed with a code (R403). -/
def Failed (i code : Nat) (t : State) : Prop := (queueOf t).state = 2 ∧ (queueOf t).code = code ∧ (queueOf t).idx = i

/-- The event of a packet at the head of the event's queue is due. -/
def HeadDue (s : State) (i : Instr) (t : State) : Prop := ∃ a, (i, a) ∈ t.agenda ∧ a.unit = s.arg.unit ∧ a.k = s.arg.k ∧ a.flag = true

end Sys2Proof.Claim

open Sys2Proof Machine Claim in
/-- A queue is enabled with its fields and starts at packet 0 or with the packet that it had read before, or is refused with a code that
applies; disabled, it reads no further packet and keeps what it has read (R393); its doorbell moves only forwards and at most one ring ahead,
and an active queue then reads its next packet (R394). A completed packet adds −1 to its signal and leaves the queue's open packets (R402).
A packet whose header or address is bad fails its queue with code 1 (R395, R396, R403). The indexes of a queue run on over a disable, from a
multiple of 2^64 for each (log 25). -/
def Obligations.QueueRegistersAndCompletion : Prop :=
  ∀ s : State, let x := queueOf s; let v := s.arg.v; let u := s.arg.unit
    let y := { x with pri := v / 2 ^ 24 % 8, part := v / 2 ^ 20 % 8, lg := v / 2 ^ 16 % 16, ctx := v % 2 ^ 16 }
    let z := { y with idx := 0 }
    let e := x.epoch * 2 ^ 64
    (x.en = true → exec .queueEnable s = .next s) ∧
    (x.en = false → x.wr = 0 ∨ x.head.isSome = true → (∀ w, x.head = some w → (packetEvent w).isSome = true) → enableCodes s u z = [] →
      ∃ t, exec .queueEnable s = .next t ∧ SameMemory s t ∧
        queueOf t = { z with en := true, state := 1, code := 0, rd := e, wr := e + x.wr, swapped := e } ∧
        ∀ w i, x.head = some w → packetEvent w = some i → HeadDue s i t) ∧
    (x.en = false → enableCodes s u z ≠ [] → ∃ t c, exec .queueEnable s = .next t ∧ c ∈ enableCodes s u z ∧ queueOf t = { z with state := 3, code := c } ∧
      SameMemory s t) ∧
    (∃ t, exec .queueDisable s = .next t ∧ SameMemory s t ∧
      queueOf t = (if x.en = true then { x with en := false, state := 0, code := 0, idx := 0, wr := 0, epoch := x.epoch + 1 } else y)) ∧
    (x.en = false → (v < x.wr ∨ 2 ^ x.lg < v → exec .qwrWrite s = .next s) ∧
      (x.wr ≤ v → v ≤ 2 ^ x.lg → ∃ t, exec .qwrWrite s = .next t ∧ queueOf t = { x with wr := v } ∧ SameMemory s t)) ∧
    (x.en = true → (e + v < x.wr ∨ x.rd + 2 ^ x.lg < e + v → exec .qwrWrite s = .next s) ∧
      (x.wr ≤ e + v → e + v ≤ x.rd + 2 ^ x.lg →
        (x.state ≠ 2 → x.head.isSome = true ∨ ReadsNothing s { x with wr := e + v } x.rd → ∃ t, exec .qwrWrite s = .next t ∧
          queueOf t = { x with wr := e + v } ∧ SameMemory s t) ∧
        (∀ b i, x.state = 1 → x.head = none → x.rd < e + v → (s.pkg u).health ≠ 2 →
          readClean s u x.ctx (x.base + 64 * (x.rd % 2 ^ x.lg)) 64 = some b → packetEvent (wordsOf 8 8 b ++ [x.ctx]) = some i →
          ∃ t, exec .qwrWrite s = .next t ∧ SameMemory s t ∧ HeadDue s i t ∧
            queueOf t = { x with wr := e + v, head := some (wordsOf 8 8 b ++ [x.ctx]), hidx := x.rd }) ∧
        (x.state = 1 → x.head = none → x.rd < e + v → (s.pkg u).health ≠ 2 → readClean s u x.ctx (x.base + 64 * (x.rd % 2 ^ x.lg)) 64 = none →
          ∃ t, exec .qwrWrite s = .next t ∧ Failed x.rd 1 t) ∧
        (∀ w, x.state = 2 → x.wr + 1 = e + v → x.opens = [] → x.head = none → x.rd ≤ x.wr → x.swapped ≤ x.wr →
          slotWords s u s.arg.k x.wr = some w → w.getD 7 0 ≠ 0 → ∃ t, exec .qwrWrite s = .next t ∧ (queueOf t).wr = e + v ∧ (queueOf t).state = 2 ∧
            t.mem = (signalStore u x.ctx (w.getD 7 0) (2 ^ 64 - 1) s).mem))) ∧
    (∀ w, x.opens.find? (fun e => e.1 = s.arg.n) = some (s.arg.n, w) → x.head = none → ReadsNothing s x x.rd → ∃ t, exec .packetCompletion s = .next t ∧
      queueOf t = { x with opens := x.opens.filter fun e => e.1 ≠ s.arg.n } ∧ t.mem = (signalled s w s).mem ∧
      ∀ g ∈ (t.pkg u).grids, ¬ (g.queue = s.arg.k ∧ g.idx = s.arg.n)) ∧
    (x.opens.find? (fun e => e.1 = s.arg.n) = none → exec .packetCompletion s = .next s) ∧
    (∀ i w, x.head = some w → x.state ≠ 2 → packetEvent w = some i → (w.headD 0 / 2 ^ 8 % 2 = 0 ∨ x.opens = []) → s.arg.flag = true →
      (w.headD 0 / 2 ^ 9 % 2 ^ 23 ≠ 0 ∨ w.getD 7 0 % 8 ≠ 0) → ∃ t, exec i s = .next t ∧ Failed x.hidx 1 t ∧ (queueOf t).head = none)

open Sys2Proof Machine Claim in
/-- The packets (R395 to R401): a barrier packet is evaluated until its signals let it complete or abort it; a signal packet stores, adds or
triggers and completes at once; a copy packet is taken by the lowest die whose engine has room, waits while none has, and then walks stretch by
stretch as the memory channels serve it (R295); a table load offers its words to every channel of its range, and fails where one refuses
them; a launch packet is a ready head of the dispatcher. -/
def Obligations.PacketEvents : Prop :=
  ∀ (s : State) (w : List Nat), let x := queueOf s; let u := s.arg.unit; let k := s.arg.k; let ctx := packetCtx x w
    (∀ i ∈ [Instr.barrierAndPacket, .barrierOrPacket], Head s i w → barrierOk w = true →
      exec i s = .next (s.postOnce .barrierEvaluation { unit := u, k := k })) ∧
    (∀ i ∈ [Instr.barrierAndPacket, .barrierOrPacket], Head s i w → ∀ vals, (barrierSignals w).mapM (fun a => (readClean s u ctx a 8).map ofBytes) = some vals →
      ((∃ v ∈ vals, v ≠ 0) → (∀ v ∈ vals, v < 2 ^ 63) → (i = .barrierOrPacket → ∀ v ∈ vals, v ≠ 0) →
        exec .barrierEvaluation s = .next (s.postOnce .barrierEvaluation { unit := u, k := k })) ∧
      ((∃ v ∈ vals, 2 ^ 63 ≤ v) → ∃ t, exec .barrierEvaluation s = .next t ∧ Failed x.hidx 2 t) ∧
      ((∀ v ∈ vals, v < 2 ^ 63) → ((∀ v ∈ vals, v = 0) ∨ (i = .barrierOrPacket ∧ ∃ v ∈ vals, v = 0)) → ∃ t, exec .barrierEvaluation s = .next t ∧
        Passed s t ∧ t.mem = (signalled s w s).mem)) ∧
    (Head s .signalStorePacket w → w.getD 1 0 % 8 = 0 → ∃ t, exec .signalStorePacket s = .next t ∧ Passed s t ∧
      t.mem = (signalled s w (signalStore u ctx (w.getD 1 0) (w.getD 2 0) s)).mem) ∧
    (Head s .signalAddPacket w → w.getD 1 0 % 8 = 0 → ∃ t, exec .signalAddPacket s = .next t ∧ Passed s t ∧
      t.mem = (signalled s w (signalAdd u ctx (w.getD 1 0) (w.getD 2 0) s)).mem) ∧
    (Head s .signalTriggerPacket w → ∃ t, exec .signalTriggerPacket s = .next t ∧ Passed s t ∧ t.mem = (signalled s w s).mem ∧
      ∀ p, trigPlan s (w.getD 1 0 % 2 ^ 13) (w.getD 2 0) = some p → w.getD 2 0 / 2 ^ 38 % 2 = 0 →
        (.planTriggerDelivery, { unit := ((s.plan p).rank (w.getD 2 0 / 2 ^ 24 % 2 ^ 14)).pkg, k := w.getD 2 0 / 2 ^ 24 % 2 ^ 14, j := w.getD 1 0 % 2 ^ 13, v := w.getD 2 0 }) ∈ t.agenda) ∧
    (Head s .copyPacket w → s.arg.flag = true → copyFieldsOk w = true →
      let free := (partDies s u x.part).find? (fun d => decide ((s.die d).qcopies.length < 16))
      (free = none → exec .copyPacket s = .next s) ∧
      ∀ d l c, free = some d → locsOf (engine u ctx) s false true 0 (0, 0) (w.getD 1 0) 64 = (l, none) → cleanPrefix (engine u ctx) s l 64 = 64 →
        c = packetCopy w (wordsOf 8 8 (l.map (readLoc (engine u ctx) s))) → copyBlockOk c = true → ∃ t, exec .copyPacket s = .next t ∧
        (t.die d).qcopies = (s.die d).qcopies ++ [(k, x.hidx, c)] ∧ (.copyPacket, { unit := u, k := k, n := x.hidx, flag := false }) ∈ t.agenda ∧
        queueOf t = { x with rd := nextRd x, head := none, ready := none, opens := x.opens ++ [(x.hidx, w)] } ∧ SameMemory s t) ∧
    (∀ d c, s.arg.flag = false → engineCopy s u k s.arg.n = some (d, c) → (∀ q ∈ (s.pkg u).queues, ∀ h, q.2.head = some h → (packetEvent h).isSome = true) →
      let e := engine u (openCtx x s.arg.n)
      let pas := physOf ((c.nextLocs e s).1 ++ (c.nextLocs e s).2)
      let r := c.stretch e 64 (drawUnits pas s)
      (∀ a ∈ pas, Served s a) → r.2.2 = none → ∃ t, exec .copyPacket s = .next t ∧ t.mem = r.1.mem ∧
        (if r.2.1.walked = true then (.packetCompletion, { unit := u, k := k, n := s.arg.n }) else (.copyPacket, { unit := u, k := k, n := s.arg.n, flag := false })) ∈ t.agenda) ∧
    (∀ b, Head s .tableLoadPacket w → tableOk u k s w = true → readClean s u ctx (w.getD 1 0) (8 * (w.getD 2 0 % 2 ^ 16)) = some b →
      let keys := (List.range (w.getD 2 0 / 2 ^ 48 % 2 ^ 16)).map fun i => u * 512 + w.getD 2 0 / 2 ^ 32 % 2 ^ 9 + i
      let ws := wordsOf 8 (w.getD 2 0 % 2 ^ 16) b
      ((∀ key ∈ keys, loadResult (s.chan key) ws = (0, 0)) → ∃ t, exec .tableLoadPacket s = .next t ∧
        (∀ key ∈ keys, t.chan key = { s.chan key with lres := 0, lidx := 0, table := ws, state := 1 }) ∧
        (∀ key, key ∉ keys → t.chan key = s.chan key) ∧ (.packetCompletion, { unit := u, k := k, n := x.hidx }) ∈ t.agenda ∧ SameMemory s t) ∧
      ((∃ key ∈ keys, (loadResult (s.chan key) ws).1 ≠ 0) → ∃ t, exec .tableLoadPacket s = .next t ∧ Failed x.hidx 4 t ∧
        ∀ key ∈ keys, (t.chan key).lres = (loadResult (s.chan key) ws).1)) ∧
    (Head s .launchPacket w → launchOk u k s w = true → x.ready = none → ∃ t, exec .launchPacket s = .next t ∧
      queueOf t = { x with ready := some s.tick } ∧ (.gangPlacement, { unit := u, k := x.part }) ∈ t.agenda ∧ SameMemory s t)

open Sys2Proof Machine Claim in
/-- GANG_PLACEMENT serves the highest effective priority: it calls for a resumption that can be made, else puts a gang of the ready head on
the first free cores of a die that can take it, one task to a core in the order of ranks, with fresh registers and an empty scratchpad, and
takes the packet with its last gang; where nothing at that level can be placed, nothing is (R107, R149, R389, R390, R396, R405).
GANG_RESUMPTION restores a saved gang on its cores, or aborts a context whose area cannot be read back (R410, R411). TASK_END frees a core, and with the last task of the last gang its packet completes (R391). -/
def Obligations.GangsArePlacedResumedAndEnded : Prop :=
  ∀ s : State, let u := s.arg.unit; let k := s.arg.k
    ((∃ g ∈ nextSaved s u k, canResume s g = true) → exec .gangPlacement s = .next (s.post .gangResumption { unit := u, k := k })) ∧
    ((∀ g ∈ nextSaved s u k, canResume s g = false) → (∀ e ∈ readyQueues s u k, effPri e.2 s.tick = topPri s u k → tryPlace u e.1 s = none) →
      exec .gangPlacement s = .next s) ∧
    (∀ q x w img d, (∀ g ∈ nextSaved s u k, canResume s g = false) → readyQueues s u k = [(q, x)] → effPri x s.tick = topPri s u k → s.queue u q = x →
      x.head = some w → readImage s u (packetCtx x w) (w.getD 2 0) = some img → hoursFree s u img w = true →
      bestOf (fun d => (freeCores s d).length) ((launchDies s u x.part w).filter (canTake s w)) = some d →
      let g := ((s.pkg u).grids.find? (fun g => g.queue = q && g.idx = x.hidx)).getD
        { queue := q, idx := x.hidx, dws := w, ctx := packetCtx x w, num := tabGet 0 (s.pkg u).gridNo (packetCtx x w) }
      (g.next + 1 = launchG w → ReadsNothing s x (nextRd x)) → ∃ t, exec .gangPlacement s = .next t ∧
      (∀ i c, i < launchTasks w → (freeCores s d)[i]? = some c → ∃ y, TaskOn t c y ∧ y.ctx = packetCtx x w ∧ y.grid = g.num ∧ y.gang = g.next ∧ y.rank = i ∧
        y.image = w.getD 2 0 ∧ y.gsize = launchTasks w ∧ y.spadBytes = imgField img 0x48 4 ∧ y.s.pc = imgEntry img 0 ∧ s.tick ≤ y.start ∧
        y.s.regs = List.replicate 64 0 ∧ (t.core c).spad = [] ∧ (t.core c).tags = []) ∧
      (∀ c, c ∉ (freeCores s d).take (launchTasks w) → t.core c = s.core c) ∧ SameMemory s t ∧
      (g.next + 1 ≠ launchG w → (t.queue u q).head = some w ∧ (t.queue u q).rd = x.rd) ∧
      (g.next + 1 = launchG w → (t.queue u q).head = none ∧ (t.queue u q).rd = nextRd x ∧ (t.queue u q).opens = x.opens ++ [(x.hidx, w)])) ∧
    (∀ g, (nextSaved s u k).find? (canResume s) = some g →
      ((∀ x ∈ g.tasks, areaReads s u x.task = true) → (g.tasks.map (·.core)).Nodup → ∃ t, exec .gangResumption s = .next t ∧ t.saved = s.saved.erase g ∧
        (.gangPlacement, { unit := u, k := k }) ∈ t.agenda ∧ SameMemory s t ∧
        ∀ x ∈ g.tasks, ∃ y, TaskOn t x.core y ∧ y.id = x.task.id ∧ y.halt = none ∧ y.s.regs = x.task.s.regs ∧ y.s.pc = x.task.s.pc ∧ y.acc = x.task.acc ∧
          s.tick ≤ y.start ∧ (t.core x.core).spad = x.spad) ∧
      ((∃ x ∈ g.tasks, areaReads s u x.task = false) → ∃ t, exec .gangResumption s = .next t ∧
        ∀ h ∈ t.saved, ¬ (h.pkg = u ∧ h.gang / 2 ^ 39 = g.gang / 2 ^ 39))) ∧
    ((nextSaved s u k).find? (canResume s) = none → exec .gangResumption s = .next s) ∧
    (taskOver s u = false → exec .taskEnd s = .next s) ∧
    (∀ x, taskOver s u = true → TaskOn s u x → ∃ t, exec .taskEnd s = .next t ∧ (t.core u).task = none ∧ (t.core u).remote = 0 ∧ SameMemory s t ∧
      ∀ g, coresWith (pkgOf u) (fun y => gangOf y.id = gangOf x.id) s = [u] → (s.pkg (pkgOf u)).grids.find? (fun g => g.queue = x.queue && g.idx = x.pidx) = some g →
        g.ended + 1 = launchG g.dws → (.packetCompletion, { unit := pkgOf u, k := x.queue, n := x.pidx }) ∈ t.agenda)

/-! ### Pre-emption, the hang timer, errors and spares (R406 to R417, R421, R427 to R432) -/

namespace Sys2Proof.Claim

open Machine

/-- A resident task of a partition's gang (R406). -/
def InGang (s : State) (u k g c : Nat) (x : Task) : Prop := TaskOn s c x ∧ pkgOf c = u ∧ gangOf x.id = g ∧ x.part = k

/-- The task of every core but the named ones stands as before. -/
def OtherTasks (l : List Nat) (s t : State) : Prop := ∀ c, c ∉ l → (t.core c).task = (s.core c).task

/-- The location is poisoned (R428). -/
def Poisoned (l : ErrLoc) (t : State) : Prop := l ∈ t.poison

end Sys2Proof.Claim

open Sys2Proof Machine Claim in
/-- `vesper` only advances unless its gang is asked for, its entry exists and the V, M and C streams are parked; then the task stops
there and the save goes on (R407, R421).
A request starts a pre-emption of a gang that is resident and can be saved, is refused with a reason otherwise, and is ignored
while one is under way (R406, R407, R412). At the bound the tasks still running stop by force. A task of which a fault has stopped one
stream counts as stopped and issues nothing more (R412; log 26). The save waits until every task has stopped (state 2) and every value exists; then the gang leaves its cores and is saved (state 3) (R408, R410). `pmres` queues a saved
gang for its resumption (R411). -/
def Obligations.VesperPointsAndPreemption : Prop :=
  (∀ (s : State) (g : Guard) (n : Nat), Issues g s → let t := (guardRead g s).2
     let stops := requested s = true ∧ (s.task.vesper n).isSome = true ∧ parked s.task.v = true ∧ parked s.task.m = true ∧ parked s.task.c = true
     (¬ stops → exec (.vesper g n) s = .next t) ∧
     (stops → exec (.vesper g n) s = .next ((t.modTask fun x => { x with halt := some (1, n) }).postOnce .preemptSave { unit := pkgOf s.cur.core, k := s.task.part }))) ∧
  (∀ s : State, let u := s.arg.unit; let k := s.arg.k; let v := s.arg.v; let p := s.part u k; let cores := gangCores s u k p.gang
     ((p.pm = 1 ∨ p.pm = 2 ∨ v % 2 = 0) → exec .pmreqWrite s = .next s ∧ exec .pmresWrite s = .next s) ∧
     (∀ g c x, InGang s u k g c x → c ∈ gangCores s u k g) ∧
     (p.pm ≠ 1 → p.pm ≠ 2 → v % 2 = 1 → ∃ t, exec .pmreqWrite s = .next t ∧ SameMemory s t ∧ OtherTasks [] s t ∧
       let asked := gangCores s u k (v / 512)
       (asked = [] → (t.part u k).pm = 4 ∧ (t.part u k).why = 1) ∧
       (∀ c ∈ asked, ∀ x, TaskOn s c x → x.save = 0 → (t.part u k).pm = 4 ∧ (t.part u k).why = 2) ∧
       (asked ≠ [] → (∀ c ∈ asked, ∀ x, TaskOn s c x → x.save ≠ 0) → t.part u k = { p with pm := 1, why := 0, gang := v / 512, since := s.tick } ∧
         (.preemptSave, { unit := u, k := k }) ∈ t.agenda)) ∧
     (p.pm ≠ 1 → p.pm ≠ 2 → v % 2 = 1 → ∀ g ∈ s.saved, g.pkg = u → g.part = k → g.gang = v / 512 → ∃ t, exec .pmresWrite s = .next t ∧ { g with resume := true } ∈ t.saved ∧
       (.gangPlacement, { unit := u, k := k }) ∈ t.agenda ∧ SameMemory s t) ∧
     (¬ (p.pm = 1 ∧ p.since + 1000 * p.bnd ≤ s.tick) → exec .preemptBoundExpiry s = .next s) ∧
     (p.pm = 1 → p.since + 1000 * p.bnd ≤ s.tick → ∃ t, exec .preemptBoundExpiry s = .next t ∧ SameMemory s t ∧ OtherTasks cores s t ∧
       (∀ c x, InGang s u k p.gang c x → TaskOn t c (if taskStopped x = true then x else { x with halt := some (2, 0) })) ∧ (.preemptSave, { unit := u, k := k }) ∈ t.agenda) ∧
     (cores ≠ [] → p.pm = 1 → ∃ t, exec .preemptSave s = .next t ∧ (.preemptSave, { unit := u, k := k }) ∈ t.agenda ∧ SameMemory s t ∧ OtherTasks cores s t ∧
       (∀ c x, InGang s u k p.gang c x → TaskOn t c (if faulted x = true ∧ x.halt = none then { x with halt := some (4, 0) } else x)) ∧
       ((∀ c ∈ cores, ∀ x, TaskOn s c x → taskStopped x = true) → t.part u k = { p with pm := 2 }) ∧
       (∀ c ∈ cores, ∀ x, TaskOn s c x → taskStopped x = false → t.part u k = p)) ∧
     (∀ c ∈ cores, ∀ x, TaskOn s c x → p.pm = 2 → taskQuiet s c x = false → exec .preemptSave s = .next (s.postOnce .preemptSave { unit := u, k := k })) ∧
     (∀ w, cores ≠ [] → p.pm = 2 → (∀ c ∈ cores, ∀ x, TaskOn s c x → taskQuiet s c x = true) → writeAreas u cores s = some w → ∃ t sv, exec .preemptSave s = .next t ∧
       t.mem = w.mem ∧ (t.part u k).pm = 3 ∧ t.saved = s.saved ++ [sv] ∧ sv.pkg = u ∧ sv.part = k ∧ sv.gang = p.gang ∧ OtherTasks cores s t ∧
       (∀ c ∈ cores, (t.core c).task = none) ∧
       ∀ c x, InGang s u k p.gang c x → ∃ y ∈ sv.tasks, y.core = c ∧ ((∀ n, x.halt ≠ some (1, n)) → y.task = x ∧ y.spad = (w.core c).spad)))

open Sys2Proof Machine Claim in
/-- The partition hang timer: a kick reloads it while it counts; at its end every context of the partition is aborted, its cores hold
nothing and every queue of it is in error with code 0x05 (R413, R414). -/
def Obligations.HangTimerReloadsOrResetsItsPartition : Prop :=
  ∀ s : State, let u := s.arg.unit; let k := s.arg.k; let p := s.part u k
    (∃ t, exec .mnstKick s = .next t ∧ SameMemory s t ∧ OtherTasks [] s t ∧
      t.part u k = (if midnightBusy s u k = true then { p with run := some (s.tick + 1000 * p.per) } else { p with run := none, rem := p.per })) ∧
    ((∀ r, p.run = some r → s.tick < r ∨ midnightBusy s u k = false) → exec .midnightExpiry s = .next s) ∧
    (∀ r, p.run = some r → r ≤ s.tick → midnightBusy s u k = true → ∃ t, exec .midnightExpiry s = .next t ∧
      (∀ c, dieOf c ∈ partDies s u k → (t.core c).task = none) ∧
      ∀ q, q < 1024 → (s.queue u q).part = k → (t.queue u q).state = 2 ∧ (t.queue u q).code = 5 ∧ (t.queue u q).idx = oldest (s.queue u q))

open Sys2Proof Machine Claim in
/-- A corrected error is only counted (R427). An uncorrectable one poisons its unit; a clean L1 line goes, and a dirty one keeps its poison; a
poisoned translation raises data loss for the access that uses it (R428). A core's fourth such error within a second marks it failed, a
channel's fourth retires the channel; a failed core without a task takes a spare of its die or is out of service, and the loss is announced
on vector 8 (R429). -/
def Obligations.ErrorsPoisonAndUnitsAreSpared : Prop :=
  ∀ s : State, let u := s.arg.unit; let l := s.arg.loc
    (∃ t, exec .correctedError s = .next t ∧ t.poison = s.poison ∧ SameMemory s t ∧ OtherTasks [] s t ∧ ∀ c, (t.core c).errs = (s.core c).errs) ∧
    (∃ t, exec .uncorrectableError s = .next t ∧
      (match l with
       | .hbm _ | .base _ _ => Poisoned l t
       | .l1 c n => if (n / 16, true) ∈ (s.core c).l1 then Poisoned l t else (∀ d, (n / 16, d) ∉ (t.core c).l1) ∧ t.poison = s.poison
       | .utlb c st p => t.poison = s.poison ∧ ∀ x, TaskOn s c x → ∃ y, TaskOn t c y ∧ (y.str st).utlb = spoilTlb p (x.str st).utlb
       | .tlb c p => t.poison = s.poison ∧ (t.core c).tlb = spoilTlb p (s.core c).tlb
       | .dtlb d p => t.poison = s.poison ∧ (t.die d).tlb = spoilTlb p (s.die d).tlb
       | _ => SameMemory s t ∧ Poisoned l t ∧ ∀ e, e ≠ l → (e ∈ t.poison ↔ e ∈ s.poison))) ∧
    (∀ c, ((∃ st r, l = .reg c st r) ∨ (∃ n, l = .icache c n ∨ l = .spad c n ∨ l = .l1 c n ∨ l = .tlb c n) ∨ ∃ f r, l = .file c f r) →
      ∃ t, exec .uncorrectableError s = .next t ∧ OtherTasks [] s t ∧
      (t.core c).errs = s.tick :: (s.core c).errs.filter (fun e => decide (s.tick < e + 10 ^ 9)) ∧
      ((t.core c).failed = true ↔ (s.core c).failed = true ∨ 4 ≤ (t.core c).errs.length) ∧
      (4 ≤ (t.core c).errs.length → (s.core c).failed = false → (.coreSpareTakeover, { unit := c }) ∈ t.agenda)) ∧
    (∀ key, ((∃ n, l = .base key n) ∨ ∃ col, l = .hbm col ∧ columnChan col = key) →
      let errs := s.tick :: (s.chan key).errs.filter (fun e => decide (s.tick < e + 10 ^ 9))
      ∃ t, exec .uncorrectableError s = .next t ∧
      (errs.length < 4 → t.chan key = { s.chan key with errs := errs }) ∧
      (4 ≤ errs.length → (t.chan key).state = 3 ∧ ((s.chan key).state ≠ 3 → (t.pkg (key / 512)).msix.testBit 8 = true))) ∧
    (let x := s.core u
     (x.failed = false ∨ x.task.isSome = true ∨ x.out = true → exec .coreSpareTakeover s = .next { s with nfree := s.nfree + 1 }) ∧
     (x.failed = true → x.task = none → x.out = false → ∃ t, exec .coreSpareTakeover s = .next t ∧ (t.pkg (pkgOf u)).msix.testBit 8 = true ∧
       (t.core u).task = none ∧ (if (s.die (dieOf u)).spares = 0 then (t.core u).out = true ∧ (t.core u).failed = true
         else (t.core u).failed = false ∧ (t.core u).out = false ∧ (t.core u).errs = [] ∧ (∀ st r, ErrLoc.reg u st r ∉ t.poison) ∧
           (t.die (dieOf u)).spares + 1 = (s.die (dieOf u)).spares)))

/-! ### Registers of the host and of the rack controller (R9 to R12, R236, R242, R243, R386 to R388, R435 to R446) -/

namespace Sys2Proof.Claim

open Machine

/-- No task of a package's core is resident, and nothing of it is saved. -/
def NoTasks (u : Nat) (t : State) : Prop := (∀ c, c / 4096 = u → (t.core c).task = none) ∧ ∀ g ∈ t.saved, g.pkg ≠ u

/-- A context of a package is aborted (R388): no task of it is resident and no gang of it is saved there. -/
def Aborted (u ctx : Nat) (t : State) : Prop :=
  (∀ c x, pkgOf c = u → TaskOn t c x → x.ctx ≠ ctx) ∧ ∀ g ∈ t.saved, g.pkg = u → g.gang / 2 ^ 39 ≠ ctx

/-- A W1C bit after a write (R9, R10): a 1 clears it, unless the hardware has set it in the same wall cycle. -/
def Cleared (s : State) (b : SetBit) (old : Bool) (one : Nat) : Bool := old && (decide (one = 0) || s.setBits.contains b)

/-- A package register changed by a step that changes nothing else. -/
def PkgStep (i : Instr) (u : Nat) (f : Pkg → Pkg) (s : State) : Prop := exec i s = .next (s.modPkg u f)

end Sys2Proof.Claim

open Sys2Proof Machine Claim in
/-- An invalidation removes every translation of its range at once and is busy until what used one is performed; a second write sets
`ovf` (R242). A task stopped by a fault goes on at the host's word, with its registers as they stood (R243); or its context is aborted
(R243, R388). -/
def Obligations.TranslationAndFaultRegisters : Prop :=
  ∀ s : State, let u := s.arg.unit; let v := s.arg.v; let x := (s.pkg u).xinv
    (x.isSome = true → exec .xinvWrite s = .next (setNow (.xinvOvf u) (s.modPkg u fun p => { p with xinvOvf := true }))) ∧
    (x = none → ∃ t, exec .xinvWrite s = .next t ∧ (t.pkg u).xinv = some v ∧ (.xinvComplete, { unit := u }) ∈ t.agenda ∧ SameMemory s t ∧
      (∀ c, pkgOf c = u → ∀ e ∈ (t.core c).tlb, xinvHits v e.ctx (e.vpn * 2 ^ e.bits) e.bits = false) ∧
      (∀ d, d / 8 = u → ∀ e ∈ (t.die d).tlb, xinvHits v e.ctx (e.vpn * 2 ^ e.bits) e.bits = false) ∧
      (∀ d, d / 8 = u → ∀ e ∈ (t.die d).walkq ++ (t.die d).walkers, xinvHits v e.ctx e.va 16 = false) ∧
      (∀ c y st, pkgOf c = u → TaskOn t c y → ∀ e ∈ (y.str st).utlb ++ y.mtlb, xinvHits v e.ctx (e.vpn * 2 ^ e.bits) e.bits = false) ∧
      ∀ g ∈ t.saved, g.pkg = u → ∀ y ∈ g.tasks, ∀ st, ∀ e ∈ (y.task.str st).utlb ++ (y.task.str st).got, xinvHits v e.ctx (e.vpn * 2 ^ e.bits) e.bits = false) ∧
    (x = none → exec .xinvComplete s = .next s) ∧
    (∀ w, x = some w → accessesDone s u w = true → PkgStep .xinvComplete u (fun p => { p with xinv := none }) s) ∧
    (∀ w, x = some w → accessesDone s u w = false → exec .xinvComplete s = .next (s.postOnce .xinvComplete { unit := u })) ∧
    (∃ t, exec .xresResume s = .next t ∧ SameMemory s t ∧ (∀ c, pkgOf c ≠ u → (t.core c).task = (s.core c).task) ∧
      ∀ c y, pkgOf c = u → TaskOn s c y → y.ctx = v / 2 ^ 16 % 2 ^ 16 → outstanding s u (v / 2 ^ 32 % 2 ^ 32) y = true → ∃ z, TaskOn t c z ∧
        z.s.regs = y.s.regs ∧ z.s.pc = y.s.pc ∧ z.v.regs = y.v.regs ∧ z.q = y.q ∧ z.acc = y.acc ∧ z.tls = y.tls ∧
        ∀ st how, (how = .retry ∨ how = .cont) → (y.str st).status = .stopped (v / 2 ^ 32 % 2 ^ 32) how → (z.str st).status = .running) ∧
    (namesFault s u (v / 2 ^ 16 % 2 ^ 16) (v / 2 ^ 32 % 2 ^ 32) = false → exec .xresAbort s = .next s) ∧
    (namesFault s u (v / 2 ^ 16 % 2 ^ 16) (v / 2 ^ 32 % 2 ^ 32) = true → ∃ t, exec .xresAbort s = .next t ∧ Aborted u (v / 2 ^ 16 % 2 ^ 16) t)

open Sys2Proof Machine Claim in
/-- The linear part of a stack (R236), the partition mode (R386), a context's entry (R387) and the abort of a context (R388) obey
their registers' rules: values out of range and writes to what is in use change nothing but the reject bit; reserved bits of a context entry stay zero (R11). A change of
the linear part moves no data, and the caches hold no line of the stack after it (log 5's choice). -/
def Obligations.ConfigurationRegisters : Prop :=
  ∀ s : State, let u := s.arg.unit; let k := s.arg.k; let v := s.arg.v
    (64 < v % 128 ∨ (s.pkg u).kvEn = true ∨ 16 ≤ k → exec .hsplitWrite s = .next s) ∧
    (v % 128 ≤ 64 → (s.pkg u).kvEn = false → k < 16 → ∃ t, exec .hsplitWrite s = .next t ∧ linGiB t u k = v % 128 ∧ SameMemory s t ∧ dirtyLines t u k = [] ∧
      ∀ g j, (g ≠ u ∨ j ≠ k) → linGiB t g j = linGiB s g j) ∧
    (∃ t, exec .ptcfgWrite s = .next t ∧ SameMemory s t ∧ (t.pkg u).ptMode = (if deviceIdle s u = true then v % 4 else (s.pkg u).ptMode) ∧
      (t.pkg u).ptRej = (if deviceIdle s u = true then Cleared s (.ptRej u) (s.pkg u).ptRej (v / 4 % 2) else true)) ∧
    (busyCtx s u (fun c => decide (c = k)) true = true → exec .contextEntryWrite s = .next s) ∧
    (busyCtx s u (fun c => decide (c = k)) true = false → ∃ t, exec .contextEntryWrite s = .next t ∧ ctxEntry t u k = v / 2 ^ 124 % 2 ^ 4 * 2 ^ 124 + v / 2 ^ 64 % 2 ^ 46 * 2 ^ 64 + v % 2 ^ 56 ∧ SameMemory s t ∧
      (∀ c, c ≠ k → ctxEntry t u c = ctxEntry s u c) ∧ (v / 2 ^ 127 % 2 = 1 → ctxEntry s u k / 2 ^ 127 = 0 → tabGet 1 (t.pkg u).recSeq k = 1)) ∧
    (v / 2 ^ 31 % 2 = 0 → exec .ctxabWrite s = .next s) ∧
    (v / 2 ^ 31 % 2 = 1 → ∃ t, exec .ctxabWrite s = .next t ∧ Aborted u (v % 2 ^ 16) t)

open Sys2Proof Machine Claim in
/-- Event counters of the host (R435 to R437): who owns one, its value and configuration, and what its wrap does; a bit
that the hardware sets in a wall cycle is not cleared in it (R10).
Power control (R440, R441): every millisecond the rails' means, their sum, the mean over the window and the energy are kept. Above the cap
the throttle rises, memory first, by a step that reaches its limit within rsp milliseconds; at 98% of the cap or below it falls in the
reverse order; vector 9 tells that the cap begins or ceases to bind. How far beyond that a step goes is log 4's free choice. -/
def Obligations.HostCountersAndPowerControl : Prop :=
  (∀ s : State, let r := s.arg.ec; let e := s.ec r; let v := s.arg.v; let kind := v / 2 ^ 16 % 4
     let e' := { e with rej := Cleared s (.rej r) e.rej (v / 2 ^ 31 % 2) }
     (∃ t, exec .ecownWrite s = .next t ∧ SameMemory s t ∧ OtherTasks [] s t ∧ t.ec r =
       (if kind = 0 then { e' with kind := 0, ctx := v % 2 ^ 16 }
        else if e.kind ≠ 0 ∨ kind = 3 ∨ (kind = 2 ∧ ecIsCore r = false) then { e' with rej := true } else { e' with kind := kind, ctx := v % 2 ^ 16 })) ∧
     (∃ t, exec .ecHostValueWrite s = .next t ∧ SameMemory s t ∧ OtherTasks [] s t ∧ t.ec r =
       (if e.kind ≠ 0 then { e with rej := true } else if s.arg.k = 0 then { e with value := v % 2 ^ 48 }
        else { e with en := decide (v / 2 ^ 31 % 2 = 1), ovf := e.ovf && decide (v / 2 ^ 30 % 2 = 0), trap := decide (v / 2 ^ 8 % 2 = 1), event := v % 2 ^ 8 })) ∧
     (e.wrapped = false → exec .counterWrap s = .next s) ∧
     (e.wrapped = true → ∃ t, exec .counterWrap s = .next t ∧ (t.ec r).value = e.value ∧ (t.ec r).wrapped = false ∧
       (e.kind = 0 → (t.pkg (ecPkg r)).msix.testBit 11 = true ∧ SameMemory s t ∧ OtherTasks [] s t) ∧
       (e.kind = 1 → recSeq t (ecPkg r) e.ctx = nextSeq (recSeq s (ecPkg r) e.ctx)))) ∧
  (∀ s : State, let u := s.arg.unit; let p := (s.pkg u).power; let rails := [s.arg.k % 8192, s.arg.j % 8192, s.arg.n % 8192, s.arg.v % 8192]
     let w := (s.arg.k % 8192) + (s.arg.j % 8192) + (s.arg.n % 8192) + (s.arg.v % 8192)
     let last := ((w :: p.hist).take 1000).take p.win
     let mean := min 8191 (last.sum / last.length)
     (s.tick < p.due → exec .powerControlUpdate s = .next s) ∧
     (p.due ≤ s.tick → 1 ≤ p.win → 1 ≤ p.rsp → p.mem ≤ 32 → p.clk ≤ 48 → ∃ t, exec .powerControlUpdate s = .next t ∧ SameMemory s t ∧ OtherTasks [] s t ∧
       let q := (t.pkg u).power
       q.rails = rails ∧ q.hist = (w :: p.hist).take 1000 ∧ q.energy = (p.energy + w) % 2 ^ 64 ∧ q.cap = p.cap ∧ q.win = p.win ∧ q.rsp = p.rsp ∧
       q.avg = mean ∧ q.bind = decide (p.cap < mean) ∧ q.due = (s.tick / 10 ^ 6 + 1) * 10 ^ 6 ∧
       (p.cap < mean → p.mem ≤ q.mem ∧ p.clk ≤ q.clk ∧ (q.mem < 32 → q.clk = p.clk) ∧ min 80 (p.mem + p.clk + (80 + p.rsp - 1) / p.rsp) ≤ q.mem + q.clk) ∧
       (mean * 100 ≤ 98 * p.cap → q.mem ≤ p.mem ∧ q.clk ≤ p.clk ∧ (0 < q.clk → q.mem = p.mem) ∧ (0 < p.mem + p.clk → q.mem + q.clk < p.mem + p.clk)) ∧
       (mean ≤ p.cap → 98 * p.cap < mean * 100 → q.mem = p.mem ∧ q.clk = p.clk) ∧ q.mem ≤ 32 ∧ q.clk ≤ 48 ∧
       (p.bind ≠ q.bind → (t.pkg u).msix.testBit 9 = true)))

open Sys2Proof Machine Claim in
/-- The attestation report is the identity over the nonce with its signature (R446; what signs it is log 27's free value). Register
writes act by access type (R9, R10) and change nothing where the device does not answer (R442, R444). The rack controller reads and writes
only what R442 serves; the host reads and writes memory through its window (R443), and the bytes of a lease that is held,
each as its memory channel serves it (R295); an access to a handle that is not held is counted, a read of it gives all ones (R251). -/
def Obligations.RegisterAccessesOfHostAndRack : Prop :=
  ∀ s : State, let u := s.arg.unit; let v := s.arg.v; let k := s.arg.k; let n := s.arg.n
    (s.arg.flag = true → (s.pkg u).atBusy = true → exec .atctlGo s = .next s) ∧
    (s.arg.flag = true → (s.pkg u).atBusy = false → exec .atctlGo s = .next
      ((s.modPkg u fun p => { p with report := identityReport s u, atBusy := true, atDone := false }).post .atctlGo { unit := u, flag := false })) ∧
    (s.arg.flag = false → (s.pkg u).atBusy = true → ∃ t, exec .atctlGo s = .next t ∧ (t.pkg u).atDone = true ∧ (t.pkg u).atBusy = false ∧ SameMemory s t ∧
      (t.pkg u).report = (s.pkg u).report ++ (List.range 4627).map fun i => (Config.signature u (sha3_512 (s.pkg u).report) i).toNat) ∧
    (s.arg.flag = false → (s.pkg u).atBusy = false → exec .atctlGo s = .next s) ∧
    (k = 0x2008 → answers s u (0x10800000000 + k) true = true →
      PkgStep .registerWrite u (fun p => { p with xinvOvf := Cleared s (.xinvOvf u) p.xinvOvf (v / 2 % 2) }) s) ∧
    (answers s u (0x10800000000 + k) true = false → exec .registerWrite s = .next s) ∧
    (∀ j < 64, k = 0x4000 + 8 * j → answers s u (0x10800000000 + k) true = true → ∃ t, exec .registerWrite s = .next t ∧ pkgReg t u k = v % 2 ^ 64 ∧
      SameMemory s t ∧ OtherTasks [] s t ∧ ∀ i, i ≠ j → i < 64 → pkgReg t u (0x4000 + 8 * i) = pkgReg s u (0x4000 + 8 * i)) ∧
    (k = 0x9000 → exec .registerWrite s = .next s) ∧
    ((s.pkg u).on = false ∨ ((s.pkg u).health = 2 ∧ (s.pkg u).why = 1) ∨ mctpServes s.arg.flag k = false → exec .mctpRequest s = .next s) ∧
    ((s.pkg u).on = true → ¬ ((s.pkg u).health = 2 ∧ (s.pkg u).why = 1) → s.arg.flag = false → mctpServes false k = true →
      PkgStep .mctpRequest u (fun p => { p with mctp := ofBytes (windowRead s u (0x10800000000 + k) s.arg.j) }) s) ∧
    ((s.pkg u).on = true → ¬ ((s.pkg u).health = 2 ∧ (s.pkg u).why = 1) → s.arg.flag = true → k = 0xB000 → s.arg.j = 4 → ∃ t, exec .mctpRequest s = .next t ∧ SameMemory s t ∧ (t.pkg u).power.cap =
      (if 1000 ≤ v % 2 ^ 13 ∧ v % 2 ^ 13 ≤ 4400 then v % 2 ^ 13 else (s.pkg u).power.cap)) ∧
    (2 < k → exec .hostBarAccess s = .next s) ∧
    (k = 2 → hbmTop ≤ n → exec .hostBarAccess s = .next s) ∧
    (k = 2 → n < hbmTop → answers s u n s.arg.flag = true → (∀ a ∈ bytesFrom (u * 2 ^ 45 + n) s.arg.j, Served s a) → ∃ t, exec .hostBarAccess s = .next t ∧
      (if s.arg.flag = true then t.mem = (storeCells s (cellsOf (u * 2 ^ 45 + n) s.arg.j v)).mem
       else SameMemory s t ∧ (s.poison = [] → (t.pkg u).hostRd = ofBytes (readBytes s (u * 2 ^ 45 + n) s.arg.j) ∧ (t.pkg u).hostEp = false))) ∧
    (k = 1 → n < 2 ^ 34 → answers s u (hbmTop + n) s.arg.flag = true →
      (hostLease s u n s.arg.j = none → ∃ t, exec .hostBarAccess s = .next t ∧ SameMemory s t ∧
        (t.pkg u).refused = (s.pkg u).refused + 1 ∧
        (s.arg.flag = false → (t.pkg u).hostRd = 2 ^ (8 * s.arg.j) - 1)) ∧
      (∀ l, hostLease s u n s.arg.j = some l → s.chans ≠ [] → (∃ a ∈ l, chanBusy s a = true) → ∃ t, exec .hostBarAccess s = .next t ∧
        (.hostBarAccess, { unit := u, k := k, flag := s.arg.flag, n := n, j := s.arg.j, v := v }) ∈ t.agenda ∧ SameMemory s t ∧ (t.pkg u).hostRd = (s.pkg u).hostRd) ∧
      (∀ l, hostLease s u n s.arg.j = some l → (∀ a ∈ l, Served s a) → ∃ t, exec .hostBarAccess s = .next t ∧
        (if s.arg.flag = true then t.mem = (storeCells s (l.zip ((List.range l.length).map fun i => BitVec.ofNat 8 (v / 256 ^ i)))).mem
         else SameMemory s t ∧ (s.poison = [] → (t.pkg u).hostRd = ofBytes (l.map fun a => (readByte s a).toNat)))))

open Sys2Proof Machine Claim in
/-- The Dawn start-up begins a package anew: no task, no saved gang, the registers of its ports and units at
their reset values, its links in training (R12, R353, R379); parts that fail their test are spared or retired, and vector 10 tells its end; an image that
fails its check leaves it Offline, answering nothing but `dwst` and `hlth` (R429, R431, R444).
Without power it answers nothing and its memory holds what nothing has written, other packages' memory what it held (R442). What start-up
and power loss leave of the rest is log 29's. -/
def Obligations.StartUpAndPowerLoss : Prop :=
  ∀ s : State, let u := s.arg.unit; let k := s.arg.k
    (∃ t, exec .dawnStartup s = .next t ∧ NoTasks u t ∧ (t.pkg u).on = true ∧ (t.pkg u).queues = [] ∧ (t.pkg u).kvEn = false ∧ (s.plans = [] → k ≠ 0 ∨ s.arg.j / 2 ^ 32 = 0 → SameMemory s t) ∧
      (k ≠ 0 ∨ s.arg.j / 2 ^ 32 = 0 → ∀ j, (t.port u j).ev = 0 ∧ (t.port u j).ckf = 0 ∧ (t.port u j).peer = (s.port u j).peer) ∧
      (k ≠ 0 ∨ s.arg.j % 2 ^ 32 = 0 → (t.pkg u).units = []) ∧
      (k = 0 → (t.pkg u).msix.testBit 10 = true ∧ (∀ i < 4096, s.arg.n.testBit i = true → (t.core (u * 4096 + i)).failed = false ∨ (t.core (u * 4096 + i)).out = true) ∧
        (∀ i < 512, s.arg.v.testBit i = true → (t.chan (u * 512 + i)).state = 3) ∧
        ∀ i < 32, (s.arg.j % 2 ^ 32).testBit i = true → (tabGet {} (t.pkg u).units i).ret = true) ∧
      (k ≠ 0 → (t.pkg u).health = 2 ∧ (t.pkg u).why = 1 ∧ (t.pkg u).dfail = min k 4 ∧ (∀ a, answers t u a true = false) ∧
        ∀ o, answers t u (0x10800000000 + o) false = true ↔ regionOf (0x10800000000 + o) = .mmio 0xC000 ∨ regionOf (0x10800000000 + o) = .mmio 0x9000)) ∧
    (∃ t, exec .powerLoss s = .next t ∧ NoTasks u t ∧ (∀ a wr, answers t u a wr = false) ∧ (∀ p, (t.pkg p).reach.contains u = false) ∧
      (∀ a, a / 2 ^ 45 = u → Memory.get t.mem a = Memory.unlisted) ∧
      (s.plans = [] → (∀ p ∈ s.pkgs, ∀ q ∈ p.2.queues, q.2.en = false) → ∀ a, a / 2 ^ 45 ≠ u → Memory.get t.mem a = Memory.get s.mem a))

/-! ### Words, steps and what every step keeps (R57 to R80, R90 to R101, R288 to R290; log 1) -/

namespace Sys2Proof.Claim

open Machine

/-- What is due are the device's own steps: no instruction that a word encodes. -/
def EventsOnly (s : State) : Prop := ∀ e ∈ s.agenda, encode e.1 = none

/-- The machine as a mover of the order finds it: the mover's place in the wall cycle is reached. -/
def reached (m : Mover) (rest : List Mover) (s : State) : State := reachPlace m { s with sched := rest }

/-- A mover stands first in the order, and nothing that comes after it in the wall cycle has moved. -/
def Moves (s : State) (m : Mover) (rest : List Mover) : Prop := s.sched = m :: rest ∧ mayMove { s with sched := rest } m = true

/-- A stream comes to its next word, whose results due have landed: the machine that the word's instruction executes in (R90, R94). -/
def atWord (w : Nat) (i : Instr) (s : State) : State := holding i (landDue (s.modStr fun x => { x with word := w }))

/-- A sequencer comes to its next word, whose results due have landed (R290). -/
def atBankWord (key : Nat) (s : State) : State := settleNums key (s.modChan key fun c => { c with cyc := c.next }.landDue)

/-- The sequencer's word about to execute with its operands: its channel's schedule and the units it draws have it (R294, R295). -/
def bankReady (key : Nat) (i : Instr) (o : BankOps) (s : State) : State :=
  let t := countDie (dieOfChan key) 0x8E 1 ((atBankWord key s).modChan key fun c => (c.simWord i o).draw c.cyc (unitsOfWord i))
  { t with cur := { t.cur with chan := key }, bop := o }

/-- A step that the machine answers, with what its clock has done: it never runs back. -/
def ClockForward (s t : State) : Prop := s.wall ≤ t.wall ∧ s.tick ≤ t.tick

end Sys2Proof.Claim

open Sys2Proof Machine Claim in
/-- Decoding an encoded well-formed instruction gives it back with every operand: the four maps of the streams (R57 to R77) and the bank
command words (R78 to R80, R298). -/
def Obligations.DecodingAnEncodedInstructionGivesItBack : Prop :=
  (∀ k i, Instr.wf k i = true → ∃ w, encode i = some w ∧ w < 2 ^ 32 ∧ decode k w = .ok i) ∧
  (∀ i o, Instr.bankWf i o = true → ∃ w, encodeBank i o = some w ∧ w < 2 ^ 64 ∧ decodeBank w = .ok (i, o))

open Sys2Proof Machine Claim in
/-- A word has one meaning in a map: what decodes is well-formed and encodes to that very word, so two words never decode to the same
instruction and no assigned bit is ignored (R57 to R80). -/
def Obligations.AWordHasOneMeaning : Prop :=
  (∀ k w i, w < 2 ^ 32 → decode k w = .ok i → Instr.wf k i = true ∧ encode i = some w) ∧
  (∀ w i o, w < 2 ^ 64 → decodeBank w = .ok (i, o) → encodeBank i o = some w)

open Sys2Proof Machine Claim in
/-- Words written out from the spec's formats decode to the instructions they stand for (R57 to R80). -/
def Obligations.WordsDecodeAsTheFormatsSay : Prop :=
  decode .s 0x04E28C38 = .ok (.add ⟨3, true⟩ 5 6 7) ∧
  decode .v 0x5E538806 = .ok (.vexp2 ⟨9, false⟩ 19 17) ∧
  decode .m 0x500E5400 = .ok (.mmMac 3 4 5 1) ∧
  decode .c 0x58048040 = .ok (.plSetup 2 4 1) ∧
  decodeBank 0x181C500280000010 = .ok (.bdot, { w := 7, b := 5, r := 40, sq := 1 }) ∧
  (decode .s 0xFC000000).toOption = none

open Sys2Proof Machine Claim in
/-- A step runs what its mover has come to (R90 to R96, R199, R290): a running stream that nothing holds back fetches the word at its
program counter from its line of the instruction cache, and the step is `exec` of what the word decodes to, between the landing of due
results and the end of the stream's turn; one that cannot issue keeps the cause with which it froze, or freezes for the lowest that begins (R95, R96); a matrix array's is `exec` of the start of a follow-on command and then a cycle of the command
that holds it; a sequencer's is `exec` of its table's word; an event's is `exec` of the event. A mover whose place in the wall cycle has
been passed is left out. The order of movers is log 1's. -/
def Obligations.AStepRunsTheDecodedInstruction : Prop :=
  (∀ (s : State) c k rest w i line, Moves s (.stream c k) rest → let a := (reached (.stream c k) rest s).at c k; let va := a.task.image + a.str.regOff + a.str.pc
    a.task.halt = none → a.task.start ≤ a.tick → a.str.status = .running → a.str.redo = false → lateCause a.str = none → a.str.occ = none →
    (a.pkg (pkgOf c)).power.clk = 0 → a.str.pc % 4 = 0 → a.str.pc + 4 ≤ a.str.regLen →
    a.curCore.icache.find? (fun l => l.1 = icKey a.task.ctx va) = some line → ErrLoc.icache c (va / 8) ∉ a.poison →
    w = line.2 / 2 ^ (8 * (va % 64 / 4 * 4)) % 2 ^ 32 → decode k w = .ok i →
      step s = (match exec i (atWord w i a) with | .next t => .next (endTurn a t) | o => o)) ∧
  (∀ (s : State) c k rest n, Moves s (.stream c k) rest → let a := (reached (.stream c k) rest s).at c k
    a.task.halt = none → a.task.start ≤ a.tick → a.str.status = .running → a.str.redo = false → (issueCauses a).min? = some n →
    a.str.frozen.isSome = true ∨ fetchMiss a = true → step s = .next (staysFrozen n (if fetchMiss a = true then askFetch a else a))) ∧
  (∀ (s : State) c rest, Moves s (.matrix c) rest → let a := reached (.matrix c) rest s
      step s = (match exec .followOnStart { a with arg := { unit := c, st := .m } } with | .next t => .next (followCycle (t.at c .m)) | o => o)) ∧
  (∀ (s : State) key rest i o, Moves s (.chan key) rest → let a := reached (.chan key) rest s; let c := a.chan key
    (a.pkg (key / 512)).power.mem = 0 → c.state = 2 → c.live = true → c.held = false →
    decodeBank (((atBankWord key a).chan key).table.getD ((atBankWord key a).chan key).widx 0) = .ok (i, o) →
      step s = (match exec i (bankReady key i o a) with | .next t => .next (endWord o.w t) | x => x)) ∧
  (∀ (s : State) n rest e, Moves s (.event n) rest → s.agenda[n]? = some e →
      step s = exec e.1 { reached (.event n) rest s with agenda := s.agenda.eraseIdx n, arg := e.2 }) ∧
  (∀ (s : State) rest, Moves s .clock rest → step s = .next (clockTick { s with sched := rest })) ∧
  (∀ (s : State) m rest, s.sched = m :: rest → mayMove { s with sched := rest } m = false → step s = .next { s with sched := rest }) ∧
  (∀ s : State, s.sched = [] → step s = step { s with sched := movers s })

open Sys2Proof Machine Claim in
/-- Every step from a state whose due events are the device's own answers a next state: no instruction stops the machine. -/
def Obligations.NoStepStopsTheMachine : Prop :=
  ∀ s : State, EventsOnly s → SafeAt s

open Sys2Proof Machine Claim in
/-- Every step keeps what is due to the device's own steps. -/
def Obligations.EveryStepKeepsEventsOnly : Prop :=
  ∀ s t : State, EventsOnly s → Steps s t → EventsOnly t

open Sys2Proof Machine Claim in
/-- Every step keeps memory's canonical form. -/
def Obligations.EveryStepKeepsMemoryCanonical : Prop :=
  ∀ s t : State, Memory.wf s.mem = true → Steps s t → Memory.wf t.mem = true

open Sys2Proof Machine Claim in
/-- The wall clock and the global tick never run back, whatever instruction or event a step runs (log 1). -/
def Obligations.TheClockNeverRunsBack : Prop :=
  ∀ s t : State, Steps s t → ClockForward s t

open Sys2Proof Machine Claim in
/-- After reset: no task, no event due, memory in its canonical form and unwritten; the registers at the values their rules give (R12,
R386, R393, R407, R413, R432, R440). -/
def Obligations.ResetLeavesTheStatedValues : Prop :=
  let s := State.reset
  Memory.wf s.mem = true ∧ EventsOnly s ∧ (∀ c, (s.core c).task = none) ∧ (∀ c, (s.chan c).state = 0) ∧ s.saved = [] ∧
  ∀ u, (s.pkg u).health = 0 ∧ (s.pkg u).ptMode = 0 ∧ (s.pkg u).kvEn = false ∧ (s.pkg u).power.cap = 4400 ∧ (s.pkg u).power.win = 100 ∧
    (∀ q, (s.queue u q).en = false) ∧ ∀ k, (s.part u k).bnd = 20 ∧ (s.part u k).per = 2000000 ∧ linGiB s u k = 0
end

