-- ==== Sys2Proof/Laws/State.lean ====
section
/-!
SUPPORT. Sys2Proof/Laws/State.lean: what each update of the state leaves alone, field by field, and what the accessors read
after an update.
-/

namespace Sys2Proof.Machine

/-! ### Tables -/

/-- An entry put reads back. -/
@[simp] theorem tabGet_tabPut {α : Type} (d : α) (t : Tab α) (n : Nat) (v : α) : tabGet d (tabPut t n v) n = v := by
  induction t with
  | nil => simp [tabPut, tabGet]
  | cons e t ih =>
    obtain ⟨k, x⟩ := e
    simp only [tabPut]
    split
    · simp [tabGet]
    · split
      · simp [tabGet]
      · have h : ¬ k = n := fun h => by subst h; simp_all
        simp [tabGet, h, ih]

/-- An entry put leaves every other one. -/
theorem tabGet_tabPut_of_ne {α : Type} (d : α) (t : Tab α) {n m : Nat} (v : α) (h : m ≠ n) : tabGet d (tabPut t n v) m = tabGet d t m := by
  have h' : ¬ n = m := fun e => h e.symm
  induction t with
  | nil => simp [tabPut, tabGet, h']
  | cons e t ih =>
    obtain ⟨k, x⟩ := e
    simp only [tabPut]
    split
    · simp [tabGet, h']
    · split
      · rename_i hk
        subst hk
        simp [tabGet, h']
      · simp only [tabGet, ih]

/-- An entry taken out reads as the default. -/
theorem tabGet_filter {α : Type} (d : α) (t : Tab α) (n : Nat) : tabGet d (t.filter fun e => decide (e.1 ≠ n)) n = d := by
  induction t with
  | nil => rfl
  | cons e t ih =>
    obtain ⟨k, x⟩ := e
    by_cases h : k = n <;> simp_all [tabGet]

/-- An entry taken out leaves every other one. -/
theorem tabGet_filter_of_ne {α : Type} (d : α) (t : Tab α) {n m : Nat} (h : m ≠ n) :
    tabGet d (t.filter fun e => decide (e.1 ≠ n)) m = tabGet d t m := by
  induction t with
  | nil => rfl
  | cons e t ih =>
    obtain ⟨k, x⟩ := e
    by_cases hk : k = n
    · have : ¬ k = m := fun e => h (e.symm.trans hk)
      simp_all [tabGet]
    · simp_all [tabGet]

/-- A table reads at a number what was set there. -/
@[simp] theorem tabGet_tabSet {α : Type} [DecidableEq α] (d : α) (t : Tab α) (n : Nat) (v : α) : tabGet d (tabSet d t n v) n = v := by
  unfold tabSet
  split
  · rename_i h
    rw [tabGet_filter, h]
  · simp

/-- A table reads elsewhere as before. -/
theorem tabGet_tabSet_of_ne {α : Type} [DecidableEq α] (d : α) (t : Tab α) {n m : Nat} (v : α) (h : m ≠ n) :
    tabGet d (tabSet d t n v) m = tabGet d t m := by
  unfold tabSet
  split
  · exact tabGet_filter_of_ne d t h
  · exact tabGet_tabPut_of_ne d t v h

/-! ### Fields that an update leaves alone -/

@[simp] theorem State.modCore_mem (s : State) (n : Nat) (f : Core → Core) : (s.modCore n f).mem = s.mem := rfl
@[simp] theorem State.modCore_olds (s : State) (n : Nat) (f : Core → Core) : (s.modCore n f).olds = s.olds := rfl
@[simp] theorem State.modCore_nwrite (s : State) (n : Nat) (f : Core → Core) : (s.modCore n f).nwrite = s.nwrite := rfl
@[simp] theorem State.modCore_poison (s : State) (n : Nat) (f : Core → Core) : (s.modCore n f).poison = s.poison := rfl
@[simp] theorem State.modCore_dies (s : State) (n : Nat) (f : Core → Core) : (s.modCore n f).dies = s.dies := rfl
@[simp] theorem State.modCore_pkgs (s : State) (n : Nat) (f : Core → Core) : (s.modCore n f).pkgs = s.pkgs := rfl
@[simp] theorem State.modCore_chans (s : State) (n : Nat) (f : Core → Core) : (s.modCore n f).chans = s.chans := rfl
@[simp] theorem State.modCore_switches (s : State) (n : Nat) (f : Core → Core) : (s.modCore n f).switches = s.switches := rfl
@[simp] theorem State.modCore_plans (s : State) (n : Nat) (f : Core → Core) : (s.modCore n f).plans = s.plans := rfl
@[simp] theorem State.modCore_nplan (s : State) (n : Nat) (f : Core → Core) : (s.modCore n f).nplan = s.nplan := rfl
@[simp] theorem State.modCore_chunks (s : State) (n : Nat) (f : Core → Core) : (s.modCore n f).chunks = s.chunks := rfl
@[simp] theorem State.modCore_nchunk (s : State) (n : Nat) (f : Core → Core) : (s.modCore n f).nchunk = s.nchunk := rfl
@[simp] theorem State.modCore_saved (s : State) (n : Nat) (f : Core → Core) : (s.modCore n f).saved = s.saved := rfl
@[simp] theorem State.modCore_members (s : State) (n : Nat) (f : Core → Core) : (s.modCore n f).members = s.members := rfl
@[simp] theorem State.modCore_wall (s : State) (n : Nat) (f : Core → Core) : (s.modCore n f).wall = s.wall := rfl
@[simp] theorem State.modCore_tick (s : State) (n : Nat) (f : Core → Core) : (s.modCore n f).tick = s.tick := rfl
@[simp] theorem State.modCore_cur (s : State) (n : Nat) (f : Core → Core) : (s.modCore n f).cur = s.cur := rfl
@[simp] theorem State.modCore_arg (s : State) (n : Nat) (f : Core → Core) : (s.modCore n f).arg = s.arg := rfl
@[simp] theorem State.modCore_bop (s : State) (n : Nat) (f : Core → Core) : (s.modCore n f).bop = s.bop := rfl
@[simp] theorem State.modCore_sched (s : State) (n : Nat) (f : Core → Core) : (s.modCore n f).sched = s.sched := rfl
@[simp] theorem State.modCore_rank (s : State) (n : Nat) (f : Core → Core) : (s.modCore n f).rank = s.rank := rfl
@[simp] theorem State.modCore_moved (s : State) (n : Nat) (f : Core → Core) : (s.modCore n f).moved = s.moved := rfl
@[simp] theorem State.modCore_setBits (s : State) (n : Nat) (f : Core → Core) : (s.modCore n f).setBits = s.setBits := rfl
@[simp] theorem State.modCore_agenda (s : State) (n : Nat) (f : Core → Core) : (s.modCore n f).agenda = s.agenda := rfl
@[simp] theorem State.modCore_nfree (s : State) (n : Nat) (f : Core → Core) : (s.modCore n f).nfree = s.nfree := rfl

@[simp] theorem State.modDie_mem (s : State) (n : Nat) (f : Die → Die) : (s.modDie n f).mem = s.mem := rfl
@[simp] theorem State.modDie_olds (s : State) (n : Nat) (f : Die → Die) : (s.modDie n f).olds = s.olds := rfl
@[simp] theorem State.modDie_nwrite (s : State) (n : Nat) (f : Die → Die) : (s.modDie n f).nwrite = s.nwrite := rfl
@[simp] theorem State.modDie_poison (s : State) (n : Nat) (f : Die → Die) : (s.modDie n f).poison = s.poison := rfl
@[simp] theorem State.modDie_cores (s : State) (n : Nat) (f : Die → Die) : (s.modDie n f).cores = s.cores := rfl
@[simp] theorem State.modDie_pkgs (s : State) (n : Nat) (f : Die → Die) : (s.modDie n f).pkgs = s.pkgs := rfl
@[simp] theorem State.modDie_chans (s : State) (n : Nat) (f : Die → Die) : (s.modDie n f).chans = s.chans := rfl
@[simp] theorem State.modDie_switches (s : State) (n : Nat) (f : Die → Die) : (s.modDie n f).switches = s.switches := rfl
@[simp] theorem State.modDie_plans (s : State) (n : Nat) (f : Die → Die) : (s.modDie n f).plans = s.plans := rfl
@[simp] theorem State.modDie_nplan (s : State) (n : Nat) (f : Die → Die) : (s.modDie n f).nplan = s.nplan := rfl
@[simp] theorem State.modDie_chunks (s : State) (n : Nat) (f : Die → Die) : (s.modDie n f).chunks = s.chunks := rfl
@[simp] theorem State.modDie_nchunk (s : State) (n : Nat) (f : Die → Die) : (s.modDie n f).nchunk = s.nchunk := rfl
@[simp] theorem State.modDie_saved (s : State) (n : Nat) (f : Die → Die) : (s.modDie n f).saved = s.saved := rfl
@[simp] theorem State.modDie_members (s : State) (n : Nat) (f : Die → Die) : (s.modDie n f).members = s.members := rfl
@[simp] theorem State.modDie_wall (s : State) (n : Nat) (f : Die → Die) : (s.modDie n f).wall = s.wall := rfl
@[simp] theorem State.modDie_tick (s : State) (n : Nat) (f : Die → Die) : (s.modDie n f).tick = s.tick := rfl
@[simp] theorem State.modDie_cur (s : State) (n : Nat) (f : Die → Die) : (s.modDie n f).cur = s.cur := rfl
@[simp] theorem State.modDie_arg (s : State) (n : Nat) (f : Die → Die) : (s.modDie n f).arg = s.arg := rfl
@[simp] theorem State.modDie_bop (s : State) (n : Nat) (f : Die → Die) : (s.modDie n f).bop = s.bop := rfl
@[simp] theorem State.modDie_sched (s : State) (n : Nat) (f : Die → Die) : (s.modDie n f).sched = s.sched := rfl
@[simp] theorem State.modDie_rank (s : State) (n : Nat) (f : Die → Die) : (s.modDie n f).rank = s.rank := rfl
@[simp] theorem State.modDie_moved (s : State) (n : Nat) (f : Die → Die) : (s.modDie n f).moved = s.moved := rfl
@[simp] theorem State.modDie_setBits (s : State) (n : Nat) (f : Die → Die) : (s.modDie n f).setBits = s.setBits := rfl
@[simp] theorem State.modDie_agenda (s : State) (n : Nat) (f : Die → Die) : (s.modDie n f).agenda = s.agenda := rfl
@[simp] theorem State.modDie_nfree (s : State) (n : Nat) (f : Die → Die) : (s.modDie n f).nfree = s.nfree := rfl

@[simp] theorem State.modPkg_mem (s : State) (n : Nat) (f : Pkg → Pkg) : (s.modPkg n f).mem = s.mem := rfl
@[simp] theorem State.modPkg_olds (s : State) (n : Nat) (f : Pkg → Pkg) : (s.modPkg n f).olds = s.olds := rfl
@[simp] theorem State.modPkg_nwrite (s : State) (n : Nat) (f : Pkg → Pkg) : (s.modPkg n f).nwrite = s.nwrite := rfl
@[simp] theorem State.modPkg_poison (s : State) (n : Nat) (f : Pkg → Pkg) : (s.modPkg n f).poison = s.poison := rfl
@[simp] theorem State.modPkg_cores (s : State) (n : Nat) (f : Pkg → Pkg) : (s.modPkg n f).cores = s.cores := rfl
@[simp] theorem State.modPkg_dies (s : State) (n : Nat) (f : Pkg → Pkg) : (s.modPkg n f).dies = s.dies := rfl
@[simp] theorem State.modPkg_chans (s : State) (n : Nat) (f : Pkg → Pkg) : (s.modPkg n f).chans = s.chans := rfl
@[simp] theorem State.modPkg_switches (s : State) (n : Nat) (f : Pkg → Pkg) : (s.modPkg n f).switches = s.switches := rfl
@[simp] theorem State.modPkg_plans (s : State) (n : Nat) (f : Pkg → Pkg) : (s.modPkg n f).plans = s.plans := rfl
@[simp] theorem State.modPkg_nplan (s : State) (n : Nat) (f : Pkg → Pkg) : (s.modPkg n f).nplan = s.nplan := rfl
@[simp] theorem State.modPkg_chunks (s : State) (n : Nat) (f : Pkg → Pkg) : (s.modPkg n f).chunks = s.chunks := rfl
@[simp] theorem State.modPkg_nchunk (s : State) (n : Nat) (f : Pkg → Pkg) : (s.modPkg n f).nchunk = s.nchunk := rfl
@[simp] theorem State.modPkg_saved (s : State) (n : Nat) (f : Pkg → Pkg) : (s.modPkg n f).saved = s.saved := rfl
@[simp] theorem State.modPkg_members (s : State) (n : Nat) (f : Pkg → Pkg) : (s.modPkg n f).members = s.members := rfl
@[simp] theorem State.modPkg_wall (s : State) (n : Nat) (f : Pkg → Pkg) : (s.modPkg n f).wall = s.wall := rfl
@[simp] theorem State.modPkg_tick (s : State) (n : Nat) (f : Pkg → Pkg) : (s.modPkg n f).tick = s.tick := rfl
@[simp] theorem State.modPkg_cur (s : State) (n : Nat) (f : Pkg → Pkg) : (s.modPkg n f).cur = s.cur := rfl
@[simp] theorem State.modPkg_arg (s : State) (n : Nat) (f : Pkg → Pkg) : (s.modPkg n f).arg = s.arg := rfl
@[simp] theorem State.modPkg_bop (s : State) (n : Nat) (f : Pkg → Pkg) : (s.modPkg n f).bop = s.bop := rfl
@[simp] theorem State.modPkg_sched (s : State) (n : Nat) (f : Pkg → Pkg) : (s.modPkg n f).sched = s.sched := rfl
@[simp] theorem State.modPkg_rank (s : State) (n : Nat) (f : Pkg → Pkg) : (s.modPkg n f).rank = s.rank := rfl
@[simp] theorem State.modPkg_moved (s : State) (n : Nat) (f : Pkg → Pkg) : (s.modPkg n f).moved = s.moved := rfl
@[simp] theorem State.modPkg_setBits (s : State) (n : Nat) (f : Pkg → Pkg) : (s.modPkg n f).setBits = s.setBits := rfl
@[simp] theorem State.modPkg_agenda (s : State) (n : Nat) (f : Pkg → Pkg) : (s.modPkg n f).agenda = s.agenda := rfl
@[simp] theorem State.modPkg_nfree (s : State) (n : Nat) (f : Pkg → Pkg) : (s.modPkg n f).nfree = s.nfree := rfl

@[simp] theorem State.modChan_mem (s : State) (n : Nat) (f : Chan → Chan) : (s.modChan n f).mem = s.mem := rfl
@[simp] theorem State.modChan_olds (s : State) (n : Nat) (f : Chan → Chan) : (s.modChan n f).olds = s.olds := rfl
@[simp] theorem State.modChan_nwrite (s : State) (n : Nat) (f : Chan → Chan) : (s.modChan n f).nwrite = s.nwrite := rfl
@[simp] theorem State.modChan_poison (s : State) (n : Nat) (f : Chan → Chan) : (s.modChan n f).poison = s.poison := rfl
@[simp] theorem State.modChan_cores (s : State) (n : Nat) (f : Chan → Chan) : (s.modChan n f).cores = s.cores := rfl
@[simp] theorem State.modChan_dies (s : State) (n : Nat) (f : Chan → Chan) : (s.modChan n f).dies = s.dies := rfl
@[simp] theorem State.modChan_pkgs (s : State) (n : Nat) (f : Chan → Chan) : (s.modChan n f).pkgs = s.pkgs := rfl
@[simp] theorem State.modChan_switches (s : State) (n : Nat) (f : Chan → Chan) : (s.modChan n f).switches = s.switches := rfl
@[simp] theorem State.modChan_plans (s : State) (n : Nat) (f : Chan → Chan) : (s.modChan n f).plans = s.plans := rfl
@[simp] theorem State.modChan_nplan (s : State) (n : Nat) (f : Chan → Chan) : (s.modChan n f).nplan = s.nplan := rfl
@[simp] theorem State.modChan_chunks (s : State) (n : Nat) (f : Chan → Chan) : (s.modChan n f).chunks = s.chunks := rfl
@[simp] theorem State.modChan_nchunk (s : State) (n : Nat) (f : Chan → Chan) : (s.modChan n f).nchunk = s.nchunk := rfl
@[simp] theorem State.modChan_saved (s : State) (n : Nat) (f : Chan → Chan) : (s.modChan n f).saved = s.saved := rfl
@[simp] theorem State.modChan_members (s : State) (n : Nat) (f : Chan → Chan) : (s.modChan n f).members = s.members := rfl
@[simp] theorem State.modChan_wall (s : State) (n : Nat) (f : Chan → Chan) : (s.modChan n f).wall = s.wall := rfl
@[simp] theorem State.modChan_tick (s : State) (n : Nat) (f : Chan → Chan) : (s.modChan n f).tick = s.tick := rfl
@[simp] theorem State.modChan_cur (s : State) (n : Nat) (f : Chan → Chan) : (s.modChan n f).cur = s.cur := rfl
@[simp] theorem State.modChan_arg (s : State) (n : Nat) (f : Chan → Chan) : (s.modChan n f).arg = s.arg := rfl
@[simp] theorem State.modChan_bop (s : State) (n : Nat) (f : Chan → Chan) : (s.modChan n f).bop = s.bop := rfl
@[simp] theorem State.modChan_sched (s : State) (n : Nat) (f : Chan → Chan) : (s.modChan n f).sched = s.sched := rfl
@[simp] theorem State.modChan_rank (s : State) (n : Nat) (f : Chan → Chan) : (s.modChan n f).rank = s.rank := rfl
@[simp] theorem State.modChan_moved (s : State) (n : Nat) (f : Chan → Chan) : (s.modChan n f).moved = s.moved := rfl
@[simp] theorem State.modChan_setBits (s : State) (n : Nat) (f : Chan → Chan) : (s.modChan n f).setBits = s.setBits := rfl
@[simp] theorem State.modChan_agenda (s : State) (n : Nat) (f : Chan → Chan) : (s.modChan n f).agenda = s.agenda := rfl
@[simp] theorem State.modChan_nfree (s : State) (n : Nat) (f : Chan → Chan) : (s.modChan n f).nfree = s.nfree := rfl

@[simp] theorem State.post_mem (s : State) (i : Instr) (a : Args) : (s.post i a).mem = s.mem := rfl
@[simp] theorem State.post_olds (s : State) (i : Instr) (a : Args) : (s.post i a).olds = s.olds := rfl
@[simp] theorem State.post_nwrite (s : State) (i : Instr) (a : Args) : (s.post i a).nwrite = s.nwrite := rfl
@[simp] theorem State.post_poison (s : State) (i : Instr) (a : Args) : (s.post i a).poison = s.poison := rfl
@[simp] theorem State.post_cores (s : State) (i : Instr) (a : Args) : (s.post i a).cores = s.cores := rfl
@[simp] theorem State.post_dies (s : State) (i : Instr) (a : Args) : (s.post i a).dies = s.dies := rfl
@[simp] theorem State.post_pkgs (s : State) (i : Instr) (a : Args) : (s.post i a).pkgs = s.pkgs := rfl
@[simp] theorem State.post_chans (s : State) (i : Instr) (a : Args) : (s.post i a).chans = s.chans := rfl
@[simp] theorem State.post_switches (s : State) (i : Instr) (a : Args) : (s.post i a).switches = s.switches := rfl
@[simp] theorem State.post_plans (s : State) (i : Instr) (a : Args) : (s.post i a).plans = s.plans := rfl
@[simp] theorem State.post_nplan (s : State) (i : Instr) (a : Args) : (s.post i a).nplan = s.nplan := rfl
@[simp] theorem State.post_chunks (s : State) (i : Instr) (a : Args) : (s.post i a).chunks = s.chunks := rfl
@[simp] theorem State.post_nchunk (s : State) (i : Instr) (a : Args) : (s.post i a).nchunk = s.nchunk := rfl
@[simp] theorem State.post_saved (s : State) (i : Instr) (a : Args) : (s.post i a).saved = s.saved := rfl
@[simp] theorem State.post_members (s : State) (i : Instr) (a : Args) : (s.post i a).members = s.members := rfl
@[simp] theorem State.post_wall (s : State) (i : Instr) (a : Args) : (s.post i a).wall = s.wall := rfl
@[simp] theorem State.post_tick (s : State) (i : Instr) (a : Args) : (s.post i a).tick = s.tick := rfl
@[simp] theorem State.post_cur (s : State) (i : Instr) (a : Args) : (s.post i a).cur = s.cur := rfl
@[simp] theorem State.post_arg (s : State) (i : Instr) (a : Args) : (s.post i a).arg = s.arg := rfl
@[simp] theorem State.post_bop (s : State) (i : Instr) (a : Args) : (s.post i a).bop = s.bop := rfl
@[simp] theorem State.post_sched (s : State) (i : Instr) (a : Args) : (s.post i a).sched = s.sched := rfl
@[simp] theorem State.post_rank (s : State) (i : Instr) (a : Args) : (s.post i a).rank = s.rank := rfl
@[simp] theorem State.post_moved (s : State) (i : Instr) (a : Args) : (s.post i a).moved = s.moved := rfl
@[simp] theorem State.post_setBits (s : State) (i : Instr) (a : Args) : (s.post i a).setBits = s.setBits := rfl
@[simp] theorem State.post_nfree (s : State) (i : Instr) (a : Args) : (s.post i a).nfree = s.nfree := rfl

@[simp] theorem State.at_mem (s : State) (c : Nat) (k : StreamId) : (s.at c k).mem = s.mem := rfl
@[simp] theorem State.at_olds (s : State) (c : Nat) (k : StreamId) : (s.at c k).olds = s.olds := rfl
@[simp] theorem State.at_nwrite (s : State) (c : Nat) (k : StreamId) : (s.at c k).nwrite = s.nwrite := rfl
@[simp] theorem State.at_poison (s : State) (c : Nat) (k : StreamId) : (s.at c k).poison = s.poison := rfl
@[simp] theorem State.at_cores (s : State) (c : Nat) (k : StreamId) : (s.at c k).cores = s.cores := rfl
@[simp] theorem State.at_dies (s : State) (c : Nat) (k : StreamId) : (s.at c k).dies = s.dies := rfl
@[simp] theorem State.at_pkgs (s : State) (c : Nat) (k : StreamId) : (s.at c k).pkgs = s.pkgs := rfl
@[simp] theorem State.at_chans (s : State) (c : Nat) (k : StreamId) : (s.at c k).chans = s.chans := rfl
@[simp] theorem State.at_switches (s : State) (c : Nat) (k : StreamId) : (s.at c k).switches = s.switches := rfl
@[simp] theorem State.at_plans (s : State) (c : Nat) (k : StreamId) : (s.at c k).plans = s.plans := rfl
@[simp] theorem State.at_nplan (s : State) (c : Nat) (k : StreamId) : (s.at c k).nplan = s.nplan := rfl
@[simp] theorem State.at_chunks (s : State) (c : Nat) (k : StreamId) : (s.at c k).chunks = s.chunks := rfl
@[simp] theorem State.at_nchunk (s : State) (c : Nat) (k : StreamId) : (s.at c k).nchunk = s.nchunk := rfl
@[simp] theorem State.at_saved (s : State) (c : Nat) (k : StreamId) : (s.at c k).saved = s.saved := rfl
@[simp] theorem State.at_members (s : State) (c : Nat) (k : StreamId) : (s.at c k).members = s.members := rfl
@[simp] theorem State.at_wall (s : State) (c : Nat) (k : StreamId) : (s.at c k).wall = s.wall := rfl
@[simp] theorem State.at_tick (s : State) (c : Nat) (k : StreamId) : (s.at c k).tick = s.tick := rfl
@[simp] theorem State.at_arg (s : State) (c : Nat) (k : StreamId) : (s.at c k).arg = s.arg := rfl
@[simp] theorem State.at_bop (s : State) (c : Nat) (k : StreamId) : (s.at c k).bop = s.bop := rfl
@[simp] theorem State.at_sched (s : State) (c : Nat) (k : StreamId) : (s.at c k).sched = s.sched := rfl
@[simp] theorem State.at_rank (s : State) (c : Nat) (k : StreamId) : (s.at c k).rank = s.rank := rfl
@[simp] theorem State.at_moved (s : State) (c : Nat) (k : StreamId) : (s.at c k).moved = s.moved := rfl
@[simp] theorem State.at_setBits (s : State) (c : Nat) (k : StreamId) : (s.at c k).setBits = s.setBits := rfl
@[simp] theorem State.at_agenda (s : State) (c : Nat) (k : StreamId) : (s.at c k).agenda = s.agenda := rfl
@[simp] theorem State.at_nfree (s : State) (c : Nat) (k : StreamId) : (s.at c k).nfree = s.nfree := rfl

@[simp] theorem State.modTask_mem (s : State) (f : Task → Task) : (s.modTask f).mem = s.mem := rfl
@[simp] theorem State.modTask_olds (s : State) (f : Task → Task) : (s.modTask f).olds = s.olds := rfl
@[simp] theorem State.modTask_nwrite (s : State) (f : Task → Task) : (s.modTask f).nwrite = s.nwrite := rfl
@[simp] theorem State.modTask_poison (s : State) (f : Task → Task) : (s.modTask f).poison = s.poison := rfl
@[simp] theorem State.modTask_dies (s : State) (f : Task → Task) : (s.modTask f).dies = s.dies := rfl
@[simp] theorem State.modTask_pkgs (s : State) (f : Task → Task) : (s.modTask f).pkgs = s.pkgs := rfl
@[simp] theorem State.modTask_chans (s : State) (f : Task → Task) : (s.modTask f).chans = s.chans := rfl
@[simp] theorem State.modTask_switches (s : State) (f : Task → Task) : (s.modTask f).switches = s.switches := rfl
@[simp] theorem State.modTask_plans (s : State) (f : Task → Task) : (s.modTask f).plans = s.plans := rfl
@[simp] theorem State.modTask_nplan (s : State) (f : Task → Task) : (s.modTask f).nplan = s.nplan := rfl
@[simp] theorem State.modTask_chunks (s : State) (f : Task → Task) : (s.modTask f).chunks = s.chunks := rfl
@[simp] theorem State.modTask_nchunk (s : State) (f : Task → Task) : (s.modTask f).nchunk = s.nchunk := rfl
@[simp] theorem State.modTask_saved (s : State) (f : Task → Task) : (s.modTask f).saved = s.saved := rfl
@[simp] theorem State.modTask_members (s : State) (f : Task → Task) : (s.modTask f).members = s.members := rfl
@[simp] theorem State.modTask_wall (s : State) (f : Task → Task) : (s.modTask f).wall = s.wall := rfl
@[simp] theorem State.modTask_tick (s : State) (f : Task → Task) : (s.modTask f).tick = s.tick := rfl
@[simp] theorem State.modTask_cur (s : State) (f : Task → Task) : (s.modTask f).cur = s.cur := rfl
@[simp] theorem State.modTask_arg (s : State) (f : Task → Task) : (s.modTask f).arg = s.arg := rfl
@[simp] theorem State.modTask_bop (s : State) (f : Task → Task) : (s.modTask f).bop = s.bop := rfl
@[simp] theorem State.modTask_sched (s : State) (f : Task → Task) : (s.modTask f).sched = s.sched := rfl
@[simp] theorem State.modTask_rank (s : State) (f : Task → Task) : (s.modTask f).rank = s.rank := rfl
@[simp] theorem State.modTask_moved (s : State) (f : Task → Task) : (s.modTask f).moved = s.moved := rfl
@[simp] theorem State.modTask_setBits (s : State) (f : Task → Task) : (s.modTask f).setBits = s.setBits := rfl
@[simp] theorem State.modTask_agenda (s : State) (f : Task → Task) : (s.modTask f).agenda = s.agenda := rfl
@[simp] theorem State.modTask_nfree (s : State) (f : Task → Task) : (s.modTask f).nfree = s.nfree := rfl

@[simp] theorem State.modStr_mem (s : State) (f : Stream → Stream) : (s.modStr f).mem = s.mem := rfl
@[simp] theorem State.modStr_olds (s : State) (f : Stream → Stream) : (s.modStr f).olds = s.olds := rfl
@[simp] theorem State.modStr_nwrite (s : State) (f : Stream → Stream) : (s.modStr f).nwrite = s.nwrite := rfl
@[simp] theorem State.modStr_poison (s : State) (f : Stream → Stream) : (s.modStr f).poison = s.poison := rfl
@[simp] theorem State.modStr_dies (s : State) (f : Stream → Stream) : (s.modStr f).dies = s.dies := rfl
@[simp] theorem State.modStr_pkgs (s : State) (f : Stream → Stream) : (s.modStr f).pkgs = s.pkgs := rfl
@[simp] theorem State.modStr_chans (s : State) (f : Stream → Stream) : (s.modStr f).chans = s.chans := rfl
@[simp] theorem State.modStr_switches (s : State) (f : Stream → Stream) : (s.modStr f).switches = s.switches := rfl
@[simp] theorem State.modStr_plans (s : State) (f : Stream → Stream) : (s.modStr f).plans = s.plans := rfl
@[simp] theorem State.modStr_nplan (s : State) (f : Stream → Stream) : (s.modStr f).nplan = s.nplan := rfl
@[simp] theorem State.modStr_chunks (s : State) (f : Stream → Stream) : (s.modStr f).chunks = s.chunks := rfl
@[simp] theorem State.modStr_nchunk (s : State) (f : Stream → Stream) : (s.modStr f).nchunk = s.nchunk := rfl
@[simp] theorem State.modStr_saved (s : State) (f : Stream → Stream) : (s.modStr f).saved = s.saved := rfl
@[simp] theorem State.modStr_members (s : State) (f : Stream → Stream) : (s.modStr f).members = s.members := rfl
@[simp] theorem State.modStr_wall (s : State) (f : Stream → Stream) : (s.modStr f).wall = s.wall := rfl
@[simp] theorem State.modStr_tick (s : State) (f : Stream → Stream) : (s.modStr f).tick = s.tick := rfl
@[simp] theorem State.modStr_cur (s : State) (f : Stream → Stream) : (s.modStr f).cur = s.cur := rfl
@[simp] theorem State.modStr_arg (s : State) (f : Stream → Stream) : (s.modStr f).arg = s.arg := rfl
@[simp] theorem State.modStr_bop (s : State) (f : Stream → Stream) : (s.modStr f).bop = s.bop := rfl
@[simp] theorem State.modStr_sched (s : State) (f : Stream → Stream) : (s.modStr f).sched = s.sched := rfl
@[simp] theorem State.modStr_rank (s : State) (f : Stream → Stream) : (s.modStr f).rank = s.rank := rfl
@[simp] theorem State.modStr_moved (s : State) (f : Stream → Stream) : (s.modStr f).moved = s.moved := rfl
@[simp] theorem State.modStr_setBits (s : State) (f : Stream → Stream) : (s.modStr f).setBits = s.setBits := rfl
@[simp] theorem State.modStr_agenda (s : State) (f : Stream → Stream) : (s.modStr f).agenda = s.agenda := rfl
@[simp] theorem State.modStr_nfree (s : State) (f : Stream → Stream) : (s.modStr f).nfree = s.nfree := rfl

@[simp] theorem State.modQueue_mem (s : State) (u q : Nat) (f : Queue → Queue) : (s.modQueue u q f).mem = s.mem := rfl
@[simp] theorem State.modQueue_olds (s : State) (u q : Nat) (f : Queue → Queue) : (s.modQueue u q f).olds = s.olds := rfl
@[simp] theorem State.modQueue_nwrite (s : State) (u q : Nat) (f : Queue → Queue) : (s.modQueue u q f).nwrite = s.nwrite := rfl
@[simp] theorem State.modQueue_poison (s : State) (u q : Nat) (f : Queue → Queue) : (s.modQueue u q f).poison = s.poison := rfl
@[simp] theorem State.modQueue_cores (s : State) (u q : Nat) (f : Queue → Queue) : (s.modQueue u q f).cores = s.cores := rfl
@[simp] theorem State.modQueue_dies (s : State) (u q : Nat) (f : Queue → Queue) : (s.modQueue u q f).dies = s.dies := rfl
@[simp] theorem State.modQueue_chans (s : State) (u q : Nat) (f : Queue → Queue) : (s.modQueue u q f).chans = s.chans := rfl
@[simp] theorem State.modQueue_switches (s : State) (u q : Nat) (f : Queue → Queue) : (s.modQueue u q f).switches = s.switches := rfl
@[simp] theorem State.modQueue_plans (s : State) (u q : Nat) (f : Queue → Queue) : (s.modQueue u q f).plans = s.plans := rfl
@[simp] theorem State.modQueue_nplan (s : State) (u q : Nat) (f : Queue → Queue) : (s.modQueue u q f).nplan = s.nplan := rfl
@[simp] theorem State.modQueue_chunks (s : State) (u q : Nat) (f : Queue → Queue) : (s.modQueue u q f).chunks = s.chunks := rfl
@[simp] theorem State.modQueue_nchunk (s : State) (u q : Nat) (f : Queue → Queue) : (s.modQueue u q f).nchunk = s.nchunk := rfl
@[simp] theorem State.modQueue_saved (s : State) (u q : Nat) (f : Queue → Queue) : (s.modQueue u q f).saved = s.saved := rfl
@[simp] theorem State.modQueue_members (s : State) (u q : Nat) (f : Queue → Queue) : (s.modQueue u q f).members = s.members := rfl
@[simp] theorem State.modQueue_wall (s : State) (u q : Nat) (f : Queue → Queue) : (s.modQueue u q f).wall = s.wall := rfl
@[simp] theorem State.modQueue_tick (s : State) (u q : Nat) (f : Queue → Queue) : (s.modQueue u q f).tick = s.tick := rfl
@[simp] theorem State.modQueue_cur (s : State) (u q : Nat) (f : Queue → Queue) : (s.modQueue u q f).cur = s.cur := rfl
@[simp] theorem State.modQueue_arg (s : State) (u q : Nat) (f : Queue → Queue) : (s.modQueue u q f).arg = s.arg := rfl
@[simp] theorem State.modQueue_bop (s : State) (u q : Nat) (f : Queue → Queue) : (s.modQueue u q f).bop = s.bop := rfl
@[simp] theorem State.modQueue_sched (s : State) (u q : Nat) (f : Queue → Queue) : (s.modQueue u q f).sched = s.sched := rfl
@[simp] theorem State.modQueue_rank (s : State) (u q : Nat) (f : Queue → Queue) : (s.modQueue u q f).rank = s.rank := rfl
@[simp] theorem State.modQueue_moved (s : State) (u q : Nat) (f : Queue → Queue) : (s.modQueue u q f).moved = s.moved := rfl
@[simp] theorem State.modQueue_setBits (s : State) (u q : Nat) (f : Queue → Queue) : (s.modQueue u q f).setBits = s.setBits := rfl
@[simp] theorem State.modQueue_agenda (s : State) (u q : Nat) (f : Queue → Queue) : (s.modQueue u q f).agenda = s.agenda := rfl
@[simp] theorem State.modQueue_nfree (s : State) (u q : Nat) (f : Queue → Queue) : (s.modQueue u q f).nfree = s.nfree := rfl

@[simp] theorem State.modPart_mem (s : State) (u k : Nat) (f : Part → Part) : (s.modPart u k f).mem = s.mem := rfl
@[simp] theorem State.modPart_olds (s : State) (u k : Nat) (f : Part → Part) : (s.modPart u k f).olds = s.olds := rfl
@[simp] theorem State.modPart_nwrite (s : State) (u k : Nat) (f : Part → Part) : (s.modPart u k f).nwrite = s.nwrite := rfl
@[simp] theorem State.modPart_poison (s : State) (u k : Nat) (f : Part → Part) : (s.modPart u k f).poison = s.poison := rfl
@[simp] theorem State.modPart_cores (s : State) (u k : Nat) (f : Part → Part) : (s.modPart u k f).cores = s.cores := rfl
@[simp] theorem State.modPart_dies (s : State) (u k : Nat) (f : Part → Part) : (s.modPart u k f).dies = s.dies := rfl
@[simp] theorem State.modPart_chans (s : State) (u k : Nat) (f : Part → Part) : (s.modPart u k f).chans = s.chans := rfl
@[simp] theorem State.modPart_switches (s : State) (u k : Nat) (f : Part → Part) : (s.modPart u k f).switches = s.switches := rfl
@[simp] theorem State.modPart_plans (s : State) (u k : Nat) (f : Part → Part) : (s.modPart u k f).plans = s.plans := rfl
@[simp] theorem State.modPart_nplan (s : State) (u k : Nat) (f : Part → Part) : (s.modPart u k f).nplan = s.nplan := rfl
@[simp] theorem State.modPart_chunks (s : State) (u k : Nat) (f : Part → Part) : (s.modPart u k f).chunks = s.chunks := rfl
@[simp] theorem State.modPart_nchunk (s : State) (u k : Nat) (f : Part → Part) : (s.modPart u k f).nchunk = s.nchunk := rfl
@[simp] theorem State.modPart_saved (s : State) (u k : Nat) (f : Part → Part) : (s.modPart u k f).saved = s.saved := rfl
@[simp] theorem State.modPart_members (s : State) (u k : Nat) (f : Part → Part) : (s.modPart u k f).members = s.members := rfl
@[simp] theorem State.modPart_wall (s : State) (u k : Nat) (f : Part → Part) : (s.modPart u k f).wall = s.wall := rfl
@[simp] theorem State.modPart_tick (s : State) (u k : Nat) (f : Part → Part) : (s.modPart u k f).tick = s.tick := rfl
@[simp] theorem State.modPart_cur (s : State) (u k : Nat) (f : Part → Part) : (s.modPart u k f).cur = s.cur := rfl
@[simp] theorem State.modPart_arg (s : State) (u k : Nat) (f : Part → Part) : (s.modPart u k f).arg = s.arg := rfl
@[simp] theorem State.modPart_bop (s : State) (u k : Nat) (f : Part → Part) : (s.modPart u k f).bop = s.bop := rfl
@[simp] theorem State.modPart_sched (s : State) (u k : Nat) (f : Part → Part) : (s.modPart u k f).sched = s.sched := rfl
@[simp] theorem State.modPart_rank (s : State) (u k : Nat) (f : Part → Part) : (s.modPart u k f).rank = s.rank := rfl
@[simp] theorem State.modPart_moved (s : State) (u k : Nat) (f : Part → Part) : (s.modPart u k f).moved = s.moved := rfl
@[simp] theorem State.modPart_setBits (s : State) (u k : Nat) (f : Part → Part) : (s.modPart u k f).setBits = s.setBits := rfl
@[simp] theorem State.modPart_agenda (s : State) (u k : Nat) (f : Part → Part) : (s.modPart u k f).agenda = s.agenda := rfl
@[simp] theorem State.modPart_nfree (s : State) (u k : Nat) (f : Part → Part) : (s.modPart u k f).nfree = s.nfree := rfl

@[simp] theorem State.modCh'_mem (s : State) (f : Chan → Chan) : (s.modCh' f).mem = s.mem := rfl
@[simp] theorem State.modCh'_olds (s : State) (f : Chan → Chan) : (s.modCh' f).olds = s.olds := rfl
@[simp] theorem State.modCh'_nwrite (s : State) (f : Chan → Chan) : (s.modCh' f).nwrite = s.nwrite := rfl
@[simp] theorem State.modCh'_poison (s : State) (f : Chan → Chan) : (s.modCh' f).poison = s.poison := rfl
@[simp] theorem State.modCh'_cores (s : State) (f : Chan → Chan) : (s.modCh' f).cores = s.cores := rfl
@[simp] theorem State.modCh'_dies (s : State) (f : Chan → Chan) : (s.modCh' f).dies = s.dies := rfl
@[simp] theorem State.modCh'_pkgs (s : State) (f : Chan → Chan) : (s.modCh' f).pkgs = s.pkgs := rfl
@[simp] theorem State.modCh'_switches (s : State) (f : Chan → Chan) : (s.modCh' f).switches = s.switches := rfl
@[simp] theorem State.modCh'_plans (s : State) (f : Chan → Chan) : (s.modCh' f).plans = s.plans := rfl
@[simp] theorem State.modCh'_nplan (s : State) (f : Chan → Chan) : (s.modCh' f).nplan = s.nplan := rfl
@[simp] theorem State.modCh'_chunks (s : State) (f : Chan → Chan) : (s.modCh' f).chunks = s.chunks := rfl
@[simp] theorem State.modCh'_nchunk (s : State) (f : Chan → Chan) : (s.modCh' f).nchunk = s.nchunk := rfl
@[simp] theorem State.modCh'_saved (s : State) (f : Chan → Chan) : (s.modCh' f).saved = s.saved := rfl
@[simp] theorem State.modCh'_members (s : State) (f : Chan → Chan) : (s.modCh' f).members = s.members := rfl
@[simp] theorem State.modCh'_wall (s : State) (f : Chan → Chan) : (s.modCh' f).wall = s.wall := rfl
@[simp] theorem State.modCh'_tick (s : State) (f : Chan → Chan) : (s.modCh' f).tick = s.tick := rfl
@[simp] theorem State.modCh'_cur (s : State) (f : Chan → Chan) : (s.modCh' f).cur = s.cur := rfl
@[simp] theorem State.modCh'_arg (s : State) (f : Chan → Chan) : (s.modCh' f).arg = s.arg := rfl
@[simp] theorem State.modCh'_bop (s : State) (f : Chan → Chan) : (s.modCh' f).bop = s.bop := rfl
@[simp] theorem State.modCh'_sched (s : State) (f : Chan → Chan) : (s.modCh' f).sched = s.sched := rfl
@[simp] theorem State.modCh'_rank (s : State) (f : Chan → Chan) : (s.modCh' f).rank = s.rank := rfl
@[simp] theorem State.modCh'_moved (s : State) (f : Chan → Chan) : (s.modCh' f).moved = s.moved := rfl
@[simp] theorem State.modCh'_setBits (s : State) (f : Chan → Chan) : (s.modCh' f).setBits = s.setBits := rfl
@[simp] theorem State.modCh'_agenda (s : State) (f : Chan → Chan) : (s.modCh' f).agenda = s.agenda := rfl
@[simp] theorem State.modCh'_nfree (s : State) (f : Chan → Chan) : (s.modCh' f).nfree = s.nfree := rfl

@[simp] theorem State.modSem_mem (s : State) (n : Nat) (f : Sem → Sem) : (s.modSem n f).mem = s.mem := rfl
@[simp] theorem State.modSem_olds (s : State) (n : Nat) (f : Sem → Sem) : (s.modSem n f).olds = s.olds := rfl
@[simp] theorem State.modSem_nwrite (s : State) (n : Nat) (f : Sem → Sem) : (s.modSem n f).nwrite = s.nwrite := rfl
@[simp] theorem State.modSem_poison (s : State) (n : Nat) (f : Sem → Sem) : (s.modSem n f).poison = s.poison := rfl
@[simp] theorem State.modSem_dies (s : State) (n : Nat) (f : Sem → Sem) : (s.modSem n f).dies = s.dies := rfl
@[simp] theorem State.modSem_pkgs (s : State) (n : Nat) (f : Sem → Sem) : (s.modSem n f).pkgs = s.pkgs := rfl
@[simp] theorem State.modSem_chans (s : State) (n : Nat) (f : Sem → Sem) : (s.modSem n f).chans = s.chans := rfl
@[simp] theorem State.modSem_switches (s : State) (n : Nat) (f : Sem → Sem) : (s.modSem n f).switches = s.switches := rfl
@[simp] theorem State.modSem_plans (s : State) (n : Nat) (f : Sem → Sem) : (s.modSem n f).plans = s.plans := rfl
@[simp] theorem State.modSem_nplan (s : State) (n : Nat) (f : Sem → Sem) : (s.modSem n f).nplan = s.nplan := rfl
@[simp] theorem State.modSem_chunks (s : State) (n : Nat) (f : Sem → Sem) : (s.modSem n f).chunks = s.chunks := rfl
@[simp] theorem State.modSem_nchunk (s : State) (n : Nat) (f : Sem → Sem) : (s.modSem n f).nchunk = s.nchunk := rfl
@[simp] theorem State.modSem_saved (s : State) (n : Nat) (f : Sem → Sem) : (s.modSem n f).saved = s.saved := rfl
@[simp] theorem State.modSem_members (s : State) (n : Nat) (f : Sem → Sem) : (s.modSem n f).members = s.members := rfl
@[simp] theorem State.modSem_wall (s : State) (n : Nat) (f : Sem → Sem) : (s.modSem n f).wall = s.wall := rfl
@[simp] theorem State.modSem_tick (s : State) (n : Nat) (f : Sem → Sem) : (s.modSem n f).tick = s.tick := rfl
@[simp] theorem State.modSem_cur (s : State) (n : Nat) (f : Sem → Sem) : (s.modSem n f).cur = s.cur := rfl
@[simp] theorem State.modSem_arg (s : State) (n : Nat) (f : Sem → Sem) : (s.modSem n f).arg = s.arg := rfl
@[simp] theorem State.modSem_bop (s : State) (n : Nat) (f : Sem → Sem) : (s.modSem n f).bop = s.bop := rfl
@[simp] theorem State.modSem_sched (s : State) (n : Nat) (f : Sem → Sem) : (s.modSem n f).sched = s.sched := rfl
@[simp] theorem State.modSem_rank (s : State) (n : Nat) (f : Sem → Sem) : (s.modSem n f).rank = s.rank := rfl
@[simp] theorem State.modSem_moved (s : State) (n : Nat) (f : Sem → Sem) : (s.modSem n f).moved = s.moved := rfl
@[simp] theorem State.modSem_setBits (s : State) (n : Nat) (f : Sem → Sem) : (s.modSem n f).setBits = s.setBits := rfl
@[simp] theorem State.modSem_agenda (s : State) (n : Nat) (f : Sem → Sem) : (s.modSem n f).agenda = s.agenda := rfl
@[simp] theorem State.modSem_nfree (s : State) (n : Nat) (f : Sem → Sem) : (s.modSem n f).nfree = s.nfree := rfl

@[simp] theorem State.modGbar_mem (s : State) (n : Nat) (f : GBar → GBar) : (s.modGbar n f).mem = s.mem := rfl
@[simp] theorem State.modGbar_olds (s : State) (n : Nat) (f : GBar → GBar) : (s.modGbar n f).olds = s.olds := rfl
@[simp] theorem State.modGbar_nwrite (s : State) (n : Nat) (f : GBar → GBar) : (s.modGbar n f).nwrite = s.nwrite := rfl
@[simp] theorem State.modGbar_poison (s : State) (n : Nat) (f : GBar → GBar) : (s.modGbar n f).poison = s.poison := rfl
@[simp] theorem State.modGbar_cores (s : State) (n : Nat) (f : GBar → GBar) : (s.modGbar n f).cores = s.cores := rfl
@[simp] theorem State.modGbar_pkgs (s : State) (n : Nat) (f : GBar → GBar) : (s.modGbar n f).pkgs = s.pkgs := rfl
@[simp] theorem State.modGbar_chans (s : State) (n : Nat) (f : GBar → GBar) : (s.modGbar n f).chans = s.chans := rfl
@[simp] theorem State.modGbar_switches (s : State) (n : Nat) (f : GBar → GBar) : (s.modGbar n f).switches = s.switches := rfl
@[simp] theorem State.modGbar_plans (s : State) (n : Nat) (f : GBar → GBar) : (s.modGbar n f).plans = s.plans := rfl
@[simp] theorem State.modGbar_nplan (s : State) (n : Nat) (f : GBar → GBar) : (s.modGbar n f).nplan = s.nplan := rfl
@[simp] theorem State.modGbar_chunks (s : State) (n : Nat) (f : GBar → GBar) : (s.modGbar n f).chunks = s.chunks := rfl
@[simp] theorem State.modGbar_nchunk (s : State) (n : Nat) (f : GBar → GBar) : (s.modGbar n f).nchunk = s.nchunk := rfl
@[simp] theorem State.modGbar_saved (s : State) (n : Nat) (f : GBar → GBar) : (s.modGbar n f).saved = s.saved := rfl
@[simp] theorem State.modGbar_members (s : State) (n : Nat) (f : GBar → GBar) : (s.modGbar n f).members = s.members := rfl
@[simp] theorem State.modGbar_wall (s : State) (n : Nat) (f : GBar → GBar) : (s.modGbar n f).wall = s.wall := rfl
@[simp] theorem State.modGbar_tick (s : State) (n : Nat) (f : GBar → GBar) : (s.modGbar n f).tick = s.tick := rfl
@[simp] theorem State.modGbar_cur (s : State) (n : Nat) (f : GBar → GBar) : (s.modGbar n f).cur = s.cur := rfl
@[simp] theorem State.modGbar_arg (s : State) (n : Nat) (f : GBar → GBar) : (s.modGbar n f).arg = s.arg := rfl
@[simp] theorem State.modGbar_bop (s : State) (n : Nat) (f : GBar → GBar) : (s.modGbar n f).bop = s.bop := rfl
@[simp] theorem State.modGbar_sched (s : State) (n : Nat) (f : GBar → GBar) : (s.modGbar n f).sched = s.sched := rfl
@[simp] theorem State.modGbar_rank (s : State) (n : Nat) (f : GBar → GBar) : (s.modGbar n f).rank = s.rank := rfl
@[simp] theorem State.modGbar_moved (s : State) (n : Nat) (f : GBar → GBar) : (s.modGbar n f).moved = s.moved := rfl
@[simp] theorem State.modGbar_setBits (s : State) (n : Nat) (f : GBar → GBar) : (s.modGbar n f).setBits = s.setBits := rfl
@[simp] theorem State.modGbar_agenda (s : State) (n : Nat) (f : GBar → GBar) : (s.modGbar n f).agenda = s.agenda := rfl
@[simp] theorem State.modGbar_nfree (s : State) (n : Nat) (f : GBar → GBar) : (s.modGbar n f).nfree = s.nfree := rfl

@[simp] theorem State.postOnce_mem (s : State) (i : Instr) (a : Args) : (s.postOnce i a).mem = s.mem := by
  unfold State.postOnce; split <;> rfl
@[simp] theorem State.postOnce_olds (s : State) (i : Instr) (a : Args) : (s.postOnce i a).olds = s.olds := by
  unfold State.postOnce; split <;> rfl
@[simp] theorem State.postOnce_nwrite (s : State) (i : Instr) (a : Args) : (s.postOnce i a).nwrite = s.nwrite := by
  unfold State.postOnce; split <;> rfl
@[simp] theorem State.postOnce_poison (s : State) (i : Instr) (a : Args) : (s.postOnce i a).poison = s.poison := by
  unfold State.postOnce; split <;> rfl
@[simp] theorem State.postOnce_cores (s : State) (i : Instr) (a : Args) : (s.postOnce i a).cores = s.cores := by
  unfold State.postOnce; split <;> rfl
@[simp] theorem State.postOnce_dies (s : State) (i : Instr) (a : Args) : (s.postOnce i a).dies = s.dies := by
  unfold State.postOnce; split <;> rfl
@[simp] theorem State.postOnce_pkgs (s : State) (i : Instr) (a : Args) : (s.postOnce i a).pkgs = s.pkgs := by
  unfold State.postOnce; split <;> rfl
@[simp] theorem State.postOnce_chans (s : State) (i : Instr) (a : Args) : (s.postOnce i a).chans = s.chans := by
  unfold State.postOnce; split <;> rfl
@[simp] theorem State.postOnce_switches (s : State) (i : Instr) (a : Args) : (s.postOnce i a).switches = s.switches := by
  unfold State.postOnce; split <;> rfl
@[simp] theorem State.postOnce_plans (s : State) (i : Instr) (a : Args) : (s.postOnce i a).plans = s.plans := by
  unfold State.postOnce; split <;> rfl
@[simp] theorem State.postOnce_nplan (s : State) (i : Instr) (a : Args) : (s.postOnce i a).nplan = s.nplan := by
  unfold State.postOnce; split <;> rfl
@[simp] theorem State.postOnce_chunks (s : State) (i : Instr) (a : Args) : (s.postOnce i a).chunks = s.chunks := by
  unfold State.postOnce; split <;> rfl
@[simp] theorem State.postOnce_nchunk (s : State) (i : Instr) (a : Args) : (s.postOnce i a).nchunk = s.nchunk := by
  unfold State.postOnce; split <;> rfl
@[simp] theorem State.postOnce_saved (s : State) (i : Instr) (a : Args) : (s.postOnce i a).saved = s.saved := by
  unfold State.postOnce; split <;> rfl
@[simp] theorem State.postOnce_members (s : State) (i : Instr) (a : Args) : (s.postOnce i a).members = s.members := by
  unfold State.postOnce; split <;> rfl
@[simp] theorem State.postOnce_wall (s : State) (i : Instr) (a : Args) : (s.postOnce i a).wall = s.wall := by
  unfold State.postOnce; split <;> rfl
@[simp] theorem State.postOnce_tick (s : State) (i : Instr) (a : Args) : (s.postOnce i a).tick = s.tick := by
  unfold State.postOnce; split <;> rfl
@[simp] theorem State.postOnce_cur (s : State) (i : Instr) (a : Args) : (s.postOnce i a).cur = s.cur := by
  unfold State.postOnce; split <;> rfl
@[simp] theorem State.postOnce_arg (s : State) (i : Instr) (a : Args) : (s.postOnce i a).arg = s.arg := by
  unfold State.postOnce; split <;> rfl
@[simp] theorem State.postOnce_bop (s : State) (i : Instr) (a : Args) : (s.postOnce i a).bop = s.bop := by
  unfold State.postOnce; split <;> rfl
@[simp] theorem State.postOnce_sched (s : State) (i : Instr) (a : Args) : (s.postOnce i a).sched = s.sched := by
  unfold State.postOnce; split <;> rfl
@[simp] theorem State.postOnce_rank (s : State) (i : Instr) (a : Args) : (s.postOnce i a).rank = s.rank := by
  unfold State.postOnce; split <;> rfl
@[simp] theorem State.postOnce_moved (s : State) (i : Instr) (a : Args) : (s.postOnce i a).moved = s.moved := by
  unfold State.postOnce; split <;> rfl
@[simp] theorem State.postOnce_setBits (s : State) (i : Instr) (a : Args) : (s.postOnce i a).setBits = s.setBits := by
  unfold State.postOnce; split <;> rfl
@[simp] theorem State.postOnce_nfree (s : State) (i : Instr) (a : Args) : (s.postOnce i a).nfree = s.nfree := by
  unfold State.postOnce; split <;> rfl

@[simp] theorem countPkg_mem (s : State) (u c n : Nat) : (countPkg u c n s).mem = s.mem := by
  unfold countPkg; split <;> rfl
@[simp] theorem countPkg_olds (s : State) (u c n : Nat) : (countPkg u c n s).olds = s.olds := by
  unfold countPkg; split <;> rfl
@[simp] theorem countPkg_nwrite (s : State) (u c n : Nat) : (countPkg u c n s).nwrite = s.nwrite := by
  unfold countPkg; split <;> rfl
@[simp] theorem countPkg_poison (s : State) (u c n : Nat) : (countPkg u c n s).poison = s.poison := by
  unfold countPkg; split <;> rfl
@[simp] theorem countPkg_cores (s : State) (u c n : Nat) : (countPkg u c n s).cores = s.cores := by
  unfold countPkg; split <;> rfl
@[simp] theorem countPkg_dies (s : State) (u c n : Nat) : (countPkg u c n s).dies = s.dies := by
  unfold countPkg; split <;> rfl
@[simp] theorem countPkg_chans (s : State) (u c n : Nat) : (countPkg u c n s).chans = s.chans := by
  unfold countPkg; split <;> rfl
@[simp] theorem countPkg_switches (s : State) (u c n : Nat) : (countPkg u c n s).switches = s.switches := by
  unfold countPkg; split <;> rfl
@[simp] theorem countPkg_plans (s : State) (u c n : Nat) : (countPkg u c n s).plans = s.plans := by
  unfold countPkg; split <;> rfl
@[simp] theorem countPkg_nplan (s : State) (u c n : Nat) : (countPkg u c n s).nplan = s.nplan := by
  unfold countPkg; split <;> rfl
@[simp] theorem countPkg_chunks (s : State) (u c n : Nat) : (countPkg u c n s).chunks = s.chunks := by
  unfold countPkg; split <;> rfl
@[simp] theorem countPkg_nchunk (s : State) (u c n : Nat) : (countPkg u c n s).nchunk = s.nchunk := by
  unfold countPkg; split <;> rfl
@[simp] theorem countPkg_saved (s : State) (u c n : Nat) : (countPkg u c n s).saved = s.saved := by
  unfold countPkg; split <;> rfl
@[simp] theorem countPkg_members (s : State) (u c n : Nat) : (countPkg u c n s).members = s.members := by
  unfold countPkg; split <;> rfl
@[simp] theorem countPkg_wall (s : State) (u c n : Nat) : (countPkg u c n s).wall = s.wall := by
  unfold countPkg; split <;> rfl
@[simp] theorem countPkg_tick (s : State) (u c n : Nat) : (countPkg u c n s).tick = s.tick := by
  unfold countPkg; split <;> rfl
@[simp] theorem countPkg_cur (s : State) (u c n : Nat) : (countPkg u c n s).cur = s.cur := by
  unfold countPkg; split <;> rfl
@[simp] theorem countPkg_arg (s : State) (u c n : Nat) : (countPkg u c n s).arg = s.arg := by
  unfold countPkg; split <;> rfl
@[simp] theorem countPkg_bop (s : State) (u c n : Nat) : (countPkg u c n s).bop = s.bop := by
  unfold countPkg; split <;> rfl
@[simp] theorem countPkg_sched (s : State) (u c n : Nat) : (countPkg u c n s).sched = s.sched := by
  unfold countPkg; split <;> rfl
@[simp] theorem countPkg_rank (s : State) (u c n : Nat) : (countPkg u c n s).rank = s.rank := by
  unfold countPkg; split <;> rfl
@[simp] theorem countPkg_moved (s : State) (u c n : Nat) : (countPkg u c n s).moved = s.moved := by
  unfold countPkg; split <;> rfl
@[simp] theorem countPkg_setBits (s : State) (u c n : Nat) : (countPkg u c n s).setBits = s.setBits := by
  unfold countPkg; split <;> rfl
@[simp] theorem countPkg_agenda (s : State) (u c n : Nat) : (countPkg u c n s).agenda = s.agenda := by
  unfold countPkg; split <;> rfl
@[simp] theorem countPkg_nfree (s : State) (u c n : Nat) : (countPkg u c n s).nfree = s.nfree := by
  unfold countPkg; split <;> rfl

@[simp] theorem countDie_mem (s : State) (u c n : Nat) : (countDie u c n s).mem = s.mem := by
  unfold countDie; simp only [countPkg_mem]; split <;> rfl
@[simp] theorem countDie_olds (s : State) (u c n : Nat) : (countDie u c n s).olds = s.olds := by
  unfold countDie; simp only [countPkg_olds]; split <;> rfl
@[simp] theorem countDie_nwrite (s : State) (u c n : Nat) : (countDie u c n s).nwrite = s.nwrite := by
  unfold countDie; simp only [countPkg_nwrite]; split <;> rfl
@[simp] theorem countDie_poison (s : State) (u c n : Nat) : (countDie u c n s).poison = s.poison := by
  unfold countDie; simp only [countPkg_poison]; split <;> rfl
@[simp] theorem countDie_cores (s : State) (u c n : Nat) : (countDie u c n s).cores = s.cores := by
  unfold countDie; simp only [countPkg_cores]; split <;> rfl
@[simp] theorem countDie_chans (s : State) (u c n : Nat) : (countDie u c n s).chans = s.chans := by
  unfold countDie; simp only [countPkg_chans]; split <;> rfl
@[simp] theorem countDie_switches (s : State) (u c n : Nat) : (countDie u c n s).switches = s.switches := by
  unfold countDie; simp only [countPkg_switches]; split <;> rfl
@[simp] theorem countDie_plans (s : State) (u c n : Nat) : (countDie u c n s).plans = s.plans := by
  unfold countDie; simp only [countPkg_plans]; split <;> rfl
@[simp] theorem countDie_nplan (s : State) (u c n : Nat) : (countDie u c n s).nplan = s.nplan := by
  unfold countDie; simp only [countPkg_nplan]; split <;> rfl
@[simp] theorem countDie_chunks (s : State) (u c n : Nat) : (countDie u c n s).chunks = s.chunks := by
  unfold countDie; simp only [countPkg_chunks]; split <;> rfl
@[simp] theorem countDie_nchunk (s : State) (u c n : Nat) : (countDie u c n s).nchunk = s.nchunk := by
  unfold countDie; simp only [countPkg_nchunk]; split <;> rfl
@[simp] theorem countDie_saved (s : State) (u c n : Nat) : (countDie u c n s).saved = s.saved := by
  unfold countDie; simp only [countPkg_saved]; split <;> rfl
@[simp] theorem countDie_members (s : State) (u c n : Nat) : (countDie u c n s).members = s.members := by
  unfold countDie; simp only [countPkg_members]; split <;> rfl
@[simp] theorem countDie_wall (s : State) (u c n : Nat) : (countDie u c n s).wall = s.wall := by
  unfold countDie; simp only [countPkg_wall]; split <;> rfl
@[simp] theorem countDie_tick (s : State) (u c n : Nat) : (countDie u c n s).tick = s.tick := by
  unfold countDie; simp only [countPkg_tick]; split <;> rfl
@[simp] theorem countDie_cur (s : State) (u c n : Nat) : (countDie u c n s).cur = s.cur := by
  unfold countDie; simp only [countPkg_cur]; split <;> rfl
@[simp] theorem countDie_arg (s : State) (u c n : Nat) : (countDie u c n s).arg = s.arg := by
  unfold countDie; simp only [countPkg_arg]; split <;> rfl
@[simp] theorem countDie_bop (s : State) (u c n : Nat) : (countDie u c n s).bop = s.bop := by
  unfold countDie; simp only [countPkg_bop]; split <;> rfl
@[simp] theorem countDie_sched (s : State) (u c n : Nat) : (countDie u c n s).sched = s.sched := by
  unfold countDie; simp only [countPkg_sched]; split <;> rfl
@[simp] theorem countDie_rank (s : State) (u c n : Nat) : (countDie u c n s).rank = s.rank := by
  unfold countDie; simp only [countPkg_rank]; split <;> rfl
@[simp] theorem countDie_moved (s : State) (u c n : Nat) : (countDie u c n s).moved = s.moved := by
  unfold countDie; simp only [countPkg_moved]; split <;> rfl
@[simp] theorem countDie_setBits (s : State) (u c n : Nat) : (countDie u c n s).setBits = s.setBits := by
  unfold countDie; simp only [countPkg_setBits]; split <;> rfl
@[simp] theorem countDie_agenda (s : State) (u c n : Nat) : (countDie u c n s).agenda = s.agenda := by
  unfold countDie; simp only [countPkg_agenda]; split <;> rfl
@[simp] theorem countDie_nfree (s : State) (u c n : Nat) : (countDie u c n s).nfree = s.nfree := by
  unfold countDie; simp only [countPkg_nfree]; split <;> rfl

@[simp] theorem countCore_mem (s : State) (u c n : Nat) : (countCore u c n s).mem = s.mem := by
  unfold countCore; simp only [countDie_mem]; split <;> rfl
@[simp] theorem countCore_olds (s : State) (u c n : Nat) : (countCore u c n s).olds = s.olds := by
  unfold countCore; simp only [countDie_olds]; split <;> rfl
@[simp] theorem countCore_nwrite (s : State) (u c n : Nat) : (countCore u c n s).nwrite = s.nwrite := by
  unfold countCore; simp only [countDie_nwrite]; split <;> rfl
@[simp] theorem countCore_poison (s : State) (u c n : Nat) : (countCore u c n s).poison = s.poison := by
  unfold countCore; simp only [countDie_poison]; split <;> rfl
@[simp] theorem countCore_chans (s : State) (u c n : Nat) : (countCore u c n s).chans = s.chans := by
  unfold countCore; simp only [countDie_chans]; split <;> rfl
@[simp] theorem countCore_switches (s : State) (u c n : Nat) : (countCore u c n s).switches = s.switches := by
  unfold countCore; simp only [countDie_switches]; split <;> rfl
@[simp] theorem countCore_plans (s : State) (u c n : Nat) : (countCore u c n s).plans = s.plans := by
  unfold countCore; simp only [countDie_plans]; split <;> rfl
@[simp] theorem countCore_nplan (s : State) (u c n : Nat) : (countCore u c n s).nplan = s.nplan := by
  unfold countCore; simp only [countDie_nplan]; split <;> rfl
@[simp] theorem countCore_chunks (s : State) (u c n : Nat) : (countCore u c n s).chunks = s.chunks := by
  unfold countCore; simp only [countDie_chunks]; split <;> rfl
@[simp] theorem countCore_nchunk (s : State) (u c n : Nat) : (countCore u c n s).nchunk = s.nchunk := by
  unfold countCore; simp only [countDie_nchunk]; split <;> rfl
@[simp] theorem countCore_saved (s : State) (u c n : Nat) : (countCore u c n s).saved = s.saved := by
  unfold countCore; simp only [countDie_saved]; split <;> rfl
@[simp] theorem countCore_members (s : State) (u c n : Nat) : (countCore u c n s).members = s.members := by
  unfold countCore; simp only [countDie_members]; split <;> rfl
@[simp] theorem countCore_wall (s : State) (u c n : Nat) : (countCore u c n s).wall = s.wall := by
  unfold countCore; simp only [countDie_wall]; split <;> rfl
@[simp] theorem countCore_tick (s : State) (u c n : Nat) : (countCore u c n s).tick = s.tick := by
  unfold countCore; simp only [countDie_tick]; split <;> rfl
@[simp] theorem countCore_cur (s : State) (u c n : Nat) : (countCore u c n s).cur = s.cur := by
  unfold countCore; simp only [countDie_cur]; split <;> rfl
@[simp] theorem countCore_arg (s : State) (u c n : Nat) : (countCore u c n s).arg = s.arg := by
  unfold countCore; simp only [countDie_arg]; split <;> rfl
@[simp] theorem countCore_bop (s : State) (u c n : Nat) : (countCore u c n s).bop = s.bop := by
  unfold countCore; simp only [countDie_bop]; split <;> rfl
@[simp] theorem countCore_sched (s : State) (u c n : Nat) : (countCore u c n s).sched = s.sched := by
  unfold countCore; simp only [countDie_sched]; split <;> rfl
@[simp] theorem countCore_rank (s : State) (u c n : Nat) : (countCore u c n s).rank = s.rank := by
  unfold countCore; simp only [countDie_rank]; split <;> rfl
@[simp] theorem countCore_moved (s : State) (u c n : Nat) : (countCore u c n s).moved = s.moved := by
  unfold countCore; simp only [countDie_moved]; split <;> rfl
@[simp] theorem countCore_setBits (s : State) (u c n : Nat) : (countCore u c n s).setBits = s.setBits := by
  unfold countCore; simp only [countDie_setBits]; split <;> rfl
@[simp] theorem countCore_agenda (s : State) (u c n : Nat) : (countCore u c n s).agenda = s.agenda := by
  unfold countCore; simp only [countDie_agenda]; split <;> rfl
@[simp] theorem countCore_nfree (s : State) (u c n : Nat) : (countCore u c n s).nfree = s.nfree := by
  unfold countCore; simp only [countDie_nfree]; split <;> rfl

/-! ### Accessors after an update -/

@[simp] theorem State.core_modCore (s : State) (n : Nat) (f : Core → Core) : (s.modCore n f).core n = f (s.core n) := tabGet_tabSet _ _ _ _
theorem State.core_modCore_of_ne (s : State) {n m : Nat} (f : Core → Core) (h : m ≠ n) : (s.modCore n f).core m = s.core m := tabGet_tabSet_of_ne _ _ _ h
@[simp] theorem State.core_modDie (s : State) (n : Nat) (f : Die → Die) (j : Nat) : (s.modDie n f).core j = s.core j := rfl
@[simp] theorem State.core_modPkg (s : State) (n : Nat) (f : Pkg → Pkg) (j : Nat) : (s.modPkg n f).core j = s.core j := rfl
@[simp] theorem State.core_modChan (s : State) (n : Nat) (f : Chan → Chan) (j : Nat) : (s.modChan n f).core j = s.core j := rfl
@[simp] theorem State.core_post (s : State) (i : Instr) (a : Args) (j : Nat) : (s.post i a).core j = s.core j := rfl
@[simp] theorem State.core_at (s : State) (c : Nat) (k : StreamId) (j : Nat) : (s.at c k).core j = s.core j := rfl
@[simp] theorem State.core_modQueue (s : State) (u q : Nat) (f : Queue → Queue) (j : Nat) : (s.modQueue u q f).core j = s.core j := rfl
@[simp] theorem State.core_modPart (s : State) (u k : Nat) (f : Part → Part) (j : Nat) : (s.modPart u k f).core j = s.core j := rfl
@[simp] theorem State.core_modCh' (s : State) (f : Chan → Chan) (j : Nat) : (s.modCh' f).core j = s.core j := rfl
@[simp] theorem State.core_modGbar (s : State) (n : Nat) (f : GBar → GBar) (j : Nat) : (s.modGbar n f).core j = s.core j := rfl

@[simp] theorem State.die_modDie (s : State) (n : Nat) (f : Die → Die) : (s.modDie n f).die n = f (s.die n) := tabGet_tabSet _ _ _ _
theorem State.die_modDie_of_ne (s : State) {n m : Nat} (f : Die → Die) (h : m ≠ n) : (s.modDie n f).die m = s.die m := tabGet_tabSet_of_ne _ _ _ h
@[simp] theorem State.die_modCore (s : State) (n : Nat) (f : Core → Core) (j : Nat) : (s.modCore n f).die j = s.die j := rfl
@[simp] theorem State.die_modPkg (s : State) (n : Nat) (f : Pkg → Pkg) (j : Nat) : (s.modPkg n f).die j = s.die j := rfl
@[simp] theorem State.die_modChan (s : State) (n : Nat) (f : Chan → Chan) (j : Nat) : (s.modChan n f).die j = s.die j := rfl
@[simp] theorem State.die_post (s : State) (i : Instr) (a : Args) (j : Nat) : (s.post i a).die j = s.die j := rfl
@[simp] theorem State.die_at (s : State) (c : Nat) (k : StreamId) (j : Nat) : (s.at c k).die j = s.die j := rfl
@[simp] theorem State.die_modTask (s : State) (f : Task → Task) (j : Nat) : (s.modTask f).die j = s.die j := rfl
@[simp] theorem State.die_modStr (s : State) (f : Stream → Stream) (j : Nat) : (s.modStr f).die j = s.die j := rfl
@[simp] theorem State.die_modQueue (s : State) (u q : Nat) (f : Queue → Queue) (j : Nat) : (s.modQueue u q f).die j = s.die j := rfl
@[simp] theorem State.die_modPart (s : State) (u k : Nat) (f : Part → Part) (j : Nat) : (s.modPart u k f).die j = s.die j := rfl
@[simp] theorem State.die_modCh' (s : State) (f : Chan → Chan) (j : Nat) : (s.modCh' f).die j = s.die j := rfl
@[simp] theorem State.die_modSem (s : State) (n : Nat) (f : Sem → Sem) (j : Nat) : (s.modSem n f).die j = s.die j := rfl

@[simp] theorem State.pkg_modPkg (s : State) (n : Nat) (f : Pkg → Pkg) : (s.modPkg n f).pkg n = f (s.pkg n) := tabGet_tabSet _ _ _ _
theorem State.pkg_modPkg_of_ne (s : State) {n m : Nat} (f : Pkg → Pkg) (h : m ≠ n) : (s.modPkg n f).pkg m = s.pkg m := tabGet_tabSet_of_ne _ _ _ h
@[simp] theorem State.pkg_modCore (s : State) (n : Nat) (f : Core → Core) (j : Nat) : (s.modCore n f).pkg j = s.pkg j := rfl
@[simp] theorem State.pkg_modDie (s : State) (n : Nat) (f : Die → Die) (j : Nat) : (s.modDie n f).pkg j = s.pkg j := rfl
@[simp] theorem State.pkg_modChan (s : State) (n : Nat) (f : Chan → Chan) (j : Nat) : (s.modChan n f).pkg j = s.pkg j := rfl
@[simp] theorem State.pkg_post (s : State) (i : Instr) (a : Args) (j : Nat) : (s.post i a).pkg j = s.pkg j := rfl
@[simp] theorem State.pkg_at (s : State) (c : Nat) (k : StreamId) (j : Nat) : (s.at c k).pkg j = s.pkg j := rfl
@[simp] theorem State.pkg_modTask (s : State) (f : Task → Task) (j : Nat) : (s.modTask f).pkg j = s.pkg j := rfl
@[simp] theorem State.pkg_modStr (s : State) (f : Stream → Stream) (j : Nat) : (s.modStr f).pkg j = s.pkg j := rfl
@[simp] theorem State.pkg_modCh' (s : State) (f : Chan → Chan) (j : Nat) : (s.modCh' f).pkg j = s.pkg j := rfl
@[simp] theorem State.pkg_modSem (s : State) (n : Nat) (f : Sem → Sem) (j : Nat) : (s.modSem n f).pkg j = s.pkg j := rfl
@[simp] theorem State.pkg_modGbar (s : State) (n : Nat) (f : GBar → GBar) (j : Nat) : (s.modGbar n f).pkg j = s.pkg j := rfl

@[simp] theorem State.chan_modChan (s : State) (n : Nat) (f : Chan → Chan) : (s.modChan n f).chan n = f (s.chan n) := tabGet_tabSet _ _ _ _
theorem State.chan_modChan_of_ne (s : State) {n m : Nat} (f : Chan → Chan) (h : m ≠ n) : (s.modChan n f).chan m = s.chan m := tabGet_tabSet_of_ne _ _ _ h
@[simp] theorem State.chan_modCore (s : State) (n : Nat) (f : Core → Core) (j : Nat) : (s.modCore n f).chan j = s.chan j := rfl
@[simp] theorem State.chan_modDie (s : State) (n : Nat) (f : Die → Die) (j : Nat) : (s.modDie n f).chan j = s.chan j := rfl
@[simp] theorem State.chan_modPkg (s : State) (n : Nat) (f : Pkg → Pkg) (j : Nat) : (s.modPkg n f).chan j = s.chan j := rfl
@[simp] theorem State.chan_post (s : State) (i : Instr) (a : Args) (j : Nat) : (s.post i a).chan j = s.chan j := rfl
@[simp] theorem State.chan_at (s : State) (c : Nat) (k : StreamId) (j : Nat) : (s.at c k).chan j = s.chan j := rfl
@[simp] theorem State.chan_modTask (s : State) (f : Task → Task) (j : Nat) : (s.modTask f).chan j = s.chan j := rfl
@[simp] theorem State.chan_modStr (s : State) (f : Stream → Stream) (j : Nat) : (s.modStr f).chan j = s.chan j := rfl
@[simp] theorem State.chan_modQueue (s : State) (u q : Nat) (f : Queue → Queue) (j : Nat) : (s.modQueue u q f).chan j = s.chan j := rfl
@[simp] theorem State.chan_modPart (s : State) (u k : Nat) (f : Part → Part) (j : Nat) : (s.modPart u k f).chan j = s.chan j := rfl
@[simp] theorem State.chan_modSem (s : State) (n : Nat) (f : Sem → Sem) (j : Nat) : (s.modSem n f).chan j = s.chan j := rfl
@[simp] theorem State.chan_modGbar (s : State) (n : Nat) (f : GBar → GBar) (j : Nat) : (s.modGbar n f).chan j = s.chan j := rfl

@[simp] theorem State.queue_modQueue (s : State) (u q : Nat) (f : Queue → Queue) : (s.modQueue u q f).queue u q = f (s.queue u q) := by
  simp [State.queue, State.modQueue]
@[simp] theorem State.part_modPart (s : State) (u k : Nat) (f : Part → Part) : (s.modPart u k f).part u k = f (s.part u k) := by
  simp [State.part, State.modPart]

/-- The resident task of the executing core after a change of it. -/
theorem State.task_modTask (s : State) (f : Task → Task) (h : s.resident = true) : (s.modTask f).task = f s.task := by
  unfold State.task
  rw [State.modTask_cur]
  unfold State.modTask
  rw [State.core_modCore]
  unfold State.resident at h
  cases hc : (s.core s.cur.core).task with
  | none => simp [hc] at h
  | some t => simp

/-- A change of the executing task leaves a task resident. -/
@[simp] theorem State.resident_modTask (s : State) (f : Task → Task) : (s.modTask f).resident = s.resident := by
  unfold State.resident
  rw [State.modTask_cur]
  unfold State.modTask
  rw [State.core_modCore]
  simp

@[simp] theorem Task.str_setStr (t : Task) (k : StreamId) (x : Stream) : (t.setStr k x).str k = x := by cases k <;> rfl

/-- The executing stream after a change of it. -/
theorem State.str_modStr (s : State) (f : Stream → Stream) (h : s.resident = true) : (s.modStr f).str = f s.str := by
  unfold State.modStr
  rw [State.str, State.task_modTask s _ h, State.modTask_cur, Task.str_setStr]
  rfl

@[simp] theorem State.resident_modStr (s : State) (f : Stream → Stream) : (s.modStr f).resident = s.resident := State.resident_modTask _ _

end Sys2Proof.Machine
end

