-- ==== Sys2Proof/Laws/Memory.lean ====
section
/-!
SUPPORT. Sys2Proof/Laws/Memory.lean: reading after writing, and that every operation on memory keeps its canonical form.
-/

namespace Sys2Proof.Machine

/-! ### Reading after writing -/

theorem Memory.get_put (m : List Host.Cell) (a : Nat) (b : Byte) : Memory.get (Memory.put m a b) a = b := by
  induction m with
  | nil => simp [Memory.put, Memory.get]
  | cons e t ih =>
    obtain ⟨k, x⟩ := e
    simp only [Memory.put]
    split
    · simp [Memory.get]
    · split
      · simp [Memory.get]
      · have h : ¬ k = a := fun h => by subst h; simp_all
        simp [Memory.get, h, ih]

theorem Memory.get_put_of_ne (m : List Host.Cell) {a a' : Nat} (b : Byte) (h : a' ≠ a) : Memory.get (Memory.put m a b) a' = Memory.get m a' := by
  have h' : ¬ a = a' := fun e => h e.symm
  induction m with
  | nil => simp [Memory.put, Memory.get, h']
  | cons e t ih =>
    obtain ⟨k, x⟩ := e
    simp only [Memory.put]
    split
    · simp [Memory.get, h']
    · split
      · rename_i hk
        subst hk
        simp [Memory.get, h']
      · simp only [Memory.get, ih]

/-- A location that a filter on locations drops reads as unlisted, another as before. -/
theorem Memory.get_filter (m : List Host.Cell) (p : Nat → Bool) (a : Nat) :
    Memory.get (m.filter fun c => p c.1) a = if p a = true then Memory.get m a else Memory.unlisted := by
  induction m with
  | nil => simp [Memory.get]
  | cons e t ih =>
    obtain ⟨k, x⟩ := e
    by_cases hk : k = a
    · subst hk
      by_cases hp : p k = true <;> simp [Memory.get, hp, ih]
    · by_cases hp : p k = true <;> simp [Memory.get, hp, hk, ih]

/-- A location reads what was set there. -/
@[simp] theorem Memory.get_set (m : List Host.Cell) (a : Nat) (b : Byte) : Memory.get (Memory.set m a b) a = b := by
  unfold Memory.set
  split
  · rename_i h
    rw [Memory.get_filter m (fun x => decide (x ≠ a)) a]
    simp [h]
  · exact Memory.get_put m a b

/-- Every other location reads as before. -/
theorem Memory.get_set_of_ne (m : List Host.Cell) {a a' : Nat} (b : Byte) (h : a' ≠ a) : Memory.get (Memory.set m a b) a' = Memory.get m a' := by
  unfold Memory.set
  split
  · rw [Memory.get_filter m (fun x => decide (x ≠ a)) a']
    simp [h]
  · exact Memory.get_put_of_ne m b h

/-! ### The canonical form -/

/-- The canonical form of a list with a first cell: it is listed by right, what follows lies above it, and the rest is canonical. -/
theorem Memory.wf_cons (x : Nat) (y : Byte) (t : List Host.Cell) :
    Memory.wf ((x, y) :: t) = true ↔ y ≠ Memory.unlisted ∧ (∀ c ∈ t, x < c.1) ∧ Memory.wf t = true := by
  induction t generalizing x y with
  | nil => simp [Memory.wf]
  | cons e t ih =>
    obtain ⟨x', y'⟩ := e
    have h := ih x' y'
    constructor
    · intro hw
      simp only [Memory.wf, Bool.and_eq_true, decide_eq_true_eq] at hw
      obtain ⟨⟨hx, hy⟩, ht⟩ := hw
      refine ⟨hy, ?_, ht⟩
      intro c hc
      rcases List.mem_cons.1 hc with rfl | hc
      · exact hx
      · exact Nat.lt_trans hx ((h.1 ht).2.1 c hc)
    · rintro ⟨hy, hx, ht⟩
      simp only [Memory.wf, Bool.and_eq_true, decide_eq_true_eq]
      exact ⟨⟨hx _ (List.mem_cons_self ..), hy⟩, ht⟩

theorem Memory.wf_nil : Memory.wf [] = true := rfl

/-- Cells taken out leave the form. -/
theorem Memory.wf_filter (m : List Host.Cell) (p : Host.Cell → Bool) (h : Memory.wf m = true) : Memory.wf (m.filter p) = true := by
  induction m with
  | nil => rfl
  | cons e t ih =>
    obtain ⟨x, y⟩ := e
    obtain ⟨hy, hx, ht⟩ := (Memory.wf_cons x y t).1 h
    by_cases hp : p (x, y) = true
    · rw [List.filter_cons_of_pos hp]
      exact (Memory.wf_cons ..).2 ⟨hy, fun c hc => hx c (List.mem_of_mem_filter hc), ih ht⟩
    · rw [List.filter_cons_of_neg hp]
      exact ih ht

theorem Memory.mem_put (m : List Host.Cell) (a : Nat) (b : Byte) (c : Host.Cell) (h : c ∈ Memory.put m a b) : c = (a, b) ∨ c ∈ m := by
  induction m with
  | nil => simpa [Memory.put] using h
  | cons e t ih =>
    obtain ⟨k, x⟩ := e
    simp only [Memory.put] at h
    split at h
    · simpa using h
    · split at h
      · rcases List.mem_cons.1 h with h | h
        · exact .inl h
        · exact .inr (List.mem_cons_of_mem _ h)
      · rcases List.mem_cons.1 h with h | h
        · exact .inr (by simp [h])
        · rcases ih h with h | h
          · exact .inl h
          · exact .inr (List.mem_cons_of_mem _ h)

/-- A byte listed that is not what an unlisted location reads as keeps the form. -/
theorem Memory.wf_put (m : List Host.Cell) (a : Nat) (b : Byte) (hb : b ≠ Memory.unlisted) (h : Memory.wf m = true) :
    Memory.wf (Memory.put m a b) = true := by
  induction m with
  | nil => simpa [Memory.put, Memory.wf] using hb
  | cons e t ih =>
    obtain ⟨k, x⟩ := e
    obtain ⟨hy, hx, ht⟩ := (Memory.wf_cons k x t).1 h
    simp only [Memory.put]
    split
    · rename_i ha
      refine (Memory.wf_cons ..).2 ⟨hb, ?_, h⟩
      intro c hc
      rcases List.mem_cons.1 hc with rfl | hc
      · exact ha
      · exact Nat.lt_trans ha (hx c hc)
    · split
      · rename_i hk
        subst hk
        exact (Memory.wf_cons ..).2 ⟨hb, hx, ht⟩
      · refine (Memory.wf_cons ..).2 ⟨hy, ?_, ih ht⟩
        intro c hc
        rcases Memory.mem_put t a b c hc with rfl | hc
        · show k < a
          omega
        · exact hx c hc

/-- A byte set keeps the form. -/
theorem Memory.wf_set (m : List Host.Cell) (a : Nat) (b : Byte) (h : Memory.wf m = true) : Memory.wf (Memory.set m a b) = true := by
  unfold Memory.set
  split
  · exact Memory.wf_filter m _ h
  · rename_i hb
    exact Memory.wf_put m a b hb h

/-- Bytes set one after another keep the form. -/
theorem Memory.wf_foldl {α : Type} (l : List α) (f : α → Nat) (g : α → Byte) (m : List Host.Cell) (h : Memory.wf m = true) :
    Memory.wf (l.foldl (fun m e => Memory.set m (f e) (g e)) m) = true := by
  induction l generalizing m with
  | nil => exact h
  | cons e l ih => exact ih _ (Memory.wf_set m _ _ h)

/-! ### The operations over memory -/

/-- One byte written (R233) keeps the form. -/
theorem writeByte_wf (s : State) (pa : Nat) (b : Byte) (h : Memory.wf s.mem = true) : Memory.wf (writeByte s pa b).mem = true := by
  unfold writeByte
  simp only []
  split
  · exact Memory.wf_set _ _ _ h
  · split
    · simpa using h
    · exact h
  · exact h

/-- Bytes written keep the form. -/
theorem writeCells_wf (s : State) (l : List (Nat × Byte)) (h : Memory.wf s.mem = true) : Memory.wf (writeCells s l).mem = true := by
  unfold writeCells
  induction l generalizing s with
  | nil => exact h
  | cons e l ih => exact ih _ (writeByte_wf s e.1 e.2 h)

@[simp] theorem clearPoison_mem (s : State) (l : List (Nat × Byte)) : (clearPoison s l).mem = s.mem := rfl

/-- What agents still see of older values changes no byte. -/
@[simp] theorem purgeOld_mem (l : List (Nat × Byte)) (s : State) : (purgeOld l s).mem = s.mem := by
  unfold purgeOld
  split <;> rfl

@[simp] theorem purgeLocs_mem (l : List Nat) (s : State) : (purgeLocs l s).mem = s.mem := by
  unfold purgeLocs
  split <;> rfl

@[simp] theorem storeCells_mem (s : State) (l : List (Nat × Byte)) : (storeCells s l).mem = (putCells s l).mem := purgeOld_mem _ _

/-- Bytes stored keep the form. -/
theorem storeCells_wf (s : State) (l : List (Nat × Byte)) (h : Memory.wf s.mem = true) : Memory.wf (storeCells s l).mem = true := by
  rw [storeCells_mem]
  unfold putCells
  split
  · exact writeCells_wf s l h
  · exact writeCells_wf _ l h

/-- A page moved keeps the form (R326). -/
theorem moveBytes_wf (src dst n : Nat) (s : State) (h : Memory.wf s.mem = true) : Memory.wf (moveBytes src dst n s).mem = true := by
  unfold moveBytes
  exact Memory.wf_foldl _ (fun c : Host.Cell => c.1 - src + dst) (fun c => c.2) _ (Memory.wf_filter _ _ h)

/-- What drops the cached copies of rows touches no memory (R229). -/
@[simp] theorem dropCopies_mem (key : Nat) (l : List Nat) (s : State) : (dropCopies key l s).mem = s.mem := by
  unfold dropCopies
  simp only []
  generalize (l.map (chanAddr s key)).dedup = pas
  induction pas generalizing s with
  | nil => rfl
  | cons a t ih =>
    rw [List.foldl_cons, ih]
    split <;> rfl

/-- A row's bytes written keep the form (R286). -/
theorem writeRow_wf (b row o : Nat) (bytes : List Nat) (s : State) (h : Memory.wf s.mem = true) : Memory.wf (writeRow b row o bytes s).mem = true := by
  unfold writeRow
  simp only []
  split
  · simpa using h
  · rw [dropCopies_mem, purgeLocs_mem]
    exact Memory.wf_foldl _ _ (fun e : Nat × Nat => BitVec.ofNat 8 e.1) _ h

/-- Memory after reset is in the form. -/
theorem reset_mem_wf : Memory.wf State.reset.mem = true := rfl

end Sys2Proof.Machine
end

