-- ==== Sys2Proof/Laws/Ops.lean ====
section
/-!
SUPPORT. Sys2Proof/Laws/Ops.lean: what each shared operation can do, said once: the shapes of a meaning, what is due, counting,
stores, results, guards, and the taking of a fault.
-/

namespace Sys2Proof.Machine

/-! ### The shapes of a meaning -/

/-- A stream instruction's meaning: its effect where a task is resident, a fault by name otherwise. -/
theorem onStream_of_resident (s : State) (f : State → State) (h : s.resident = true) : onStream s f = .next (f s) := by
  simp [onStream, h]

theorem onStream_next (s t : State) (f : State → State) : onStream s f = .next t ↔ s.resident = true ∧ f s = t := by
  unfold onStream
  split <;> simp_all

theorem onEvent_eq (s : State) (f : State → State) : onEvent s f = .next (f s) := rfl

theorem onBank_eq (s : State) (f : BankOps → State → State) : onBank s f = .next (f s.bop s) := rfl

/-! ### What is due -/

theorem State.mem_post (s : State) (i : Instr) (a : Args) : (i, a) ∈ (s.post i a).agenda := by simp [State.post]

/-- What is posted once is due, and nothing that was due is lost. -/
theorem State.mem_postOnce (s : State) (i : Instr) (a : Args) : (i, a) ∈ (s.postOnce i a).agenda := by
  unfold State.postOnce
  split
  · rename_i h
    simpa using h
  · exact State.mem_post s i a

theorem State.agenda_postOnce (s : State) (i : Instr) (a : Args) (e : Instr × Args) : e ∈ (s.postOnce i a).agenda ↔ e ∈ s.agenda ∨ e = (i, a) := by
  unfold State.postOnce
  split
  · rename_i h
    constructor
    · exact .inl
    · rintro (h' | rfl)
      · exact h'
      · simpa using h
  · simp [State.post]

/-! ### Counting (R433, R434) -/

/-- Counting changes nothing of a core but its counters. -/
@[simp] theorem countPkg_core (u c n : Nat) (s : State) (k : Nat) : (countPkg u c n s).core k = s.core k := by
  unfold State.core
  rw [countPkg_cores]

theorem countDie_core (u c n : Nat) (s : State) (k : Nat) : (countDie u c n s).core k = s.core k := by
  unfold State.core
  rw [countDie_cores]

theorem countCore_core (u c n : Nat) (s : State) (k : Nat) : ∃ e, (countCore u c n s).core k = { s.core k with ec := e } := by
  unfold countCore
  rw [countDie_core]
  split
  · exact ⟨_, rfl⟩
  · by_cases h : k = u
    · subst h
      exact ⟨_, State.core_modCore _ _ _⟩
    · exact ⟨(s.core k).ec, State.core_modCore_of_ne _ _ h⟩

@[simp] theorem countCore_task (u c n : Nat) (s : State) (k : Nat) : ((countCore u c n s).core k).task = (s.core k).task := by
  obtain ⟨e, h⟩ := countCore_core u c n s k
  rw [h]

/-! ### Stores (R208, R233) -/

/-- A byte written changes no task. -/
@[simp] theorem writeByte_task (s : State) (pa : Nat) (b : Byte) (k : Nat) : ((writeByte s pa b).core k).task = (s.core k).task := by
  unfold writeByte
  simp only []
  split
  · rfl
  · rename_i n o _
    split
    · by_cases h : k = pa / 2 ^ 45 * 4096 + n
      · subst h
        rw [State.core_modCore]
        rfl
      · rw [State.core_modCore_of_ne _ _ h]
    · rfl
  · rfl

@[simp] theorem writeCells_task (s : State) (l : List (Nat × Byte)) (k : Nat) : ((writeCells s l).core k).task = (s.core k).task := by
  unfold writeCells
  induction l generalizing s with
  | nil => rfl
  | cons e l ih => simp only [List.foldl_cons, ih, writeByte_task]

@[simp] theorem purgeOld_cores (l : List (Nat × Byte)) (s : State) : (purgeOld l s).cores = s.cores := by
  unfold purgeOld
  split <;> rfl

@[simp] theorem purgeOld_cur (l : List (Nat × Byte)) (s : State) : (purgeOld l s).cur = s.cur := by
  unfold purgeOld
  split <;> rfl

/-- Bytes stored change no task. -/
@[simp] theorem storeCells_task (s : State) (l : List (Nat × Byte)) (k : Nat) : ((storeCells s l).core k).task = (s.core k).task := by
  unfold storeCells State.core
  rw [purgeOld_cores]
  unfold putCells
  split
  · exact writeCells_task s l k
  · exact writeCells_task (clearPoison s l) l k

@[simp] theorem writeByte_cur (s : State) (pa : Nat) (b : Byte) : (writeByte s pa b).cur = s.cur := by
  unfold writeByte
  simp only []
  split
  · rfl
  · split <;> rfl
  · rfl

@[simp] theorem writeCells_cur (s : State) (l : List (Nat × Byte)) : (writeCells s l).cur = s.cur := by
  unfold writeCells
  induction l generalizing s with
  | nil => rfl
  | cons e l ih => simp only [List.foldl_cons, ih, writeByte_cur]

@[simp] theorem storeCells_cur (s : State) (l : List (Nat × Byte)) : (storeCells s l).cur = s.cur := by
  unfold storeCells
  rw [purgeOld_cur]
  unfold putCells
  split
  · exact writeCells_cur s l
  · exact writeCells_cur (clearPoison s l) l

/-! ### Results and registers (R63, R91, R107) -/

/-- Register 0 reads zero, whatever was written (R107). -/
@[simp] theorem Stream.reg_zero (x : Stream) : x.reg 0 = 0 := by simp [Stream.reg]

theorem Stream.setReg_zero (x : Stream) (v : Word64) : x.setReg 0 v = x := by simp [Stream.setReg]

/-- A register written reads back; every other one reads as before. -/
theorem Stream.reg_setReg (x : Stream) {r d : Nat} (v : Word64) (hd : d ≠ 0) (hl : d < x.regs.length) :
    (x.setReg d v).reg r = if r = 0 then 0 else if r = d then v else x.reg r := by
  unfold Stream.setReg Stream.reg
  simp only [hd, if_false]
  by_cases h0 : r = 0
  · simp [h0]
  · by_cases h : r = d
    · subst h
      simp [h0, hl]
    · have h' : ¬ d = r := fun e => h e.symm
      simp [h0, h, h']

/-- A result of a fixed latency only joins the results in flight. -/
theorem resultIn_mem (n : Nat) (l : Land) (fl : Nat) (s : State) : (resultIn n l fl s).mem = s.mem := rfl

theorem result_mem (cls : Nat) (l : Land) (fl : Nat) (s : State) : (result cls l fl s).mem = s.mem := by
  unfold result resultAfter
  simp only []
  split <;> rfl

/-- A stream with nothing due lands nothing. -/
theorem landDue_of_none (s : State) (h : dueFlights s.str = []) : landDue s = s := by
  unfold landDue
  simp [h]

/-! ### Guards and predicates (R62, R139, R140) -/

/-- p0 reads true and reading it changes nothing. -/
theorem readP_zero (s : State) : readP 0 s = (true, s) := by
  simp [readP, readPred]

/-- The guard that is always true. -/
theorem guardRead_always (s : State) : guardRead ⟨0, false⟩ s = (true, s) := by
  unfold guardRead
  split
  · rfl
  · simp [readP_zero]

/-- Reading a predicate changes the executing task and the free choices only. -/
theorem readP_frame (p : Nat) (s : State) : (readP p s).2.mem = s.mem ∧ (readP p s).2.cur = s.cur ∧ (readP p s).2.agenda = s.agenda ∧
    (readP p s).2.poison = s.poison ∧ (readP p s).2.pkgs = s.pkgs ∧ (readP p s).2.dies = s.dies := by
  unfold readP
  simp only []
  split <;> exact ⟨rfl, rfl, rfl, rfl, rfl, rfl⟩

theorem guardRead_frame (g : Guard) (s : State) : (guardRead g s).2.mem = s.mem ∧ (guardRead g s).2.cur = s.cur ∧ (guardRead g s).2.agenda = s.agenda ∧
    (guardRead g s).2.poison = s.poison ∧ (guardRead g s).2.pkgs = s.pkgs ∧ (guardRead g s).2.dies = s.dies := by
  unfold guardRead
  split
  · exact ⟨rfl, rfl, rfl, rfl, rfl, rfl⟩
  · exact readP_frame g.p s

/-- Under a true guard the instruction has its effect; under a false one it is only counted. -/
theorem guarded_of_true (g : Guard) (f : State → State) (s : State) (h : (guardRead g s).1 = true) : guarded g f s = f (guardRead g s).2 := by
  simp [guarded, h]

theorem guarded_of_false (g : Guard) (f : State → State) (s : State) (h : (guardRead g s).1 = false) :
    guarded g f s = countCore (guardRead g s).2.cur.core (5 + (guardRead g s).2.cur.st.num) 1 (guardRead g s).2 := by
  simp [guarded, h]

/-- Registers read that are not poisoned stop nothing (R428). -/
theorem reading_of_clean (l : List Nat) (f : State → State) (s : State) (h : ∀ r ∈ l, ErrLoc.reg s.cur.core s.cur.st r ∉ s.poison) :
    reading l f s = f s := by
  unfold reading
  split
  · rfl
  · have : l.any (regPoisoned s) = false := by
      rw [List.any_eq_false]
      intro r hr
      simpa [regPoisoned] using h r hr
    simp [this]

/-! ### Taking a fault (R101, R422, R423) -/

/-- Writing a record changes no task and not who executes. -/
theorem writeRecord_frame (pkg ctx : Nat) (r : Rec) (s : State) :
    (writeRecord pkg ctx r s).cur = s.cur ∧ ∀ k, ((writeRecord pkg ctx r s).core k).task = (s.core k).task := by
  unfold writeRecord
  simp only []
  split
  · refine ⟨by simp, fun k => ?_⟩
    simp [State.core_modPkg]
  · exact ⟨by simp, fun k => by simp⟩

/-- A record is stored where memory keeps its form. -/
theorem writeRecord_wf (pkg ctx : Nat) (r : Rec) (s : State) (h : Memory.wf s.mem = true) : Memory.wf (writeRecord pkg ctx r s).mem = true := by
  unfold writeRecord
  simp only []
  split
  · simpa using storeCells_wf _ _ (by simpa using h)
  · simpa using h

@[simp] theorem State.resident_post (s : State) (i : Instr) (a : Args) : (s.post i a).resident = s.resident := rfl

/-- Residence depends on the executing core's task only. -/
theorem State.resident_congr (s t : State) (hc : t.cur = s.cur) (ht : ∀ k, ((t.core k).task) = (s.core k).task) : t.resident = s.resident := by
  unfold State.resident
  rw [hc, ht]

/-- A record about the executing task leaves a task resident, and says who executes no differently. -/
theorem reportTask_frame (r : Rec) (s : State) : (reportTask r s).cur = s.cur ∧ (reportTask r s).resident = s.resident := by
  unfold reportTask
  simp only []
  generalize ht : (if r.cls = 0x14 then countCore s.cur.core 0x4C 1 s else s) = t
  have hc : t.cur = s.cur := by
    subst ht
    split
    · exact countCore_cur ..
    · rfl
  have hr : t.resident = s.resident := by
    subst ht
    split
    · exact State.resident_congr s _ (countCore_cur ..) (fun k => countCore_task ..)
    · rfl
  have hw := writeRecord_frame (pkgOf t.cur.core) t.task.ctx { r with task := t.task.id } t
  refine ⟨?_, ?_⟩
  · rw [State.modTask_cur, hw.1, hc]
  · rw [State.resident_modTask, State.resident_congr t _ hw.1 hw.2, hr]

/-- Taking a fault stops the executing stream with the record's number and says how it goes on (R101, R243). -/
theorem takeFaultOf_status (org : Nat × Nat × Nat) (r : Rec) (how : Resume) (s : State) (h : s.resident = true) :
    (takeFaultOf org r how s).str.status = .stopped (recSeq s (pkgOf s.cur.core) s.task.ctx) how := by
  unfold takeFaultOf
  simp only []
  rw [State.str_modStr]
  rw [(reportTask_frame _ s).2, h]

theorem takeFault_cur (r : Rec) (how : Resume) (s : State) : (takeFault r how s).cur = s.cur := by
  unfold takeFault takeFaultOf
  simp only [State.modStr_cur]
  exact (reportTask_frame _ s).1

end Sys2Proof.Machine
end

