-- ==== Sys2Proof/Laws/View.lean ====
section
/-!
SUPPORT. Sys2Proof/Laws/View.lean: what the operations on open writes and on the caches can do: none but a write itself touches a
byte of memory, and a write keeps memory's canonical form.
-/

namespace Sys2Proof.Machine

@[simp] theorem perform_mem (sc : Nat) (l : List Nat) (s : State) : (perform sc l s).mem = s.mem := by
  unfold perform
  split <;> rfl

@[simp] theorem releaseAt_mem (sc : Nat) (s : State) : (releaseAt sc s).mem = s.mem := perform_mem _ _ _

@[simp] theorem hear_mem (r : LoadReq) (q : Nat) (l : List Rel) (s : State) : (hear r q l s).mem = s.mem := rfl

@[simp] theorem acquireHeard_mem (sc : Nat) (s : State) : (acquireHeard sc s).mem = s.mem := by
  unfold acquireHeard
  dsimp only
  split <;> rfl

@[simp] theorem ageOlds_mem (s : State) : (ageOlds s).mem = s.mem := by
  unfold ageOlds
  split <;> rfl

theorem enterMem_mem (q : Nat) (so un : Bool) (rels : List Rel) (l : List (Nat × Byte)) (s : State) :
    (enterMem q so un rels l s).mem = (putCells s l).mem := by
  unfold enterMem
  split
  · exact storeCells_mem s l
  · dsimp only
    split
    · exact perform_mem _ _ _
    · rfl

theorem enterMem_wf (q : Nat) (so un : Bool) (rels : List Rel) (l : List (Nat × Byte)) (s : State) (h : Memory.wf s.mem = true) :
    Memory.wf (enterMem q so un rels l s).mem = true := by
  rw [enterMem_mem, ← storeCells_mem]
  exact storeCells_wf s l h

@[simp] theorem carryPoison_mem (wb gone : Bool) (line : Nat) (s : State) : (carryPoison wb gone line s).mem = s.mem := by
  unfold carryPoison
  dsimp only
  split <;> rfl

@[simp] theorem carryPoisons_mem (l : List (Nat × Bool)) (s : State) : (l.foldl (fun s e => carryPoison e.2 true e.1 s) s).mem = s.mem := by
  induction l generalizing s with
  | nil => rfl
  | cons e t ih => rw [List.foldl_cons, ih, carryPoison_mem]

@[simp] theorem l2Touch_mem (pa pol : Nat) (dirty : Bool) (s : State) : (l2Touch pa pol dirty s).mem = s.mem := by
  unfold l2Touch
  split
  · rfl
  · simp

@[simp] theorem l1Back_mem (line : Nat) (s : State) : (l1Back line s).mem = s.mem := by
  unfold l1Back
  rw [l2Touch_mem, countCore_mem]
  split <;> rfl

@[simp] theorem l1Fill_mem (pa : Nat) (dirty : Bool) (s : State) : (l1Fill pa dirty s).mem = s.mem := by
  unfold l1Fill
  dsimp only
  split
  · rw [l1Back_mem]
    rfl
  · rfl

@[simp] theorem cached_mem (l1 : Bool) (l2 pa : Nat) (dirty : Bool) (s : State) : (cached l1 l2 pa dirty s).mem = s.mem := by
  unfold cached
  split <;> simp

end Sys2Proof.Machine
end

