-- ==== Sys2Proof/Tests/Slice0.lean ====
section
/-!
SUPPORT. Sys2Proof/Tests/Slice0.lean: the author's tests: ill-formed terms that WellFormed refuses, words written out from the
spec's formats, and for every statement with hypotheses a state and operands that meet them (`wit_…`, one for each clause).
-/

namespace Sys2Proof.Tests

open Machine Claim

/-- The guard that is always true. -/
def g0 : Guard := ⟨0, false⟩

/-- A task as a launch makes it, with a region for each stream. -/
def task0 : Task :=
  freshTask { s := freshStream .s 0 64 0, v := freshStream .v 0 64 0, m := freshStream .m 0 64 0, c := freshStream .c 0 64 0 }

/-- A machine with one task, one stream of which executes. -/
def on (k : StreamId) (t : Task) : State := { cores := [(0, { task := some t })], cur := { st := k } }

/-- The S stream of a fresh task. -/
def st0 : State := on .s task0

/-- The machine with its executing stream changed. -/
def strm (f : Stream → Stream) (s : State) : State := s.modStr f

/-- An event about to happen. -/
def ev (a : Args) (s : State) : State := { s with arg := a }

/-! ### Integer instructions, landing, control -/

theorem issues0 : Issues g0 st0 := And.intro (by decide +kernel) (by decide +kernel)

theorem wit_IntegerRegisterFormsCompute :
    ∃ r, alu2 (.add g0 5 6 7) = some r ∧ Issues r.g st0 ∧ Clean r.src st0 :=
  ⟨_, rfl, issues0, by unfold Clean; decide +kernel⟩

theorem wit_IntegerImmediateAndUnaryFormsCompute :
    ∃ r, alu1 (.lix g0 63 32767) = some r ∧ Issues r.g st0 ∧ Clean r.src st0 :=
  ⟨_, rfl, issues0, by unfold Clean; decide +kernel⟩

theorem wit_SelectionsComparesAndPredicates :
    st0.resident = true ∧ Clean [1, 63] st0 ∧ Issues g0 st0 ∧ (predRow (.pand g0 15 1 2)).isSome = true ∧ 7 < 8 :=
  ⟨by decide +kernel, by unfold Clean; decide +kernel, issues0, rfl, by decide⟩

/-- A result of register 63 due now. -/
def due0 : State := strm (fun x => { x with flights := [{ due := 0, iss := 0, seq := 0, land := .regs [(63, 9)], fl := 0 }] }) st0

theorem wit_ResultsLandAtTheirDueCycle :
    dueFlights st0.str = [] ∧ due0.resident = true ∧
    ∃ f, dueFlights due0.str = [f] ∧ f.land = .regs [(63, 9)] ∧ due0.str.regs[63]? = some 0 :=
  ⟨by decide +kernel, by decide +kernel, _, by rfl, rfl, by decide +kernel⟩

/-- Results of register 63 that land together, the later issued 8, and one of register 62. -/
def dueTwo : List Flight :=
  [{ due := 0, iss := 0, seq := 0, land := .regs [(63, 9)], fl := 0 }, { due := 0, iss := 0, seq := 1, land := .regs [(63, 8)], fl := 0 },
   { due := 0, iss := 0, seq := 2, land := .regs [(62, 7)], fl := 0 }]

theorem wit_ResultsLandAtTheirDueCycle_several :
    let s := strm (fun x => { x with flights := dueTwo }) st0
    s.resident = true ∧ s.str.regs[63]? = some 0 ∧ dueFlights s.str = dueTwo ∧
    (∀ g ∈ dueTwo, writesReg 63 g → g = { due := 0, iss := 0, seq := 1, land := .regs [(63, 8)], fl := 0 } ∨ g.due < 0 ∨ (g.due = 0 ∧ g.seq < 1)) ∧
    ∀ g ∈ dueTwo, ¬ writesReg 61 g := by
  refine ⟨by decide +kernel, by decide +kernel, by decide +kernel, ?_, ?_⟩
  · intro g hg hw
    simp only [dueTwo, List.mem_cons, List.not_mem_nil, or_false] at hg
    rcases hg with rfl | rfl | rfl
    · exact .inr (.inr ⟨rfl, by decide⟩)
    · exact .inl rfl
    · obtain ⟨l, v, h, hv⟩ := hw
      cases h
      simp at hv
  · intro g hg hw
    simp only [dueTwo, List.mem_cons, List.not_mem_nil, or_false] at hg
    obtain ⟨l, v, h, hv⟩ := hw
    rcases hg with rfl | rfl | rfl <;> (cases h; simp at hv)

theorem wit_GuardsAreReadAtIssueAndFalseOnesDoNothing :
    plainGuard (.add ⟨0, true⟩ 5 6 7) = some ⟨0, true⟩ ∧ plainGuard (.fenceRel ⟨0, true⟩ 1) = some ⟨0, true⟩ ∧ st0.resident = true ∧
    (guardRead ⟨0, true⟩ st0).1 = false := by
  decide +kernel

/-- A stream with a transfer due, after its body and at a loop's end. -/
def flow (br : List (Nat × Nat)) (skip : Option Nat) : State :=
  strm (fun x => { x with brs := br, skip := skip, lc := [{ cnt := 2, start := 8, stop := 0, act := true }, {}] }) st0

theorem wit_BranchesLoopsAndTheNextFetch :
    (branchRow st0 (.brL g0 7 1)).isSome = true ∧ Issues g0 st0 ∧ Clean [] st0 ∧
    loopRow st0 (.loopi g0 1 0 3) = some (g0, [], 1, 0, 3, false) ∧ loopRow st0 (.loopi g0 0 8191 3) = some (g0, [], 0, 8191, 3, false) ∧
    (flow [(1, 40)] none).str.brs.find? (fun e => e.1 = 1) = some (1, 40) ∧
    (flow [(4, 40)] (some 20)).str.brs.find? (fun e => e.1 = 1) = none ∧ (flow [(4, 40)] (some 20)).str.skip = some 20 ∧
    (flow [] none).str.brs.find? (fun e => e.1 = 1) = none ∧ (flow [] none).str.skip = none ∧ (flow [] none).resident = true :=
  ⟨rfl, issues0, by unfold Clean; decide +kernel, rfl, rfl, by decide +kernel⟩

/-- The end word of a loop of count n, at address 0. -/
def loopEnd (vec : Bool) (n : Nat) : State :=
  strm (fun x => { x with lc := [{ cnt := BitVec.ofNat 32 n, start := 0, stop := 0, act := true, vec := vec, ord := 1 }, {}] }) st0

theorem wit_BranchesLoopsAndTheNextFetch_vector :
    (∀ e ∈ [(true, 2), (true, 1), (false, 2)], let s := loopEnd e.1 e.2
      s.resident = true ∧ (∀ b ∈ s.str.brs, 1 ≤ b.1) ∧ s.str.brs.find? (fun b => b.1 = 1) = none ∧ s.str.skip = none ∧
      repeatVec s.str.pc s.str.lc = (if e = (true, 2) then some 1 else none)) ∧
    loopRow st0 (.vloop g0 1 0 3) = some (g0, [0], 1, 0, 3, true) := by
  decide +kernel

/-! ### Semaphores, barriers, timelines -/

/-- A task whose semaphore 1 has count 1 and ceiling 2, with waiters. -/
def sem0 (w : List (Nat × Nat)) : State := st0.modTask fun t => { t with sems := t.sems.set 1 { cnt := 1, ceil := 2, waiters := w } }

theorem wit_SemaphoresTakeSignalTryAndRead :
    (∀ w ∈ [[], [(0, 1)], [(2, 1)]], Issues g0 (sem0 w)) ∧ (∀ w ∈ [[], [(0, 1)], [(2, 1)]], (sem0 w).task.sems[1]? = some { cnt := 1, ceil := 2, waiters := w }) ∧
    covered (sem0 []).str = true ∧ covered (strm (fun x => { x with sbuf := [{ seq := 0, cells := [], so := false, rel := false }] }) (sem0 [])).str = false ∧
    (1 ≤ 2 ∧ 3 > 2 ∧ 1 + 1 ≤ 2 ∧ 2 < 1 + 2 ∧ 1 < 2) ∧ st0.str.redo = false ∧ ({ cnt := 0 } : Sem).cnt = 0 ∧
    (∀ k ∈ [1, 2], let s := ev { k := 1 } (strm (fun x => { x with redo := true }) (sem0 [(0, k)])); let r := s.at s.arg.unit .s
      r.resident = true ∧ r.task.sems[s.arg.k]? = some { cnt := 1, ceil := 2, waiters := (StreamId.num .s, k) :: [] } ∧
      (r.at s.arg.unit .s).str.status = .running ∧ (r.at s.arg.unit .s).str.redo = true) := by
  unfold Issues
  decide +kernel

/-- A task of a gang with barrier 3 as its first, of two tasks, one of which has arrived. -/
def bar0 (mine : Option Nat) (ph : Nat) : State :=
  (on .s { task0 with bars := [3], mine := mine :: List.replicate 15 none }).modDie 0 fun d =>
    { d with gbars := [(3, { owner := 1, expected := 2, arrived := 1, phase := ph })] }

theorem wit_BarrierTimelineWaitsAndArmedActions_waits :
    (∀ s ∈ [bar0 none 0, bar0 (some 0) 0, bar0 (some 0) 1], Issues g0 s ∧ s.task.bars.length ≤ 1 ∧ 0 < s.task.bars.length) ∧
    (bar0 none 0).mine 0 ≠ some ((bar0 none 0).gbar 3).phase ∧ covered (bar0 none 0).str = true ∧ ((bar0 none 0).gbar 3).owner ≠ 0 ∧
    ((bar0 none 0).gbar 3).arrived + 1 = ((bar0 none 0).gbar 3).expected ∧ (bar0 none 0).str.redo = false ∧ ((bar0 none 0).task.mine[0]?).isSome = true ∧
    (bar0 (some 0) 0).mine 0 = some ((bar0 (some 0) 0).gbar 3).phase ∧ 0 < ((bar0 (some 0) 1).gbar 3).phase ∧
    (st0.reg 0).toNat ≤ (st0.tl 15).mark ∧ (st0.tl 15).mark < ((strm (fun x => { x with regs := x.regs.set 1 1 }) st0).reg 1).toNat := by
  unfold Issues
  decide +kernel

/-! ### Registers, counters, faults -/

/-- The machine with core counter 0 as its task's own, and register 1 naming counter 104. -/
def ec0 : State := strm (fun x => { x with regs := (x.regs.set 1 104).set 2 1 }) (st0.modCore 0 fun c => { c with ec := [(0, { kind := 2 })] })

theorem wit_ControlRegistersReadAndWrite :
    Issues g0 st0 ∧ (0x13F, 0) ∈ csr st0 ∧ (∃ v, (0x03A, v) ∈ csr st0) ∧ (0x150, 0) ∈ csr st0 ∧ Clean [63] st0 ∧ 2048 * st0.task.tagsel < ({ task0 with spadBytes := 1 } : Task).spadBytes := by
  refine ⟨issues0, by decide +kernel, ⟨_, by unfold csr; simp only [List.mem_append, List.mem_cons]; tauto⟩, by decide +kernel, by unfold Clean; decide +kernel, by decide +kernel⟩

theorem wit_CounterInstructionsAndTheirWallCycle :
    Issues g0 ec0 ∧ Clean [0, 1] ec0 ∧ ownsCounter ec0 (ec0.reg 0).toNat ∧ 103 < (ec0.reg 1).toNat ∧ (ec0.reg 2).toNat ≤ 103 ∧ ¬ ownsCounter ec0 (ec0.reg 2).toNat ∧
    ecAssigned ((ec0.reg 2).toNat % 256) = true ∧ ecInScope 0 ((ec0.reg 2).toNat % 256) = true ∧
    ({ value := 2 ^ 48 - 1 } : Ec).wraps = false ∧ ({ pend := [2 + (512 + 511)] } : Ec).wraps = false := by
  unfold Issues Clean ownsCounter
  decide +kernel

theorem wit_CounterInstructionsAndTheirWallCycle_refused :
    ownsCounter ec0 0 ∧ (∀ v ∈ [1023, 0], v < 2 ^ 10) ∧ ¬ (ecAssigned (1023 % 256) = true ∧ ecInScope 0 (1023 % 256) = true) ∧
    (let s := strm (fun x => { x with regs := x.regs.set 3 1024 }) ec0; Issues g0 s ∧ Clean [0, 3] s ∧ ownsCounter s (s.reg 0).toNat ∧ 2 ^ 10 ≤ (s.reg 3).toNat) ∧
    ({ value := 2 ^ 48 - 1, acc := 1, trap := true } : Ec).commit.wrapped = true := by
  unfold Issues Clean ownsCounter
  decide +kernel

/-- The machine with its task's gang asked for. -/
def asked0 : State := st0.modPart 0 0 fun p => { p with pm := 1 }

theorem wit_EndYieldArgumentsTrapAndAbort :
    Issues g0 st0 ∧ Issues g0 asked0 ∧ requested st0 = false ∧ requested asked0 = true ∧ Clean [1] st0 ∧ st0.task.alen < 8 * (st0.reg 1).toNat + 8 ∧
    8 * (st0.reg 1).toNat + 8 ≤ (on .s { task0 with alen := 8 }).task.alen ∧ (st0.task.str .v).status = .running := by
  unfold Issues Clean
  decide +kernel

/-- The page tables of a context whose first megabyte is mapped to itself, between two of which a record may stand: entries of
value `2^63 + 2` at 0x1000, `2^63 + 3` at 0x2000, `2^63 + 4` at 0x3000 and `2^63 + 2^62 + 2^58 + 2^57` at 0x4000. -/
def pageTables (l : List (Nat × Byte)) : List (Nat × Byte) :=
  [(256, 3), (263, 128), (519, 198)] ++ l ++ [(34359738368, 2), (34359738375, 128), (34359738624, 4), (34359738631, 128)]

/-- A machine with that context, its fault ring above the tables. -/
def paged : State := { st0 with mem := pageTables [], pkgs := [(0, { ctxs := [(0, 2 ^ 127 + 1 * 2 ^ 64 + 0x10000)] })] }

theorem wit_TakingAFaultStopsAndWritesTheRecord :
    paged.resident = true ∧ paged.poison = [] ∧
    (virtCells paged 0 0 (fld (ctxEntry paged 0 0) 55 0 + 64 * (recSeq paged 0 0 % 256)) (recordBytes .never { cls := 2 } paged)).isSome = true := by
  decide +kernel

/-! ### Memory -/

/-- The machine with a page of virtual address 0 in its stream's TLB. -/
def page0 (pte : Nat) (s : State) : State := strm (fun x => { x with utlb := [{ ctx := 0, vpn := 0, bits := 16, pte := pte }] }) s

/-- A plain page that may be written. -/
def mapped : State := page0 (2 ^ 57) st0

/-- Register 1 is 1. -/
def odd (s : State) : State := strm (fun x => { x with regs := x.regs.set 1 1 }) s

theorem wit_LoadsAskForAndSampleTheirBytes_issue :
    ∃ l, loadRow mapped (.ld g0 63 2 3 1 0) = some (l, True) ∧ Issues l.g mapped ∧ Clean l.src mapped ∧ l.addr % l.n = 0 ∧
      (∃ p, xlate l.addr (guardRead l.g mapped).2 = .page p ∧ pteCmp p.pte = false ∧ pteCf p.pte = false ∧ hasPlace mapped p.pa) ∧
      (∃ p, xlate l.addr (guardRead l.g (page0 (2 ^ 54) st0)).2 = .page p ∧ pteCmp p.pte = false ∧ pteCf p.pte = true) ∧
      ∃ m, loadRow (odd mapped) (.ld g0 63 1 1 1 0) = some (m, True) ∧ m.addr % m.n ≠ 0 :=
  ⟨_, rfl, And.intro (by decide +kernel) (by decide +kernel), by unfold Clean; decide +kernel, by decide +kernel,
    ⟨_, rfl, by decide +kernel, by decide +kernel, by unfold hasPlace; decide +kernel⟩, ⟨_, rfl, by decide +kernel, by decide +kernel⟩, _, rfl, by decide +kernel⟩

/-- A load of register 5 that has asked for its bytes, and the event that brings them. -/
def loading (how : LoadHow) (before : List Flight) : State :=
  ev { k := 7 } (strm (fun x => { x with
    flights := before ++ [{ due := 4, iss := 0, seq := 7, land := .none, req := some { addrs := List.range 8, how := how }, wait := 3 }] }) st0)

/-- An atomic before it. -/
def earlier : List Flight :=
  [{ due := 4, iss := 0, seq := 6, land := .none, req := some { addrs := List.range 8, how := .atomic 0 5 8 1 0 }, wait := 3 }]

/-- No table runs in a channel of memory: it serves every access (R295). -/
theorem served (s : State) (a : Nat) (h : s.chans = []) : Served s a := by
  intro n
  unfold chanBusy meetsTable
  simp [State.chan, h, tabGet, Chan.replays]

theorem wit_LoadsAskForAndSampleTheirBytes_arrival :
    (∀ b ∈ [[], earlier], let s := loading (.reg 5 8 true) b
      (asNamed s).resident = true ∧ s.arg.st ≠ .m ∧ Plain (asNamed s) (List.range 8) ∧ s.poison = [] ∧
      ∃ f r, (asNamed s).str.flights.find? (fun f => f.seq = s.arg.k) = some f ∧ f.req = some r ∧ r.how = .reg 5 8 true ∧ r.hard = false ∧
        r.addrs = List.range 8 ∧ maySample (asNamed s).str f r = decide (b = [])) := by
  intro b hb
  rcases List.mem_cons.1 hb with rfl | hb
  · exact ⟨by decide +kernel, by decide, ⟨by decide +kernel, fun a ha => ⟨by revert a; decide +kernel, served _ _ rfl⟩⟩, by decide, _, _, rfl, rfl, rfl, by decide +kernel⟩
  · obtain rfl := List.mem_singleton.1 hb
    exact ⟨by decide +kernel, by decide, ⟨by decide +kernel, fun a ha => ⟨by revert a; decide +kernel, served _ _ rfl⟩⟩, by decide, _, _, rfl, rfl, rfl, by decide +kernel⟩

theorem wit_AtomicsAndScratchpadAccesses :
    atomicRow (.amCasD g0 5 1 0 0) = some (g0, 2, 8, 5, 1, 0) ∧ Issues g0 mapped ∧ Clean [5, 6, 1] mapped ∧ (mapped.reg 1).toNat % 8 = 0 ∧
    (∃ p, xlate (mapped.reg 1).toNat (guardRead g0 mapped).2 = .page p ∧ refusedBy p = none ∧ hasPlace mapped p.pa) ∧
    (∃ f r, (asNamed (loading (.atomic 2 5 8 0 1) [])).str.flights.find? (fun f => f.seq = 7) = some f ∧ f.req = some r ∧ r.how = .atomic 2 5 8 0 1 ∧
      r.addrs = (List.range 8).map (0 + ·) ∧ maySample (asNamed (loading (.atomic 2 5 8 0 1) [])).str f r = true ∧
      r.hard = false ∧ (asNamed (loading (.atomic 2 5 8 0 1) [])).resident = true ∧ allReached (asNamed (loading (.atomic 2 5 8 0 1) [])) r.addrs = true) ∧
    st0.poison = [] ∧ addrOf st0 1 3 0 % 2 ^ 3 = 0 ∧ addrOf st0 1 3 0 + 2 ^ 3 ≤ ({ task0 with spadBytes := 8 } : Task).spadBytes ∧
    addrOf (odd st0) 1 3 0 % 2 ^ 3 ≠ 0 ∧ st0.task.spadBytes < addrOf st0 1 3 0 + 2 ^ 3 :=
  ⟨rfl, And.intro (by decide +kernel) (by decide +kernel), by unfold Clean; decide +kernel, by decide +kernel,
    ⟨_, rfl, by decide +kernel, by unfold hasPlace; decide +kernel⟩, ⟨_, _, rfl, rfl, rfl, rfl, by decide +kernel⟩, by decide +kernel⟩

/-- A stream whose store buffer holds n stores. -/
def stores (n : Nat) (s : State) : State :=
  strm (fun x => { x with sbuf := (List.range n).map fun i => { seq := i, cells := [(8 * i, 1)], so := false, rel := false } }) s

theorem wit_StoresEnterTheStoreBuffer :
    storeRow mapped (.st g0 5 1 3 0) = some (g0, [5, 1], 0, 8, 0, false) ∧ Issues g0 mapped ∧ Clean [5, 1] mapped ∧ 16 ≤ (stores 16 mapped).str.sbuf.length ∧
    (stores 15 mapped).str.sbuf.length < 16 ∧ addrOf (odd mapped) 1 3 0 % 8 ≠ 0 ∧
    (∃ p, xlate 0 (guardRead g0 mapped).2 = .page p ∧ refusedBy p = none ∧ hasPlace mapped p.pa) ∧
    (∃ p, xlate 0 (guardRead g0 (page0 0 st0)).2 = .page p ∧ refusedBy p = some 9) :=
  ⟨rfl, And.intro (by decide +kernel) (by decide +kernel), by unfold Clean; decide +kernel, by decide +kernel, by decide +kernel, by decide +kernel,
    ⟨_, rfl, by decide +kernel, by unfold hasPlace; decide +kernel⟩, ⟨_, rfl, by decide +kernel⟩⟩

/-- A release in the buffer that an earlier load holds back. -/
def heldRelease : State := strm (fun x => { x with sbuf := [{ seq := 8, cells := [(0, 1)], so := false, rel := true }] }) (loading (.reg 5 8 true) [])

theorem wit_MemoryHoldsWhatStoresDrain :
    (∀ s ∈ [stores 1 st0, heldRelease], (asNamed s).resident = true ∧ ∀ e ∈ (asNamed s).str.sbuf, storeHeld (asNamed s) e = false ∧ Plain (asNamed s) (e.cells.map Prod.fst)) ∧
    (∃ e ∈ (asNamed (stores 1 st0)).str.sbuf, mayDrain (asNamed (stores 1 st0)).str e = true) ∧ (stores 1 st0).poison = [] ∧
    (asNamed heldRelease).str.sbuf ≠ [] ∧ (∀ e ∈ (asNamed heldRelease).str.sbuf, mayDrain (asNamed heldRelease).str e = false) ∧
    ([(0, 1), (2 ^ 40 - 1, 2)].map fun c : Nat × Byte => placeOf st0 c.1).Nodup ∧ regionOf ((2 ^ 40 - 1) % 2 ^ 45) = .hbm ∧ linGiB st0 0 15 ≤ 64 := by
  refine ⟨?_, by decide +kernel, by decide, by decide +kernel, by decide +kernel, by decide +kernel⟩
  intro s hs
  rcases List.mem_cons.1 hs with rfl | hs
  · refine ⟨by decide +kernel, fun e he => ?_⟩
    obtain rfl : e = { seq := 0, cells := [(0, 1)], so := false, rel := false } := by revert e; decide +kernel
    exact ⟨by decide +kernel, by decide +kernel, fun a ha => ⟨by revert a; decide +kernel, served _ _ rfl⟩⟩
  · obtain rfl := List.mem_singleton.1 hs
    refine ⟨by decide +kernel, fun e he => ?_⟩
    obtain rfl : e = { seq := 8, cells := [(0, 1)], so := false, rel := true } := by revert e; decide +kernel
    exact ⟨by decide +kernel, by decide +kernel, fun a ha => ⟨by revert a; decide +kernel, served _ _ rfl⟩⟩

theorem wit_FencesAndSequentiallyConsistentAccesses :
    Issues g0 st0 ∧ loadsDone st0.str = true ∧ loadsDone (loading (.reg 5 8 true) []).str = false ∧ (stores 1 st0).str.sbuf ≠ [] ∧
    (let s := mapped.modTask fun t => { t with pkgHours := [0, 5] }
     Issues g0 s ∧ Clean [5, 1] s ∧ s.task.hours false ≠ [] ∧ s.str.redo = false ∧ scReady s false = true ∧ refusedBy ⟨2 ^ 57, 0, 16⟩ = none ∧
     xlate 0 (guardRead g0 s).2 = .page ⟨2 ^ 57, 0, 16⟩ ∧ hasPlace s 0 ∧ plainAt s 0 = true ∧ scTurn (scIssue false (guardRead g0 s).2) = true ∧ (s.task.hours false).contains (hourOf false ({ s with tick := 1 } : State).tick) = false) ∧
    st0.task.hours true = [] := by
  unfold Issues Clean hasPlace
  decide +kernel

/-! ### Vector and matrix work -/

/-- A stream register of FP32 elements at a scratchpad address, stride 1 (R153). -/
def qw (base count lane : Nat) : QWord := BitVec.ofNat 128 (base + 2 ^ 19 + count * 2 ^ 35 + lane * 2 ^ 84)

/-- An operand descriptor of a scratchpad tile (R181): format, lane, rows, columns, row stride, base. -/
def dd (fmt lane rows cols rstride base : Nat) : DWord :=
  BitVec.ofNat 256 (fmt * 2 ^ 250 + lane * 2 ^ 226 + rows * 2 ^ 210 + cols * 2 ^ 194 + rstride * 2 ^ 168 + base)

/-- A task with scratchpad, three streams of elements and three tiles. -/
def work (k : StreamId) (n : Nat) : State :=
  on k { task0 with
    spadBytes := 8192, q := [qw 0 n 0, qw 2048 n 2, qw 4096 n 4] ++ List.replicate 29 0
    d := [dd 1 8 1 2 0 0, dd 1 9 2 1 64 64, dd 0 10 1 32 0 2048] ++ List.replicate 5 0 }

/-- An instruction under way. -/
def busy (o : Occ) (s : State) : State := strm (fun x => { x with occ := some o }) s

theorem wit_VectorInstructionsIssueTheirFirstBeat :
    ∃ r, vRow (.vadd g0 0 1 2) = some r ∧ ∀ n ∈ [0, 1, 100], (work .v n).resident = true ∧ (work .v n).str.occ = none ∧ (guardRead r.g (work .v n)).1 = true ∧
      (work .v n).poison = [] ∧ vChecks r.ask (work .v n).curCore (work .v n).task.spadBytes (r.n ((r.regs.map (work .v n).qreg).map qFields)) ((r.regs.map (work .v n).qreg).map qFields) = none :=
  ⟨_, rfl, by decide +kernel⟩

/-- The occupancy of a vector instruction: step and beat of three. -/
def beats (step beat : Nat) : Occ := { ins := .vadd g0 0 1 2, beat := beat, total := 3, step := step, qs := [qw 0 100 0, qw 2048 100 2, qw 4096 100 4] }

theorem wit_VectorBeatsAndFailedChecks :
    ∃ r, vRow (.vadd g0 0 1 2) = some r ∧ (∀ e ∈ [(1, 1), (1, 2), (2, 1), (2, 2)], (busy (beats e.1 e.2) (work .v 100)).resident = true ∧
      (busy (beats e.1 e.2) (work .v 100)).str.occ = some (beats e.1 e.2) ∧ (busy (beats e.1 e.2) (work .v 100)).poison = []) ∧ (beats 1 1).go = true ∧
      (beats 1 1).beat % 1 = 0 ∧ (beats 2 1).beat % 2 ≠ 0 ∧ ¬ 3 ≤ (beats 2 1).beat + 1 ∧ ({ beats 2 1 with total := 2 } : Occ).total ≤ (beats 2 1).beat + 1 ∧
      (guardRead ⟨0, true⟩ (work .v 1)).1 = false ∧
      (vChecks r.ask (work .v 4000).curCore (work .v 4000).task.spadBytes (r.n ((r.regs.map (work .v 4000).qreg).map qFields)) ((r.regs.map (work .v 4000).qreg).map qFields)).isSome = true :=
  ⟨_, rfl, by decide +kernel⟩

/-- The V stream with a page of virtual address 0 and n elements of 4 bytes. -/
def vpage (n pte : Nat) : State := page0 pte (work .v n)

/-- A `vld` or `vst` of n elements at a beat, with the translations that its issue found, and stores in its buffer. -/
def vlater (n beat held : Nat) : State :=
  strm (fun x => { x with got := [{ ctx := 0, vpn := 0, bits := 16, pte := 2 ^ 57 }] })
    (stores held (busy { ins := .vld g0 0 1 0, beat := beat, total := max 1 ((4 * n + 127) / 128), qs := [qw 0 n 0], addr := 0 } (work .v n)))

/-- The pages of a footprint serve it where each of its bytes has one that does. -/
theorem serves (l : List TlbEnt) (store : Bool) (s : State) (va n : Nat)
    (h : (pagesOf va n ++ bytesFrom va n).all (fun v => (pageIn l s v).any fun p => !pteCmp p.pte && (!store || (pteW p.pte && !pteCf p.pte))) = true)
    (hr : s.curCore.remote ≤ 62) : PagesServe l store s va n := by
  refine ⟨fun v hv => ?_, .inr hr⟩
  have hm : v ∈ pagesOf va n ++ bytesFrom va n := by
    rcases hv with hv | hv
    · exact List.mem_append_left _ hv
    · refine List.mem_append_right _ ?_
      unfold bytesFrom
      exact List.mem_map.2 ⟨v - va, List.mem_range.2 (by omega), by omega⟩
  have := List.all_eq_true.1 h v hm
  revert this
  cases hp : pageIn l s v with
  | none => intro h; simp at h
  | some p =>
    intro h
    refine ⟨p, rfl, ?_⟩
    cases store <;> simp_all

/-- One translation agrees with itself. -/
theorem onePage (e : TlbEnt) (s : State) (h : 16 ≤ e.bits) : OnePage [e] s := by
  intro x hx
  obtain rfl := List.mem_singleton.1 hx
  refine ⟨h, fun f hf _ _ _ => ?_⟩
  exact (List.mem_singleton.1 hf).symm

/-- An empty store buffer merges nothing. -/
theorem noMerge (l : List TlbEnt) (s : State) (va n : Nat) (h : s.str.sbuf = []) : NoMerge l s va n := by
  intro e he
  rw [h] at he
  simp at he

theorem wit_VectorMemoryAndStreamRegisters_issue :
    (∃ x, qRow (work .v 1) (.vadvq g0 31 1 2) = some x ∧ Clean x.2.1 (work .v 1) ∧ ∀ r ∈ qReads (work .v 1) (.vadvq g0 31 1 2), ErrLoc.file 0 0 r ∉ (work .v 1).poison) ∧
    ∀ n ∈ [0, 16, 33], let s := vpage n (2 ^ 57); let d := qFields (s.qreg 0)
     Issues g0 s ∧ s.str.occ = none ∧ s.str.frozen = none ∧ s.poison = [] ∧ s.str.got = [] ∧
     vChecks { ok := fun fs => fs.all (· != .int4) } s.curCore s.task.spadBytes d.nbytes [{ d with tc := false }] = none ∧ (s.reg 1).toNat % 64 = 0 ∧
     d.nbytes = 4 * n ∧ (s.reg 1).toNat + d.nbytes ≤ 2 ^ 56 ∧ s.str.sbuf = [] ∧
     (∀ store, PagesServe s.utlb store s (s.reg 1).toNat d.nbytes) ∧ OnePage s.utlb s ∧ NoMerge s.utlb s (s.reg 1).toNat d.nbytes := by
  refine ⟨⟨_, rfl, by unfold Clean; decide +kernel, by decide +kernel⟩, ?_⟩
  intro n hn
  have h : n = 0 ∨ n = 16 ∨ n = 33 := by simpa using hn
  rcases h with rfl | rfl | rfl <;>
    exact ⟨And.intro (by decide +kernel) (by decide +kernel), by decide +kernel, by decide +kernel, by decide +kernel, by decide +kernel, by decide +kernel,
      by decide +kernel, by decide +kernel, by decide +kernel, by decide +kernel,
      fun store => by cases store <;> exact serves _ _ _ _ _ (by decide +kernel) (by decide +kernel), onePage _ _ (by decide), noMerge _ _ _ _ rfl⟩

theorem wit_VectorMemoryAndStreamRegisters_beats :
    (∀ e ∈ [(1, 0), (1, 16), (0, 14)], let s := vlater 33 e.1 e.2
     s.resident = true ∧ (∃ o, s.str.occ = some o ∧ o.go = true ∧ o.qs = [qw 0 33 0] ∧ o.beat * 128 < (qFields (qw 0 33 0)).nbytes ∧ o.addr % 64 = 0 ∧
       o.addr + (qFields (qw 0 33 0)).nbytes ≤ 2 ^ 56 ∧ ∀ store, PagesServe s.str.got store s o.addr (qFields (qw 0 33 0)).nbytes) ∧
     s.str.frozen = none ∧ s.poison = [] ∧ OnePage s.str.got s ∧ s.str.sbuf.length = e.2) ∧
    NoMerge (vlater 33 1 0).str.got (vlater 33 1 0) 0 132 ∧
    (guardRead ⟨0, true⟩ (vpage 1 0)).1 = false ∧ (busy { beats 1 1 with go := false } (work .v 1)).str.occ = some { beats 1 1 with go := false } ∧
    (∃ o, (vlater 33 2 0).str.occ = some o ∧ (qFields (qw 0 33 0)).nbytes ≤ o.beat * 128 ∧
      ∀ v ∈ pagesOf o.addr (qFields (qw 0 33 0)).nbytes, (gotXlate (vlater 33 2 0) v).isSome = true) := by
  refine ⟨?_, noMerge _ _ _ _ rfl, by decide +kernel, by decide +kernel, _, rfl, by decide +kernel, by decide +kernel⟩
  intro e he
  have h : e = (1, 0) ∨ e = (1, 16) ∨ e = (0, 14) := by simpa using he
  rcases h with rfl | rfl | rfl <;>
    exact ⟨by decide +kernel, ⟨_, rfl, rfl, rfl, by decide +kernel, by decide +kernel, by decide +kernel,
      fun store => by cases store <;> exact serves _ _ _ _ _ (by decide +kernel) (by decide +kernel)⟩, by decide +kernel, by decide +kernel,
      onePage _ _ (by decide), by decide +kernel⟩

/-- A product under way, at a beat between two groups. -/
def folding (beat : Nat) : State := busy { ins := .mmMac 0 0 1 0, beat := beat, total := 32, ds := [dd 1 8 1 2 0 0, dd 1 9 2 1 64 64, 0, 0], tile := List.replicate 1024 0 } (work .m 1)

theorem wit_MatrixProductsFoldAndLand :
    (∃ x, prodChecks (work .m 1) 0 ((work .m 1).dreg 0) ((work .m 1).dreg 1) (tileEntry (work .m 1) ((work .m 1).dreg 0)) (tileEntry (work .m 1) ((work .m 1).dreg 1)) = .ok x ∧
      x.a.kind = 0 ∧ x.b.kind = 0) ∧ (work .m 1).resident = true ∧ (work .m 1).str.occ = none ∧ (work .m 1).poison = [] ∧ arrayHeld (work .m 1).task = false ∧
    shadows (work .m 1).task < 8 ∧
    (let x := prodOf (resolveD 0 (dd 1 8 1 2 0 0) 0) (resolveD 0 (dd 1 9 2 1 64 64) 0) 0
     1 % x.p ≠ 0 ∧ 31 % x.p ≠ 0 ∧ 1 + 1 < 32 ∧ 32 ≤ 31 + 1 ∧ 0 % x.p = 0 ∧ 0 + 1 < 32 ∧ x.a.kind = 0 ∧ x.b.kind = 0) ∧ (folding 1).str.occ.isSome = true ∧ (folding 31).resident = true :=
  ⟨⟨_, by rfl, by decide +kernel⟩, by decide +kernel⟩

theorem wit_TileInstructions :
    (work .m 1).resident = true ∧ (work .m 1).poison = [] ∧ shadows (work .m 1).task < 8 ∧
    8 ≤ shadows (strm (fun x => { x with flights := List.replicate 8 { due := 9, iss := 0, seq := 0, land := .none, shadow := true } }) (work .m 1)).task ∧
    510 % 2 = 0 ∧ 510 * 16 + 32 ≤ (work .m 1).task.spadBytes ∧ (work .m 1).task.spadBytes < 512 * 16 + 32 ∧ arrayHeld (work .m 1).task = false ∧
    (match ldaccChecks (work .m 1) ((work .m 1).dreg 2) with | .ok d => d.kind = 0 ∧ 1 < d.rows * d.ef.bytes / 2 | .error _ => False) ∧
    drainFmt 0 = some .fp32 ∧ (match drainChecks (work .m 1) .fp32 ((work .m 1).dreg 2) with | .ok d => d.kind = 0 | .error _ => False) := by
  refine ⟨by decide +kernel, by decide +kernel, by decide +kernel, by decide +kernel, by decide, by decide +kernel, by decide +kernel, by decide +kernel, ?_, rfl, ?_⟩
  · exact And.intro (by decide +kernel) (by decide +kernel)
  · exact (rfl : (dFields (dd 0 10 1 32 0 2048).toNat).kind = 0)

/-- A tile load or drain under way, at a beat of 32. -/
def tileCycle (i : Instr) (beat : Nat) : State := busy { ins := i, beat := beat, total := 32, ds := [dd 0 10 1 32 0 2048], tile := List.replicate 1024 0 } (work .m 1)

theorem wit_TileInstructions_cycles :
    (∀ i ∈ [Instr.mmLdacc 0 2, .mmDrain 0 2 0 0], ∀ beat ∈ [1, 31], ∃ o, (tileCycle i beat).str.occ = some o ∧ (o.ds.headD 0).toNat / 2 ^ 254 = 0 ∧
      o.tile.length = 1024 ∧ (tileCycle i beat).resident = true ∧ (tileCycle i beat).poison = [] ∧ (tileCycle i beat).str.frozen = none) ∧
    drainFmt 0 = some .fp32 ∧ (work .m 1).str.frozen = none ∧ (work .m 1).str.redo = false := by
  refine ⟨fun i hi beat hb => ⟨_, rfl, ?_⟩, rfl, by decide +kernel, by decide +kernel⟩
  simp only [List.mem_cons, List.not_mem_nil, or_false] at hi hb
  rcases hi with rfl | rfl <;> rcases hb with rfl | rfl <;> decide +kernel

/-! ### Copies, leases, arming, near memory, page manager -/

/-- Double-words written into core 0's scratchpad. -/
def poke (a : Nat) (dws : List Nat) (s : State) : State :=
  s.modCore 0 fun c => c.spadWrite ((dws.flatMap (toBytes 8)).zipIdx.map fun e => (a + e.2, BitVec.ofNat 8 e.1))

/-- The C stream with a block of eight double-words at scratchpad address 0, of as many bytes. -/
def stc (dws : List Nat) : State := poke 0 ((dws ++ List.replicate 8 0).take 8) (on .c { task0 with spadBytes := 8192 })

/-- Registers 1 and 2 set. -/
def regs12 (a b : Nat) (s : State) : State := strm (fun x => { x with regs := (x.regs.set 1 (BitVec.ofNat 64 a)).set 2 (BitVec.ofNat 64 b) }) s

/-- A copy of 64 bytes within the scratchpad to an address. -/
def copying (dst : Nat) : State := stc [2 ^ 56, 2 ^ 56 + dst, 64]

theorem wit_CopyInstructions_issue :
    copyRow (.cp1d 3 0 2) = some (0, 3, 0, 2) ∧ (∀ a ∈ [64, 8192 - 63], (copying a).resident = true ∧ (copying a).poison = [] ∧ (copying a).task.ch[3]? = some { tl := 3 } ∧
      (copying a).task.tls[3]? = some { count := 0 } ∧ ((copying a).reg 0).toNat / 2 ^ 19 % 2 ^ 13 = 0 ∧ ((copying a).reg 0).toNat / 2 ^ 48 = 0 ∧
      ((copying a).reg 0).toNat % 2 ^ 19 % 64 = 0 ∧ ((copying a).reg 0).toNat % 2 ^ 19 + 64 ≤ (copying a).task.spadBytes ∧ (copyOf (copying a) 0 0 2).reason = none ∧
      (copyOf (copying a) 0 0 2).listLeaves 8192 = false ∧ (copyOf (copying a) 0 0 2).kind false = 1 ∧ (copyOf (copying a) 0 0 2).kind true = 1) ∧
    (copyOf (stc [2 ^ 63]) 0 0 2).reason = some 1 ∧ ((regs12 (2 ^ 48) 0 (copying 64)).reg 1).toNat / 2 ^ 48 ≠ 0 := by
  decide +kernel

theorem wit_CopyInstructions_walk :
    InsideSpad (copyOf (copying 64) 0 0 2) false 8192 ∧ InsideSpad (copyOf (copying 64) 0 0 2) true 8192 ∧ ¬ InsideSpad (copyOf (copying (8192 - 63)) 0 0 2) true 8192 := by
  have h1 : ∀ d, (copyOf (copying 64) 0 0 2).start d = (if d then 64 else 0) ∧ (copyOf (copying 64) 0 0 2).half 4 d = 0 ∧ (copyOf (copying 64) 0 0 2).half 3 d = 0 := by
    decide +kernel
  have h2 : (copyOf (copying 64) 0 0 2).n0 = 64 := by decide +kernel
  refine ⟨fun _ _ _ i2 i1 o _ _ ho => ?_, fun _ _ _ i2 i1 o _ _ ho => ?_, fun h => ?_⟩
  · rw [h2] at ho
    obtain ⟨hs, h4, h3⟩ := h1 false
    rw [hs, h4, h3]
    simp
    omega
  · rw [h2] at ho
    obtain ⟨hs, h4, h3⟩ := h1 true
    rw [hs, h4, h3]
    simp
    omega
  · have := h (by decide +kernel) (by decide +kernel) (by decide +kernel) 0 0 63 (by decide +kernel) (by decide +kernel) (by decide +kernel)
    exact absurd this.2 (by decide +kernel)

/-- A channel with one copy under way. -/
def queued (fn : Nat) : State := (copying 64).modTask fun t => { t with ch := t.ch.set 3 { tl := 3, last := 1, q := [{ num := 1, tl := 3, fn := fn }] } }

theorem wit_CopyInstructions_channel :
    (∀ s ∈ [copying 64, queued 0, queued 11], s.resident = true ∧ s.poison = [] ∧ (∃ x, s.task.ch[3]? = some x ∧ x.q.length < 16 ∧ ∀ c ∈ x.q, c.tl < s.task.tls.length) ∧
      (s.reg 1).toNat / 2 ^ 19 = 0 ∧ (s.reg 1).toNat % 64 = 0 ∧ (s.reg 1).toNat + 64 ≤ s.task.spadBytes ∧ (s.reg 2).toNat / 2 ^ 6 = 0) := by
  intro s hs
  simp only [List.mem_cons, List.not_mem_nil, or_false] at hs
  rcases hs with rfl | rfl | rfl <;> exact ⟨by decide +kernel, by decide +kernel, ⟨_, rfl, by decide +kernel, by decide +kernel⟩, by decide +kernel⟩

/-- The C stream of the context whose first megabyte is mapped, with a lease of its context at handle 0. -/
def leasing (a b : Nat) (l : List (Nat × Lease)) : State := regs12 a b { paged with cur := { st := .c }, dies := if l = [] then [] else [(0, { leases := l })] }

/-- A lease of one megabyte. -/
def lease0 : Lease := { ctx := 0, base := 0, size := 1, frames := [], units := [], expiry := 1 }

theorem leasing_pages : ∀ k, k < 16 → LeasePage (leasing 0 (1 + 2 ^ 16) []) (0 + k * 2 ^ 16) (((List.range 16).map (· * 2 ^ 16)).getD k 0) := by
  intro k hk
  have hw : ∀ j < 16, coreXlate (leasing 0 (1 + 2 ^ 16) []) 0 0 (0 + j * 2 ^ 16) = .ok ⟨2 ^ 63 + 2 ^ 62 + 2 ^ 58 + 2 ^ 57, j * 2 ^ 16, 21⟩ := by decide +kernel
  have hp : ∀ j < 16, j * 2 ^ 16 / 2 ^ 45 = 0 ∧ j * 2 ^ 16 % 2 ^ 45 < hbmTop ∧ j * 2 ^ 16 % 2 ^ 45 / 2 ^ 36 / 2 = 0 ∧ ((List.range 16).map (· * 2 ^ 16)).getD j 0 = j * 2 ^ 16 := by
    decide +kernel
  have hq : pteCf (2 ^ 63 + 2 ^ 62 + 2 ^ 58 + 2 ^ 57) = false ∧ pteCmp (2 ^ 63 + 2 ^ 62 + 2 ^ 58 + 2 ^ 57) = false ∧ pteCache (2 ^ 63 + 2 ^ 62 + 2 ^ 58 + 2 ^ 57) ≠ 0 := by decide
  exact ⟨_, hw k hk, hq.1, hq.2.1, hq.2.2, (hp k hk).1, (hp k hk).2.1, (hp k hk).2.2.1, (hp k hk).2.2.2⟩

theorem wit_LeaseInstructionsActOnTheDie :
    (let s := leasing 0 (1 + 2 ^ 16) []
     s.resident = true ∧ s.poison = [] ∧ s.lease 0 0 = none ∧ 1 ≤ ((List.range 16).map (freeUnits s 0)).sum ∧ (s.reg 1).toNat % 2 ^ 16 = 0 ∧
     (s.reg 2).toNat % 2 ^ 6 = 1 ∧ (s.reg 2).toNat / 2 ^ 16 ≠ 0 ∧ (s.reg 2).toNat / 2 ^ 6 % 2 ^ 10 = 0 ∧ ((List.range 16).map (· * 2 ^ 16)).length = 16 * 1) ∧
    ((leasing 0 0 []).reg 2).toNat % 2 ^ 6 = 0 ∧ Holds (leasing 0 1 [(0, lease0)]) 0 lease0 ∧ ((leasing 0 1 [(0, lease0)]).reg 2).toNat ≠ 0 ∧
    (leasing 0 1 []).lease 0 (((leasing 0 1 []).reg 1).toNat % 64) = none := by
  unfold Holds
  decide +kernel

theorem wit_SliceDotMaintenanceAndPrefetch :
    (copying 64).resident = true ∧ (copying 64).poison = [] ∧ (copying 64).task.tls[15]? = some { count := 0 } ∧ ((copying 64).reg 0).toNat % 64 = 0 ∧
    ((regs12 1 (2 ^ 32) (copying 64)).reg 1).toNat % 64 ≠ 0 ∧ maintainRow (.l2InvL1 15 1 2) = some (false, true, 15, 1, 2) ∧
    ((regs12 0 (2 ^ 32 - 1) (copying 64)).reg 2).toNat < 2 ^ 32 ∧ 2 ^ 32 ≤ ((regs12 1 (2 ^ 32) (copying 64)).reg 2).toNat := by
  decide +kernel

/-- A pool of n armed actions. -/
def armed (n : Nat) (s : State) : State := s.modTask fun t => { t with armed := List.replicate n { tl := 0, thr := 9, kind := .trig 0, late := false, seq := 0 } }

theorem wit_BarrierTimelineWaitsAndArmedActions_arming :
    (∀ n ∈ [31, 32], (armed n (page0 (2 ^ 57) (copying 64))).resident = true ∧ (armed n (copying 64)).poison = [] ∧ (armed n (copying 64)).task.armed.length = n) ∧
    (let w := 63 + 2 ^ 16
     w / 2 ^ 16 % 2 ^ 10 ≠ 0 ∧ w / 2 ^ 6 % 2 ^ 10 = 0 ∧ w / 2 ^ 26 = 0) ∧ ((regs12 0 1 (copying 64)).reg 2).toNat % 8 ≠ 0 ∧
    ((copying 64).reg 2).toNat % 8 = 0 ∧ xlate 0 (page0 (2 ^ 57) (copying 64)) = .page ⟨2 ^ 57, 0, 16⟩ ∧ refusedBy ⟨2 ^ 57, 0, 16⟩ = none ∧
    xlate 0 (page0 0 (copying 64)) = .page ⟨0, 0, 16⟩ ∧ refusedBy ⟨0, 0, 16⟩ = some 9 := by
  decide +kernel

/-- `nm.start` of channel 0: one pass, format BF16, one lane. -/
def starting : State := (stc [2 ^ 16, 0, 1 + 2 ^ 16 + 2 ^ 32, 0, 0, 0]).modChan 0 fun c => { c with state := 1, table := [0] }

theorem wit_NearMemoryOperationsAreAccepted :
    nmRow (.nmStart 15 1) = some (0, 15, 1) ∧ nmRow (.nmQbc 15 1) = some (2, 15, 1) ∧
    (let s := stc [2 ^ 16, 2 ^ 56 + 7680, 0]
     s.resident = true ∧ s.poison = [] ∧ s.task.tls[15]? = some { count := 0 } ∧ BlockReg s 1 ∧ nmReason s 2 (blockAt s (s.reg 1).toNat) = none ∧
     (nmSpan 2 (blockAt s (s.reg 1).toNat)).1 % 2 ^ 19 + (nmSpan 2 (blockAt s (s.reg 1).toNat)).2 ≤ s.task.spadBytes) ∧
    BlockReg starting 1 ∧ nmReason starting 0 (blockAt starting (starting.reg 1).toNat) = none ∧ (starting.chan 0).state = 1 ∧ (starting.chan 0).held = false ∧
    (∃ r, nmReason (stc []) 0 (blockAt (stc []) ((stc []).reg 1).toNat) = some r) ∧ ((regs12 (2 ^ 19) 0 (stc [])).reg 1).toNat / 2 ^ 19 ≠ 0 := by
  unfold BlockReg
  refine ⟨rfl, rfl, by decide +kernel, by decide +kernel, by decide +kernel, by decide +kernel, by decide +kernel, ⟨_, by rfl⟩, by decide +kernel⟩

/-- The C stream at a page, with its channel waiting for a command of bank 0. -/
def fenced (pte : Nat) (fl : List BFlight) : State := page0 pte ((copying 64).modChan 0 fun c => { c with state := 2, seq := 1, flights := fl })

/-- A bank command's result in flight. -/
def bankFlight : BFlight := { due := 9, seq := 0, os := 0, bank := 0, land := .out 0 [] }

theorem wit_NearMemoryFencesRatioAndStatus :
    (∀ l ∈ [[], [bankFlight]], (fenced 0 l).resident = true ∧ (fenced 0 l).poison = [] ∧ xlate ((fenced 0 l).reg 1).toNat (fenced 0 l) = .page ⟨0, 0, 16⟩ ∧
      (fenced 0 l).str.sbuf = [] ∧ (fenced 0 l).str.phase = 0 ∧ (decide (∃ f ∈ ((fenced 0 l).chan 0).flights, f.seq < 1 ∧ (false = true ∨ f.bank = 0)) = !l.isEmpty)) ∧
    pteCf 0 = false ∧ (stores 1 (fenced 0 [])).str.sbuf ≠ [] ∧ xlate 0 (fenced (2 ^ 29) []) = .page ⟨2 ^ 29, 2 ^ 45, 16⟩ ∧ 2 ^ 45 / 2 ^ 45 ≠ pkgOf 0 ∧
    pteCmp (2 ^ 55) = true ∧ xlate 0 (fenced (2 ^ 55) []) = .page ⟨2 ^ 55, 0, 16⟩ ∧ chanMine (copying 64) 511 = true ∧ chanMine { copying 64 with pkgs := [(0, { ptMode := 1 })] } 511 = false := by
  decide +kernel

/-- The sequence 0 of package 0 with a page manager that is on. -/
def kv0 : State := { copying 64 with pkgs := [(0, { kvEn := true, seqs := [(0, { sink := 0, win := 1, holders := [0], area := 0, frames := [], ents := [(0, { state := 3 })] })] })] }

theorem wit_KvOperationsSendReplyAndGiveValues_send :
    (∃ k, askRow (copying 64) (.kvFree 5 1) = some (k, True) ∧ (copying 64).curCore.remote + askedAt (copying 64) k.ids ≤ 64 ∧
      64 < ((copying 64).modCore 0 fun c => { c with remote := 65 }).curCore.remote) ∧ (copying 64).resident = true ∧ (copying 64).poison = [] ∧ BlockReg (copying 64) 1 :=
  ⟨⟨_, rfl, by decide +kernel, by decide +kernel⟩, by decide +kernel, by decide +kernel, by unfold BlockReg; decide +kernel⟩

/-- A `kv` operation sent, behind a store or not. -/
def kvSent (n : Nat) : State :=
  let op : KvOp := { ins := .kvFree 5 1, za := 0, zb := 0, blk := [], core := 0, task := 0, fseq := 4, seq := 4 }
  { strm (fun x => { x with flights := [{ due := 4, iss := 0, seq := 4, land := .regs [(5, 0)], wait := 3 }] }) (stores n (copying 64)) with
    pkgs := [(0, { kvOps := [(7, op)], kvNext := 8 })], arg := { n := 7, flag := true } }

theorem wit_KvOperationsSendReplyAndGiveValues_reply :
    ∀ n ∈ [0, 1], ∃ op x f w, ((kvSent n).pkg 0).kvOps.find? (fun e => e.1 = 7) = some (7, op) ∧ ((kvSent n).core op.core).task = some x ∧ x.id = op.task ∧ f ∈ x.c.flights ∧
      f.seq = op.fseq ∧ f.land = .regs [(5, w)] ∧ op.pf = none ∧ performedBefore x op.seq = decide (n = 0) ∧
      (∀ e ∈ ((kvSent n).pkg 0).kvOps, ¬ e.1 < 7) ∧ reachable (kvSent n) 0 (op.home 0 * 2 ^ 45) = true ∧ (∀ a b c, op.ins ≠ .kvApp a b c) ∧
      (∀ a b, op.ins ≠ .kvMap a b) ∧ ((kvDo 0 op true (released (kvSent n) op)).2.core op.core).task.any (fun y => y.id = op.task && y.c.flights = x.c.flights) = true := by
  intro n hn
  simp only [List.mem_cons, List.not_mem_nil, or_false] at hn
  rcases hn with rfl | rfl <;>
    exact ⟨_, _, { due := 4, iss := 0, seq := 4, land := .regs [(5, 0)], wait := 3 }, 0, rfl, rfl, by decide +kernel, by decide +kernel, rfl, rfl, rfl, by decide +kernel, by decide +kernel,
      by decide +kernel, (fun _ _ _ h => nomatch h), (fun _ _ h => nomatch h), by decide +kernel⟩

theorem wit_KvOperationsSendReplyAndGiveValues_values :
    ((copying 64).pkg (seqHome 0)).kvEn = false ∧ (kv0.pkg (seqHome 0)).kvEn = true ∧ kv0.seq 1 = none ∧ (kv0.seq 0).isSome = true ∧ 0 < 2 ^ 29 ∧ 0xFFFFFFFF < 2 ^ 32 ∧
    (∀ q, kv0.seq 0 = some q → 0 < q.size ∧ (q.ent 0).state = 3) := by
  refine ⟨by decide +kernel, by decide +kernel, by decide +kernel, by decide +kernel, by decide, by decide, fun q hq => ?_⟩
  have : q = { sink := 0, win := 1, holders := [0], area := 0, frames := [], ents := [(0, { state := 3 })] } := by
    have h : kv0.seq 0 = some { sink := 0, win := 1, holders := [0], area := 0, frames := [], ents := [(0, { state := 3 })] } := by decide +kernel
    simp_all
  subst this
  decide +kernel

/-! ### Plans -/

theorem walkGo_bits (s : State) (pkg va : Nat) : ∀ n t p, walkGo s pkg va n t = .ok p → ∃ l < n, p.bits = (levelBits l).1 := by
  intro n
  induction n with
  | zero => intro t p h; simp [walkGo] at h
  | succ n ih =>
    intro t p h
    unfold walkGo at h
    simp only at h
    split_ifs at h
    · generalize leafReason s _ _ = r at h
      split at h <;> exact absurd h (by simp)
    · generalize leafReason s _ _ = r at h
      rcases r with _ | r
      · injection h with h
        subst h
        exact ⟨n, by omega, rfl⟩
      · split at h
        · exact absurd h (by simp)
        · simp_all
    · obtain ⟨l, hl, e⟩ := ih _ _ h
      exact ⟨l, by omega, e⟩

theorem walkGo_page (s : State) (pkg va : Nat) (hv : va < 2 ^ 21) :
    ∀ n t p, n ≤ 5 → walkGo s pkg 0 n t = .ok p → p.bits = 21 → walkGo s pkg va n t = .ok ⟨p.pte, p.pa + va, 21⟩ := by
  intro n
  induction n with
  | zero => intro t p _ h; simp [walkGo] at h
  | succ n ih =>
    intro t p hn h hb
    have h2 : 1 ≤ n := by
      obtain ⟨l, hl, e⟩ := walkGo_bits s pkg 0 _ _ _ h
      rw [hb] at e
      have : ∀ l < 1, (levelBits l).1 ≠ 21 := by decide
      by_contra hc
      exact this l (by omega) e.symm
    have hd : va / 2 ^ (levelBits n).1 = 0 := by
      have : ∀ n < 5, 1 ≤ n → 2 ^ 21 ≤ 2 ^ (levelBits n).1 := by decide
      exact Nat.div_eq_of_lt (lt_of_lt_of_le hv (this n (by omega) h2))
    unfold walkGo at h ⊢
    simp only [hd, Nat.zero_div] at h ⊢
    split_ifs at h ⊢
    · generalize leafReason s _ _ = r at h
      split at h <;> exact absurd h (by simp)
    · generalize leafReason s _ _ = r at h ⊢
      rcases r with _ | r
      · injection h with h
        subst h
        simp only at hb
        simp only [hb, Nat.mod_eq_of_lt hv, Nat.zero_mod, Nat.add_zero]
      · split at h
        · exact absurd h (by simp)
        · simp_all
    · exact ih _ _ (by omega) h hb

theorem mapM_some (f : Nat → Nat) : ∀ l : List Nat, l.mapM (fun i => some (f i)) = some (l.map f) := by
  intro l
  induction l with
  | nil => rfl
  | cons a l ih => simp [List.mapM_cons, ih]

theorem mapM_congr (f g : Nat → Option Nat) : ∀ l : List Nat, (∀ i ∈ l, f i = g i) → l.mapM f = l.mapM g := by
  intro l h
  induction l with
  | nil => rfl
  | cons a l ih => simp [List.mapM_cons, h a, ih fun i hi => h i (List.mem_cons_of_mem _ hi)]

theorem readVirt_page (s : State) (p : Page) (va n : Nat) (h : walk s 0 0 0 = .ok p) (hb : p.bits = 21) (hc : pteCf p.pte = false) (hl : va + n ≤ 2 ^ 21) :
    readVirt s 0 0 va n = some (readBytes s (p.pa + va) n) := by
  have hw : ∀ i < n, walk s 0 0 (va + i) = .ok ⟨p.pte, p.pa + (va + i), 21⟩ := by
    intro i hi
    unfold walk at h ⊢
    simp only [show ¬ 2 ^ 56 ≤ va + i by omega, show ¬ 2 ^ 56 ≤ 0 by omega, if_false] at h ⊢
    split at h
    · cases h
    · rw [if_neg ‹_›]
      exact walkGo_page s 0 (va + i) (by omega) 5 _ p (by omega) h hb
  unfold readVirt readBytes
  rw [← mapM_some]
  refine mapM_congr _ _ _ fun i hi => ?_
  simp [hw i (List.mem_range.mp hi), hc, Nat.add_assoc]
/-- A plan record at 0x20000 of one rank, core 0 of package 0, with the bytes given at the head of its first two double-words; its rank
table at 0x20100. -/
def planning (l : List (Nat × Byte)) : State :=
  regs12 0x20000 0 { paged with
    cur := { st := .c }
    mem := pageTables (l ++ [(4121, 1), (4122, 2), (4160, 1), (2147487753, 16), (2147487754, 2), (2147487761, 32), (2147487762, 2), (2147487769, 48), (2147487770, 2)]) }

/-- One rank, 64 bytes. -/
def planGood : State := planning [(4096, 1), (4104, 64)]

/-- One rank, an operation over elements of four bytes, 63 bytes. -/
def planOdd : State := planning [(4096, 1), (4098, 16), (4104, 63)]

theorem tabGet_nil (d k : Nat) : tabGet d [] k = d := rfl

theorem freePlanId_of_empty (s : State) (h : s.pkg 0 = { ctxs := [(0, 2 ^ 127 + 1 * 2 ^ 64 + 0x10000)] }) : (freePlanId s 0 [0]).isSome = true := by
  unfold freePlanId
  rw [List.findSome?_isSome_iff]
  refine ⟨0, by simp, ?_⟩
  have hg : ∀ id, newGen s 0 id [0] = some 1 := by
    intro id
    unfold newGen
    rw [h]
    simp only [List.all_cons, List.all_nil, h, tabGet_nil, List.any_nil]
    decide
  simp [h, tabGet_nil, hg]

theorem wit_PlanSetupEntersThePlanEverywhere :
    (∀ s ∈ [planGood, planOdd], s.resident = true ∧ s.poison = [] ∧ s.task.tls[9]? = some { count := 0 } ∧ s.reg 1 = 0x20000) ∧ ((odd st0).reg 1).toNat % 64 ≠ 0 := by
  decide +kernel

/-- The header and level of such a record. -/
def planDws (a b : Nat) : List Nat := [a, b, 0, 0x20100, 0, 0, 0, 0, 1] ++ List.replicate 15 0

/-- The record that a planning machine reads, with one walk of the page tables. -/
theorem planning_record (l : List (Nat × Byte)) (dws tab : List Nat) (hc : pkgOf (planning l).cur.core = 0 ∧ (planning l).task.ctx = 0)
    (h : walk (planning l) 0 0 0 = .ok ⟨2 ^ 63 + 2 ^ 62 + 2 ^ 58 + 2 ^ 57, 0, 21⟩)
    (hd : wordsOf 8 24 (readBytes (planning l) 0x20000 192) = dws) (hn : fld (dws.getD 3 0) 55 0 = 0x20100 ∧ fld (dws.getD 0 0) 13 0 = 1)
    (ht : wordsOf 8 4 (readBytes (planning l) 0x20100 32) = tab) (h1 : planFieldsOk dws [] = true) (h2 : planFieldsOk dws tab = true) :
    readRecord (planning l) 0x20000 = .ok (dws, tab) := by
  have hp : pteCf (2 ^ 63 + 2 ^ 62 + 2 ^ 58 + 2 ^ 57) = false := by decide
  have e1 : readHeader (planning l) 0x20000 = some dws := by
    unfold readHeader
    rw [hc.1, hc.2, readVirt_page _ _ _ _ h rfl hp (by decide)]
    simpa using hd
  have e2 : readRanks (planning l) dws = some tab := by
    unfold readRanks
    rw [hc.1, hc.2, hn.1, hn.2, readVirt_page _ _ _ _ h rfl hp (by decide)]
    simpa [readBytes] using ht
  simp [readRecord, e1, e2, h1, h2]

theorem wit_PlanSetupEntersThePlanEverywhere_refused :
    (match readRecord planGood 0x200000 with | .ok _ => false | .error r => r = 3) = true ∧
    readRecord planOdd 0x20000 = .ok (planDws (1 + 2 ^ 20) 63, [0, 0x21000, 0x22000, 0x23000]) ∧
    planLayoutOk (recorded (planDws (1 + 2 ^ 20) 63) [0, 0x21000, 0x22000, 0x23000]) = false :=
  ⟨by decide +kernel, planning_record _ _ _ (by decide +kernel) (by decide +kernel) (by decide +kernel) (by decide +kernel) (by decide +kernel) (by decide +kernel) (by decide +kernel),
    by decide +kernel⟩

theorem wit_PlanSetupEntersThePlanEverywhere_entered :
    (let r := recorded (planDws 1 64) [0, 0x21000, 0x22000, 0x23000]
     planLayoutOk r = true ∧ (setUpBy planGood 9 1 r).pkgs = [0]) ∧
    readRecord planGood 0x20000 = .ok (planDws 1 64, [0, 0x21000, 0x22000, 0x23000]) ∧
    pkgOf planGood.cur.core = 0 ∧ (freePlanId planGood 0 [0]).isSome = true :=
  ⟨by decide +kernel, planning_record _ _ _ (by decide +kernel) (by decide +kernel) (by decide +kernel) (by decide +kernel) (by decide +kernel) (by decide +kernel) (by decide +kernel),
    by decide +kernel, freePlanId_of_empty _ (by decide +kernel)⟩

/-- A plan of one rank, core 0 of package 0, in a state, with its number, triggers and a faulted first member. -/
def onePlan (state trigs : Nat) : Plan :=
  { id := 5, gen := 3, state := state, len := 8, levels := [{ bound := 1, sstride := 0, dstride := 0, pa := 0, pb := 0, pc := 0 }]
    ranks := [{ pkg := 0, core := 0, sbase := 0x21000, dbase := 0x22000, aword := 0, trigs := List.replicate trigs { seq := 0 } }]
    grps := [{ q := 0, g := 0, faults := [0] }] }

/-- A machine with plan 1 named by handle register 2. -/
def planned (p : Plan) : State :=
  (regs12 0 0 { stc [] with plans := [(1, p)], nplan := 2, pkgs := [(0, { plans := [(5, 1)], planGen := [(5, 3)] })] }).modTask fun t =>
    { t with h := t.h.set 2 (BitVec.ofNat 64 (2 ^ 63 + 3 * 2 ^ 16 + 5)) }

/-- The same plan of core 1. -/
def otherCore : Plan := { onePlan 2 0 with ranks := [{ pkg := 0, core := 1, sbase := 0, dbase := 0, aword := 0 }] }

theorem rankHere (s : State) (p : Plan) (r : PRank) (h : p.ranks[0]? = some r) (hc : r.pkg * 4096 + r.core = s.cur.core) : RankHere s p 0 :=
  ⟨r, h, hc, fun i hi => absurd hi (by omega)⟩

theorem wit_PlanFireFreeRedoStatusAndHost_named :
    (∀ n ∈ [0, 254, 255], let s := planned (onePlan 2 n)
      s.resident = true ∧ s.poison = [] ∧ s.task.tls[9]? = some { count := 0 } ∧ Named s 2 1 (onePlan 2 n) ∧ RankHere s (onePlan 2 n) 0 ∧
      ((onePlan 2 n).rank 0).trigs.length = n) ∧
    Named (planned (onePlan 3 0)) 2 1 (onePlan 3 0) ∧ Named (planned (onePlan 4 0)) 2 1 (onePlan 4 0) ∧ Named (planned otherCore) 2 1 otherCore ∧
    (∀ j, ¬ RankHere (planned otherCore) otherCore j) ∧ (∀ x p, ¬ Named (stc []) 2 x p) := by
  refine ⟨?_, by unfold Named; decide +kernel, by unfold Named; decide +kernel, by unfold Named; decide +kernel, ?_, ?_⟩
  · have h : ∀ n ∈ [0, 254, 255], (planned (onePlan 2 n)).resident = true ∧ (planned (onePlan 2 n)).poison = [] ∧
        (planned (onePlan 2 n)).task.tls[9]? = some { count := 0 } ∧ Named (planned (onePlan 2 n)) 2 1 (onePlan 2 n) ∧ ((onePlan 2 n).rank 0).trigs.length = n ∧
        0 * 4096 + 0 = (planned (onePlan 2 n)).cur.core := by
      unfold Named
      decide +kernel
    exact fun n hn => let ⟨a, b, c, d, e, k⟩ := h n hn; ⟨a, b, c, d, rankHere _ _ _ rfl k, e⟩
  · rintro (_ | j) ⟨r, hr, hk, -⟩
    · cases hr
      exact absurd hk (by decide +kernel)
    · cases hr
  · rintro x p ⟨h, -⟩
    exact absurd h (by decide +kernel)

theorem faulted_here : Faulted (onePlan 2 0) 0 0 { q := 0, g := 0, faults := [0] } := ⟨by decide, by decide +kernel, 0, by decide, by decide +kernel⟩

theorem wit_PlanFireFreeRedoStatusAndHost_redo :
    (let s := planned (onePlan 2 0)
     (s.reg 1).toNat / 2 ^ 14 % 4 = 0 ∧ (s.reg 1).toNat / 2 ^ 40 = 0 ∧ (s.reg 1).toNat % 2 ^ 14 < (onePlan 2 0).ranks.length ∧
     sourceBytes s (onePlan 2 0) 0 0 0 = some (List.replicate 8 0) ∧
     (itemPath s (onePlan 2 0) 0 ((onePlan 2 0).itemOf 0 0 0).1 ((onePlan 2 0).itemOf 0 0 0).2).isSome = true) ∧
    Faulted (onePlan 2 0) 0 0 { q := 0, g := 0, faults := [0] } ∧ (∀ y', Faulted (onePlan 2 0) 0 0 y' → y' = { q := 0, g := 0, faults := [0] }) ∧
    (∀ y, ¬ Faulted { onePlan 2 0 with grps := [] } 0 0 y) ∧ ¬ ((planned (onePlan 2 0)).reg 1).toNat % 2 ^ 14 < ({ onePlan 2 0 with ranks := [] } : Plan).ranks.length := by
  refine ⟨by decide +kernel, faulted_here, ?_, ?_, by decide +kernel⟩
  · rintro y' ⟨h, -⟩
    exact List.mem_singleton.mp h
  · rintro y ⟨h, -⟩
    cases h

theorem wit_PlanFireFreeRedoStatusAndHost_status :
    (let s := planned (onePlan 2 0)
     s.resident = true ∧ s.poison = [] ∧ s.h 2 / 2 ^ 63 % 2 = 1 ∧ s.h 3 / 2 ^ 63 % 2 = 0 ∧ tabGet 0 (here s).plans (s.h 2 % 2 ^ 16) = 1 ∧
     (s.plan 1).gen = s.h 2 / 2 ^ 16 % 2 ^ 8 ∧ RankHere s (s.plan 1) 0) ∧
    (let s := regs12 (3 * 2 ^ 16 + 5) (2 ^ 24) (planned (onePlan 2 0))
     (s.reg 2).toNat / 2 ^ 24 ≠ 0 ∧ (s.reg 1).toNat / 2 ^ 24 = 0 ∧ tabGet 0 (here s).plans ((s.reg 1).toNat % 2 ^ 16) = 1 ∧ (s.plan 1).gen = (s.reg 1).toNat / 2 ^ 16 ∧
     (s.plan 1).ctx = s.task.ctx ∧ RankHere s (s.plan 1) 0) ∧
    (let s := planned (onePlan 2 0)
     tabGet 0 (here s).plans ((s.reg 1).toNat % 2 ^ 16) = 0) ∧
    tabGet 0 (here (planned { onePlan 2 0 with gen := 4 })).plans ((planned { onePlan 2 0 with gen := 4 }).h 2 % 2 ^ 16) = 1 ∧
    ((planned { onePlan 2 0 with gen := 4 }).plan 1).gen ≠ (planned { onePlan 2 0 with gen := 4 }).h 2 / 2 ^ 16 % 2 ^ 8 :=
  ⟨⟨by decide +kernel, by decide +kernel, by decide +kernel, by decide +kernel, by decide +kernel, by decide +kernel, rankHere _ _ _ rfl (by rfl)⟩,
    ⟨by decide +kernel, by decide +kernel, by decide +kernel, by decide +kernel, by decide +kernel, rankHere _ _ _ rfl (by rfl)⟩, by decide +kernel, by decide +kernel, by decide +kernel⟩

/-! ### Bank commands -/

/-- A channel's sequencer at cycle 200 with a bank 0, a command's operands and its registers. -/
def atBank (x : Bank) (o : BankOps) (f : Chan → Chan) : State := { chans := [(0, f { cyc := 200, banks := [(0, x)] })], bop := o }

/-- A bank whose row 5 has been open since a cycle. -/
def opened (act : Nat) : Bank := { row := some 5, act := some act }

/-- The channel with a walk entry in walk register 0. -/
def entry0 (e : Nat) (c : Chan) : Chan := { c with wk := [{ ent := [e], len := 1, ptr := 0 }] }

theorem wit_BankRowAndControlCommands_rows :
    (∀ x ∈ [{ pre := some 188 }, { pre := none, ref := some 40 }, ({} : Bank)], Opens (bankOf (atBank x {} id) 0) (atBank x {} id).curChan.cyc) ∧
    ¬ Opens { pre := some 189 } 200 ∧ ¬ Opens (opened 0) 200 ∧ (bankOf (atBank (opened 172) {} id) 0).openAt 200 ≠ none ∧
    (bankOf (atBank (opened 172) {} id) 0).pre = none ∧ ({} : Bank).openAt 200 = none ∧ ({ opened 0 with pre := some 201 } : Bank).pre ≠ none ∧
    (∀ e ∈ [0, 2 ^ 29, 2 ^ 31], (atBank {} {} (entry0 e)).poison = [] ∧ (atBank {} {} (entry0 e)).curChan.entry (atBank {} {} (entry0 e)).bop.wk = e) := by
  refine ⟨?_, ?_, ?_, by decide, by decide, by decide, by decide, by decide +kernel⟩
  · intro x hx
    simp only [List.mem_cons, List.not_mem_nil, or_false] at hx
    rcases hx with rfl | rfl | rfl <;> exact ⟨by decide, by intro p h; cases h <;> decide, by intro p h; cases h <;> decide⟩
  · intro h
    exact absurd (h.2.1 189 rfl) (by decide)
  · intro h
    exact absurd h.1 (by decide)

/-- The operands of a command at a column and a row, or any row. -/
def opAt (col r : Nat) : BankOps := { col := col, r := r }

theorem wit_BankReadingCommands :
    (∀ e ∈ [(opened 188, 5), (opened 188, 0x8000)], Reaches (bankOf (atBank e.1 (opAt 0 e.2) id) 0) (atBank e.1 (opAt 0 e.2) id).curChan.cyc e.2 5) ∧
    (∀ r, ¬ Reaches (opened 189) 200 5 r) ∧ (∀ r, ¬ Reaches (opened 0) 200 4 r) ∧
    (∀ slot ∈ [0, 3], (atBank (opened 0) (opAt (8 * slot) 5) id).poison = [] ∧ (bankOf (atBank (opened 0) (opAt (8 * slot) 5) id) 0).nul = false ∧
      (atBank (opened 0) (opAt (8 * slot) 5) id).bop.col / 8 % 4 < (bankOf (atBank (opened 0) (opAt (8 * slot) 5) id) 0).lim) ∧
    (bankOf (atBank { opened 0 with nul := true } {} id) 0).nul = true ∧
    (bankOf (atBank { opened 0 with lim := 3 } (opAt 24 5) id) 0).lim ≤ (atBank { opened 0 with lim := 3 } (opAt 24 5) id).bop.col / 8 % 4 := by
  refine ⟨?_, ?_, ?_, by decide, by decide, by decide⟩
  · intro e he
    simp only [List.mem_cons, List.not_mem_nil, or_false] at he
    rcases he with rfl | rfl <;> exact ⟨by decide, (by intro p h; cases h; decide), (by intro p h; cases h), by decide⟩
  · rintro r ⟨_, h, _⟩
    exact absurd (h 189 rfl) (by decide)
  · rintro r ⟨h, _, _, h' | h'⟩
    · exact absurd h' (by decide)
    · subst h'
      exact absurd h (by decide)

theorem wit_BankUnitAndWritingCommands :
    (∀ e ∈ [(0, 0), (64, 4095), (64, 4096)], (atBank {} (opAt e.1 0) fun c => { c with cur := e.2 }).bop.col = e.1 ∧
      (atBank {} (opAt e.1 0) fun c => { c with cur := e.2 }).curChan.cur = e.2) ∧
    ((atBank {} {} fun c => { c with cur := 3965, d := 128 }).curChan.cur + (atBank {} {} fun c => { c with cur := 3965, d := 128 }).curChan.d + 3 = 4096) ∧
    (4096 < (atBank {} {} fun c => { c with cur := 3966, d := 128 }).curChan.cur + 128 + 3) ∧
    (∀ y ∈ [({} : Slot), { pend := some 5 }, { pend := some 0xFF800000, m := 5 }], ((atBank {} {} fun c => { c with ms := [(0, y)] }).curChan.slot 0) = y) ∧
    boundTo (atBank {} {} fun c => { c with mask := 1, ctr := 3 }) 0 = some 3 ∧
    (∃ x, ((({ cores := [(0, { task := some task0 })] } : State)).core (atBank {} {} id).curChan.owner).task = some x ∧ x.tls[3]? = some { count := 0 }) :=
  ⟨by decide, by decide, by decide, by decide, by decide, ⟨task0, rfl, by decide +kernel⟩⟩

theorem wit_BankRowAndControlCommands_control :
    (∀ l ∈ [(0, false), (1, true), (2, true)], (atBank {} {} fun c => { c with lp := [l] }).curChan.lp[(atBank {} {} fun c => { c with lp := [l] }).bop.lp]? = some l) ∧
    (∀ base ∈ [0, 101], ({ base := base, cyc := 3120 } : Chan).cyc - base + 1 + 0 = 3121 - base) := by
  decide

/-! ### Events beside the streams -/

/-- A result in flight. -/
def inAir (due wait : Nat) (s : State) : State := strm (fun x => { x with flights := [{ due := due, iss := 0, seq := 3, land := .regs [(5, 7)], wait := wait }] }) s

/-- A stream in a status. -/
def being (x : Status) (s : State) : State := strm (fun y => { y with status := x }) s

/-- A stream stopped by lost operand data, with a result in flight. -/
def dataLost (s : State) : State := strm (fun y => { y with status := .stopped 0 .never, phase := 1, flights := [{ due := 0, iss := 0, seq := 3, land := .none }] }) s

/-- A stream frozen on a held instruction, which may try it again or not. -/
def frozenOn (c : Nat) (again : Bool) (i : Instr) (s : State) : State := strm (fun y => { y with frozen := some c, held := some i, redo := again }) s

theorem wit_LandingAndRetryEvents :
    (∀ s ∈ [st0, inAir 0 0 st0, inAir 1 10 st0], (Mover.stream s.arg.unit s.arg.st).key ∉ s.moved ∧ (asNamed s).resident = true ∧ (asNamed s).str.status = .running ∧ (asNamed s).str.frozen = none ∧
      ∀ f ∈ (asNamed s).str.flights, f.due ≤ (asNamed s).str.cyc → f.wait = 0) ∧
    (∃ f ∈ (asNamed (inAir 0 10 st0)).str.flights, f.due ≤ (asNamed (inAir 0 10 st0)).str.cyc ∧ f.wait ≠ 0) ∧
    (let u := asNamed (being .ended (inAir 0 0 st0))
     u.resident = true ∧ u.str.status = .ended ∧ u.str.flights ≠ [] ∧ ∀ f ∈ u.str.flights, f.due ≤ u.str.cyc → f.wait = 0) ∧
    (let u := asNamed (ev { st := .m } (dataLost (on .m task0)))
     u.landsOn = true ∧ u.str.status ≠ .running ∧ u.str.flights ≠ [] ∧ ∀ f ∈ u.str.flights, f.due ≤ u.str.cyc → f.wait = 0) ∧
    (let s : State := { st0 with moved := [(Mover.stream st0.arg.unit st0.arg.st).key] }
     ¬ (Mover.stream s.arg.unit s.arg.st).key ∉ s.moved) ∧
    (∀ v ∈ [0, 1], (ev { v := v } st0).arg.v = v ∧ (asNamed st0).resident = true) ∧ (st0.wall < 1 ∧ 0 ≤ st0.wall) ∧
    (∀ e ∈ [(Instr.scAccessIssue, onCore .s (frozenOn 8 true (.scLd g0 5 6 0 0 0) st0), Instr.scLd g0 5 6 0 0 0),
        (.semSignalApply, asNamed (frozenOn 9 true (.semSig g0 1 2) st0), .semSig g0 1 2),
        (.gbArrivalApply, asNamed (frozenOn 9 true (.gbArr g0 1) st0), .gbArr g0 1)],
      retryRow e.1 [e.2.2, e.2.2] ∧ e.2.1.resident = true ∧ e.2.1.str.frozen ≠ none ∧ e.2.1.str.held = some e.2.2 ∧ ∃ v', beginTurn e.2.1 = .ok (e.2.2, v')) := by
  refine ⟨by decide +kernel, by decide +kernel, by decide +kernel, by decide +kernel, by decide +kernel, by decide +kernel, by decide +kernel, fun e he => ?_⟩
  simp only [List.mem_cons, List.not_mem_nil, or_false] at he
  rcases he with rfl | rfl | rfl <;>
    exact ⟨by simp [retryRow, isSc, isSemSig, isArrival], by decide +kernel, by decide +kernel, by decide +kernel, _, rfl⟩

/-- A stream that waits for its fetch, in a context that is mapped or not. -/
def fetching (s : State) : State := strm (fun y => { y with frozen := some 1 }) s

/-- The leaf that maps the first megabytes of that context. -/
def leaf0 : Nat := 2 ^ 63 + 2 ^ 62 + 2 ^ 58 + 2 ^ 57

/-- A die that holds that leaf in its TLB. -/
def known (s : State) : State := { s with dies := [(0, { tlb := [{ ctx := 0, vpn := 0, bits := 21, pte := leaf0 }] })] }

/-- A die with a walk queued, and walks under way. -/
def walking0 (va : Nat) (l : List Walk) (s : State) : State := { s with dies := [(0, { walkq := [{ ctx := 0, va := va }], walkers := l })] }

/-- A store held at a router. -/
def heldStore (reach : List Nat) (a : Args) (s : State) : State :=
  ev a { strm (fun y => { y with sbuf := [{ seq := 3, cells := [(2 ^ 45, 1)], so := false, rel := false, remote := true }] }) s with pkgs := [(0, { reach := reach })], tick := 1 }

theorem wit_FetchWalkAndRouteEvents_fetch :
    (let s := known (fetching paged)
     (asNamed s).resident = true ∧ wantsFetch (asNamed s) = true ∧ s.poison = [] ∧ coreMisses (!s.arg.flag) (asNamed s) 0 (asNamed s).task.ctx (fetchVa (asNamed s) / 64 * 64) = false ∧
     coreXlate (asNamed s) 0 (asNamed s).task.ctx (fetchVa (asNamed s) / 64 * 64) = .ok ⟨leaf0, 0, 21⟩ ∧ pteCmp leaf0 = false ∧ pteCf leaf0 = false ∧
     reachable (asNamed s) (pkgOf s.arg.unit) 0 = true) ∧ Served (asNamed (known (fetching paged))) 0 ∧
    (let s := fetching paged
     (asNamed s).resident = true ∧ wantsFetch (asNamed s) = true ∧ coreMisses (!s.arg.flag) (asNamed s) 0 (asNamed s).task.ctx (fetchVa (asNamed s) / 64 * 64) = true) ∧
    (let s := fetching st0
     (asNamed s).resident = true ∧ wantsFetch (asNamed s) = true ∧ coreXlate (asNamed s) 0 (asNamed s).task.ctx (fetchVa (asNamed s) / 64 * 64) = .error (1, 4) ∧ 1 ≠ poisonedEntry) :=
  ⟨by decide +kernel, served _ _ rfl, by decide +kernel, by decide +kernel⟩

theorem wit_FetchWalkAndRouteEvents_walk :
    (∀ l ∈ [[], List.replicate 63 { ctx := 1, va := 0 }, List.replicate 64 { ctx := 1, va := 0 }], let s := ev { flag := true } (walking0 0x20000 l paged)
     s.arg.flag = true ∧ (s.die s.arg.unit).walkq = [{ ctx := 0, va := 0x20000 }] ∧ (s.die s.arg.unit).walkers = l) ∧
    (let s := ev { flag := false, v := 0x20000 } (walking0 0 [{ ctx := 0, va := 0x20000 }] paged)
     s.arg.flag = false ∧ { ctx := s.arg.k, va := s.arg.v } ∈ (s.die s.arg.unit).walkers ∧ s.chans = [] ∧ walk s (s.arg.unit / 8) 0 0x20000 = .ok ⟨leaf0, 0x20000, 21⟩) ∧
    (let s := ev { flag := false, v := 2 ^ 21 } (walking0 0 [{ ctx := 0, va := 2 ^ 21 }] (strm (fun y => { y with miss := some 32 }) paged))
     s.arg.flag = false ∧ { ctx := s.arg.k, va := s.arg.v } ∈ (s.die s.arg.unit).walkers ∧ s.chans = [] ∧ walk s (s.arg.unit / 8) 0 (2 ^ 21) = .error (1, 1) ∧ dieOf 0 = s.arg.unit ∧
     ∃ x, TaskOn s 0 x ∧ x.ctx = 0 ∧ (x.str .s).miss = some (2 ^ 21 / 2 ^ 16)) :=
  ⟨by decide +kernel, by decide +kernel, by decide +kernel, by decide +kernel, by decide +kernel, by decide +kernel, by decide +kernel, _, rfl, by decide +kernel, by decide +kernel⟩

theorem wit_FetchWalkAndRouteEvents_routes :
    (∀ e ∈ [([1], 0), ([], 0), ([], 1), ([], 2)], let s := heldStore e.1 { j := 4, k := 3, v := e.2 } st0
      requestLives s.arg (asHeld s) = true ∧ routeUp s.arg (asHeld s) = decide (e.1 = [1]) ∧ s.arg.v = e.2 ∧ s.tick = 1 ∧ s.arg.j = 4 ∧
      (asNamed s).str.sbuf.find? (fun e => e.seq = s.arg.k) = some { seq := 3, cells := [(2 ^ 45, 1)], so := false, rel := false, remote := true }) := by
  decide +kernel

/-- A channel with one copy of eight bytes within the scratchpad, behind a store or not, and the event of that copy. -/
def moving (f : Copy → Copy) (n : Nat) : State :=
  ev { n := 1 } (stores n ((copying 64).modTask fun t =>
    { t with ch := t.ch.set 0 { tl := 0, last := 1, q := [f { num := 1, tl := 0, fn := 0, blk := [2 ^ 56, 2 ^ 56 + 64, 8, 0, 0, 0, 0, 0], seq := 1 }] } }))

/-- Two copies of the channel to one place, and the event of the later one. -/
def overtaking : State :=
  ev { n := 2 } ((copying 64).modTask fun t =>
    { t with ch := t.ch.set 0 { tl := 0, last := 2, q := [1, 2].map fun k => { num := k, tl := 0, fn := 0, blk := [2 ^ 56, 2 ^ 56 + 64, 8, 0, 0, 0, 0, 0], seq := 1 } } })

/-- The later of those two copies once the first has begun. -/
def second : State :=
  ev { n := 2 } (overtaking.modTask fun t => { t with ch := t.ch.set 0 { (t.ch.getD 0 {}) with q := (t.ch.getD 0 {}).q.map fun c => { c with begun := true } } })

/-- A copy from memory that no TLB maps yet. -/
def unmapped : State :=
  ev { n := 1 } ((copying 64).modTask fun t =>
    { t with ch := t.ch.set 0 { tl := 0, last := 1, q := [{ num := 1, tl := 0, fn := 0, blk := [0x20000, 2 ^ 56 + 64, 8, 0, 0, 0, 0, 0], seq := 1 }] } })

theorem wit_CopyEvents_start :
    (∀ s ∈ [moving id 1, overtaking], let u := onCore .c s
      ∃ c, u.resident = true ∧ copyAt u s.arg.k s.arg.n s.arg.j = some c ∧ (u.ch 0).hs = false ∧ (u.ch 0).pf = none ∧ c.walked = false ∧
        mayBegin u (u.ch 0).q c = false) ∧
    (let s := unmapped
     let u := onCore .c s
     ∃ c, u.resident = true ∧ copyAt u s.arg.k s.arg.n s.arg.j = some c ∧ (u.ch 0).hs = false ∧ (u.ch 0).pf = none ∧ c.walked = false ∧
       mayBegin u (u.ch 0).q c = true ∧ (begun c).misses (!s.arg.flag) (walker u).io (setCopy 0 (begun c) u) ≠ []) ∧
    (let s := second
     let u := onCore .c s
     ∃ c, u.resident = true ∧ copyAt u s.arg.k s.arg.n s.arg.j = some c ∧ (u.ch 0).hs = false ∧ (u.ch 0).pf = none ∧ c.walked = false ∧
       mayBegin u (u.ch 0).q c = true ∧ (begun c).misses (!s.arg.flag) (walker u).io (setCopy 0 (begun c) u) = [] ∧
       writesLater (walker u).io (setCopy 0 (begun c) u) (u.ch 0).q (begun c) = true) ∧
    (let s := moving id 0
     let u := onCore .c s
     ∃ c, let v := setCopy 0 (begun c) u
      let w := drawUnits (piecePas v (begun c)) v
      u.resident = true ∧ copyAt u s.arg.k s.arg.n s.arg.j = some c ∧ (u.ch 0).hs = false ∧ (u.ch 0).pf = none ∧ c.walked = false ∧
       mayBegin u (u.ch 0).q c = true ∧ (begun c).misses (!s.arg.flag) (walker u).io v = [] ∧ writesLater (walker u).io v (u.ch 0).q (begun c) = false ∧
       v.chans = [] ∧ ((begun c).stretch (walker u).io 64 w).2.2 = none ∧
       ((begun c).stretch (walker u).io 64 w).1.cur = u.cur ∧ ((begun c).stretch (walker u).io 64 w).1.task.ch.length = u.task.ch.length) ∧
    (let s := moving (fun c => { c with walked := true }) 0
     let u := onCore .c s
     ∃ c tl, u.resident = true ∧ u.task.tls[s.arg.j]? = some tl ∧ copyAt u s.arg.k s.arg.n s.arg.j = some c ∧ c.walked = true) := by
  refine ⟨fun s hs => ?_, ⟨_, by decide +kernel, rfl, rfl, rfl, rfl, by decide +kernel, by decide +kernel⟩,
    ⟨_, by decide +kernel, rfl, rfl, rfl, rfl, by decide +kernel, by decide +kernel, by decide +kernel⟩,
    ⟨_, by decide +kernel, rfl, rfl, rfl, rfl, by decide +kernel, by decide +kernel, by decide +kernel, rfl, by decide +kernel, by decide +kernel, by decide +kernel⟩,
    ⟨_, _, by decide +kernel, rfl, rfl, rfl⟩⟩
  simp only [List.mem_cons, List.not_mem_nil, or_false] at hs
  rcases hs with rfl | rfl <;> exact ⟨_, by decide +kernel, rfl, rfl, rfl, rfl, by decide +kernel⟩

/-- A core of die 1 that copies eight bytes of die 0's memory. -/
def crossing : State :=
  { paged with
    cores := [(512, { task := some { task0 with
      spadBytes := 8192
      ch := task0.ch.set 0 { tl := 0, last := 1, q := [{ num := 1, tl := 0, fn := 0, blk := [0x20000, 2 ^ 56 + 64, 8, 0, 0, 0, 0, 0], seq := 1 }] } } })]
    arg := { unit := 512, v := 16, flag := true, j := 8191, n := 0x23 } }

theorem wit_CopyEvents_resend :
    let s := crossing
    let u := onCore .c s
    let e := (walker u).io
    ∃ c, u.resident = true ∧ s.arg.flag = true ∧ copyAt u s.arg.k (s.arg.v / 16) (s.arg.v % 16) = some c ∧ (u.ch 0).hs = false ∧ (u.ch 0).pf = none ∧
      c.walked = false ∧ c.o % 4096 = 0 ∧ c.crosses e u (dieOf s.arg.unit) = true ∧ (c.chunkOf e u).1 ≠ [] ∧
      ck64 (words32 (flipWord (c.chunkOf e u).1)) ≠ ck64 (words32 (c.chunkOf e u).1) ∧ c.sends < 3 ∧ s.arg.j < 8192 ∧ s.arg.n < 0x24 :=
  ⟨_, by decide +kernel, rfl, rfl, rfl, rfl, rfl, rfl, by decide +kernel, by decide +kernel, by decide +kernel, by decide, by decide, by decide⟩

/-- A task with an attachment that is ready. -/
def attaching : State := (work .m 1).modTask fun t => { t with mmtl := 1, ch := t.ch.set 0 { q := [{ num := 1, fn := 11, blk := List.replicate 8 0, ready := some 0 }] } }

/-- A follow-on command over the task's tiles. -/
def follow0 (running : Bool) (w : Option Nat) : Follow :=
  { num := 1, ch := 0, mul := false, acc := 0, tr := 0, da := dd 1 8 1 2 0 0, db := dd 1 9 2 1 64 64, running := running, endWall := w }

theorem wit_FollowOnAndCompletionEvents_follow :
    (let u := onCore .m attaching
     ∃ c, u.resident = true ∧ readyList u.task = [(0, 0)] ∧ u.task.follow.length < 16 ∧ 0 ≤ u.wall ∧ (u.ch 0).q.find? (fun c => c.fn = 11 && c.ready = some 0) = some c) ∧
    (let u := onCore .m ((work .m 1).modTask fun t => { t with follow := [follow0 false none] })
     ∃ p, u.resident = true ∧ follow0 false none ∈ u.task.follow ∧ (follow0 false none).running = false ∧
       (∀ g ∈ u.task.follow, g.running = false → g ≠ follow0 false none → (follow0 false none).num < g.num) ∧ (∀ g ∈ u.task.follow, g.holds = false) ∧
       arrayTaken u = false ∧ shadows u.task < 8 ∧
       prodChecks u 0 (follow0 false none).da (follow0 false none).db (tileEntry u (follow0 false none).da) (tileEntry u (follow0 false none).db) = .ok p) ∧
    (let u := onCore .m ((work .m 1).modTask fun t => { t with follow := [follow0 true (some 0)] })
     u.task.follow.find? (fun f => match f.endWall with | some w => decide (w ≤ u.wall) && !f.dead | none => false) = some (follow0 true (some 0))) := by
  refine ⟨⟨_, by decide +kernel, by decide +kernel, by decide +kernel, by decide +kernel, rfl⟩,
    ⟨_, by decide +kernel, by decide +kernel, by decide +kernel, by decide +kernel, by decide +kernel, by decide +kernel, by decide +kernel, by rfl⟩, by decide +kernel⟩

/-- A task with near-memory operation 1 of counter 0 accepted. -/
def nming (n : Nat) : State := stores n ((copying 64).modTask fun t => { t with nms := [{ kind := 1, tl := 0, num := 1, blk := List.replicate 8 0, left := [], seq := 1 }] })

theorem wit_FollowOnAndCompletionEvents_numbers :
    (∃ x tl, TaskOn (on .m task0) 0 x ∧ x.id = 0 ∧ (∀ e ∈ x.m.sbuf, 0 ≤ e.seq) ∧ x.tls[1 - 1]? = some tl ∧ x.tls[15]? = some tl ∧
      (∀ d ∈ x.ldots, ¬ (d.tl = 15 ∧ d.num = 1)) ∧ (∀ o ∈ x.nms, ¬ (o.tl = 15 ∧ o.num = 1))) ∧
    (∃ x, TaskOn (stores 1 (on .m task0)) 0 x ∧ x.id = 0 ∧ ∃ e ∈ x.m.sbuf, e.seq < 9) ∧
    (∃ x o, TaskOn (nming 0) 0 x ∧ 0 < x.tls.length ∧ (∀ d ∈ x.ldots, ¬ (d.tl = 0 ∧ d.num = 1)) ∧ x.nms.find? (fun o => o.tl = 0 && o.num = 1) = some o ∧
      o.pf = none ∧ o.kind ≠ 0 ∧ performedBefore x o.seq = true ∧ (nmWork o (onCore .c (nming 0))).2.2 = none ∧
      (nmWork o (onCore .c (nming 0))).1.cur.core = 0 ∧ ((nmWork o (onCore .c (nming 0))).1.core 0).task.any (fun x' => decide (0 < x'.tls.length)) = true) :=
  ⟨⟨_, _, rfl, by decide +kernel, by decide +kernel, rfl, rfl, by decide +kernel, by decide +kernel⟩, ⟨_, rfl, by decide +kernel, by decide +kernel⟩,
    ⟨_, { kind := 1, tl := 0, num := 1, blk := List.replicate 8 0, left := [], seq := 1 }, rfl, by decide +kernel, by decide +kernel, by decide +kernel, rfl, by decide, by decide +kernel, by decide +kernel, by decide +kernel, by decide +kernel⟩⟩

/-! ### Plans under way, chunks, ports, channels -/

/-- A plan of one rank, core 0 of package 0, in a state, changed. -/
def rankPlan (state : Nat) (f : PRank → PRank) : Plan :=
  { onePlan state 0 with ranks := [f { pkg := 0, core := 0, sbase := 0x25000, dbase := 0x26000, aword := 0 }], grps := [] }

/-- The machine that holds a plan with number 1, in a context whose first megabyte is mapped. -/
def planEv (a : Args) (p : Plan) : State :=
  ev a { planned p with mem := pageTables [], pkgs := [(0, { ctxs := [(0, 2 ^ 127 + 1 * 2 ^ 64 + 0x10000)], plans := [(5, 1)], planGen := [(5, 3)] })] }

theorem wit_PlanEvents_setup :
    (∀ p ∈ [rankPlan 1 id, { rankPlan 1 id with setup := some (0, 0, 9, 1) }],
      (planEv { k := 1 } p).plan 1 = p ∧ p.ranks ≠ [] ∧ p.state = 1 ∧ setupStatuses (planEv { k := 1 } p) p = []) ∧
    (let p := rankPlan 1 fun r => { r with dbase := 2 ^ 21 }
     (planEv { k := 1 } p).plan 1 = p ∧ setupStatuses (planEv { k := 1 } p) p ≠ []) := by
  decide +kernel

/-- A trigger of the first task's operation 1 of counter 9. -/
def trig9 : Trig := { op := some (0, 9, 1), seq := 0 }

/-- A plan of two ranks in two packages, with a trigger at the first. -/
def apart (l : List Trig) : Plan := { rankPlan 2 id with ranks := [{ pkg := 0, core := 0, sbase := 0x25000, dbase := 0x26000, aword := 0, trigs := l },
  { pkg := 1, core := 0, sbase := 0x25000, dbase := 0x26000, aword := 0 }] }

theorem wit_PlanEvents_begin :
    (∀ st ∈ [2, 1, 3], let p := rankPlan st fun r => { r with trigs := [trig9] }
      (planEv { k := 1 } p).plan 1 = p ∧ (p.rank 0).part = none ∧ (p.rank 0).trigs = [trig9] ∧ p.begins 0 = true ∧
        (reservedPorts (planEv { k := 1 } p) p).isSome = true ∧
        ∀ o ∈ trig9.op, ∀ x ∈ ((planEv { k := 1 } p).core (p.rank 0).key).task, x.id = o.1 → performedBefore x trig9.seq = true) ∧
    (let p := apart [trig9]
     (planEv { k := 1 } p).plan 1 = p ∧ (p.rank 0).part = none ∧ (p.rank 0).trigs = [trig9] ∧ p.begins 0 = true ∧
       reservedPorts (planEv { k := 1 } p) p = none ∧ planPorts (planEv { k := 1 } p) p (roomOn (planEv { k := 1 } p) p) = none) ∧
    (let p : Plan := { rankPlan 2 id with ranks := (rankPlan 2 fun r => { r with trigs := [trig9] }).ranks ++
       [{ pkg := 0, core := 1, sbase := 0x25000, dbase := 0x26000, aword := 0, done := 1 }] }
     p.begins 0 = false) := by
  decide +kernel

/-- A plan of one rank that takes its members from slots, one of which holds a chunk. -/
def slotted : Plan := { rankPlan 2 (fun r => { r with part := some (trig9, [0]), slots := [{ slot := 0, bytes := List.replicate 8 1, task := 0, tl := none, num := 1 }] }) with skind := 1 }

theorem wit_PlanEvents_sends :
    (let p := rankPlan 2 fun r => { r with part := some (trig9, [0]) }
     let s := planEv { k := 1 } p
     s.chans = [] ∧ s.plan 1 = p ∧ maySend p 0 0 = true ∧ p.skind = 0 ∧
       sourceBytes s p (p.rank 0).done 0 0 = some (List.replicate 8 0) ∧ (itemPath s p 0 (p.itemOf 0 0 0).1 (p.itemOf 0 0 0).2).isSome = true) ∧
    (let s := planEv { k := 1 } slotted
     ∃ c, s.plan 1 = slotted ∧ maySend slotted 0 0 = true ∧ slotted.skind = 1 ∧ (slotted.rank 0).slots.find? (fun c => c.slot = 0) = some c ∧
       (slotted.rank 0).taken = [] ∧ (itemPath s slotted 0 (slotted.itemOf 0 0 0).1 (slotted.itemOf 0 0 0).2).isSome = true) ∧
    (let p : Plan := { slotted with ranks := slotted.ranks.map fun r => { r with slots := [] } }
     maySend p 0 0 = false ∧ maySend (rankPlan 3 fun r => { r with part := some (trig9, [0]) }) 0 0 = false) ∧
    (let p := rankPlan 2 id
     let s := planEv { k := 1, flag := false } p
     s.chans = [] ∧ s.arg.n / 2 ^ 32 = 0 ∧ sourceBytes s p 0 0 (s.arg.n % 2 ^ 32) = some (List.replicate 8 0) ∧
       (itemPath s p 0 (p.itemOf 0 0 0).1 (p.itemOf 0 0 0).2).isSome = true) :=
  ⟨by decide +kernel, ⟨_, by decide +kernel, by decide +kernel, by decide +kernel, rfl, rfl, by decide +kernel⟩, by decide +kernel, by decide +kernel⟩

/-- A group of a plan with its result, of which one or two columns are left. -/
def outGroup (cols : List (List Nat)) : Grp := { q := 0, g := 0, out := List.replicate 8 1, cols := cols }

theorem wit_PlanEvents_parts :
    (∀ e ∈ [([[0, 1, 2, 3, 4, 5, 6, 7]], 0), ([[0, 1], [2, 3, 4, 5, 6, 7]], 1)], let p : Plan := { rankPlan 2 (fun r => { r with part := some (trig9, []) }) with
        op := e.2, acc := e.2 = 1, grps := [outGroup e.1] }
      let s := planEv { k := 1 } p
      s.chans = [] ∧ s.plan 1 = p ∧ (p.grp 0 0) = outGroup e.1 ∧ p.grps.find? (fun x => !x.cols.isEmpty && decide (p.peer x.q (x.g / p.iters) (x.g % p.iters) = 0)) = some (outGroup e.1)) ∧
    (∀ aw ∈ [0, 0x23000], let p : Plan := { rankPlan 2 (fun r => { r with part := some (trig9, []), aword := aw }) with grps := [{ q := 0, g := 0, written := true }] }
     (planEv { k := 1 } p).chans = [] ∧ (planEv { k := 1 } p).plan 1 = p ∧ (p.rank 0).part = some (trig9, []) ∧ (p.rank 0).aword = aw ∧
       p.grps.find? (fun x => !x.cols.isEmpty && decide (p.peer x.q (x.g / p.iters) (x.g % p.iters) = 0)) = none ∧
       (∀ q ∈ p.groupsTo (p.rank 0).done 0, (p.grp (p.rank 0).done q).written = true)) := by
  decide +kernel

theorem wit_PlanEvents_triggers :
    (∀ e ∈ [(0, 2 ^ 16 * 3 + 5), (254, 2 ^ 38 + 2 ^ 16 * 3 + 5)], let s := planEv { v := e.2 } (onePlan 2 e.1)
      trigPlan s s.arg.unit s.arg.v = some 1 ∧ ((s.plan 1).rank 0).trigs.length < 255 ∧ (s.plan 1).ranks.length = 1) ∧
    (∀ v ∈ [0, 2 ^ 39 + 2 ^ 16 * 3 + 5, 2 ^ 24 + 2 ^ 16 * 3 + 5], let s := planEv { v := v } (onePlan 2 0)
      trigPlan s s.arg.unit s.arg.v = none) := by
  decide +kernel

/-- A chunk of plan 1 that carries its first member. -/
def chunk0 : Chunk := { plan := 1, q := 0, g := 0, item := 0, good := List.replicate 8 1, cur := List.replicate 8 1, path := [(0, 0x1000), (0, 0x48), (0, 0x40)] }

/-- The machine with that chunk, somewhere on its path. -/
def chunked (a : Args) (c : Chunk) : State := { planEv a (onePlan 2 0) with chunks := [(7, c)], tick := 2000000 }

theorem wit_ChunkAndPortEvents_chunks :
    (∀ pos ∈ [0, 1], let s := chunked { k := 7 } { chunk0 with pos := pos, hops := 63 }
      s.chunk 7 = some { chunk0 with pos := pos, hops := 63 } ∧ (∃ a b, Between s { chunk0 with pos := pos, hops := 63 } a b) ∧
      s.arg.flag = true ∧ s.tick ≤ chunk0.tick + 2000000 ∧
      parentOf (s.plan 1).shape ((s.plan 1).members 0 0).length chunk0.item = none ∧ (s.plan 1).acc = false) ∧
    (0 + 2 < chunk0.path.length ∧ chunk0.path.length = 1 + 2) ∧
    (∀ sends ∈ [1, 3], let s := chunked { k := 7, flag := false } { chunk0 with pos := 1, path := [(0, 0), (0, 0), (0, 0)], sends := sends }
      s.chunk 7 = some { chunk0 with pos := 1, path := [(0, 0), (0, 0), (0, 0)], sends := sends } ∧ s.arg.flag = false ∧ Between s { chunk0 with pos := 1, path := [(0, 0), (0, 0), (0, 0)], sends := sends } (0, 0) (0, 0) ∧ sends < 4) ∧
    (∀ st ∈ [0, 3], let s : State := if st = 3 then { chunked { k := 7 } chunk0 with plans := [(1, { onePlan 3 0 with id := 5 })] } else { chunked { k := 7 } chunk0 with plans := [] }
      s.chunk 7 = some chunk0 ∧ chunkCurrent s chunk0 = false ∧ 2 ≤ linkState s (0, 0x1000) (0, 0x48)) ∧
    ck64 (words32 (flipWord chunk0.good)) ≠ ck64 (words32 chunk0.good) ∧
    (∃ a, chunk0.path[0]? = some a ∧ 0x24 ≤ a.2) ∧ (∃ a, [(8192, 0)][0]? = some a ∧ 8192 ≤ a.1) ∧
    2 ≤ ({ st0 with pkgs := [(0, { ports := [(0, { state := 2 })] })] }.port 0 0).state := by
  refine ⟨?_, by decide, ?_, by decide +kernel, by decide +kernel, ⟨_, rfl, by decide⟩, ⟨_, rfl, by decide⟩, by decide⟩
  case refine_2 =>
    intro sends hp
    simp only [List.mem_cons, List.not_mem_nil, or_false] at hp
    rcases hp with rfl | rfl <;> exact ⟨by decide +kernel, by decide, ⟨by decide, by decide, by decide +kernel, by decide +kernel, by decide +kernel, by decide, by decide +kernel, by decide +kernel⟩, by decide⟩
  intro pos hp
  simp only [List.mem_cons, List.not_mem_nil, or_false] at hp
  rcases hp with rfl | rfl <;> exact ⟨by decide +kernel, ⟨_, _, rfl, rfl, by decide +kernel, by decide +kernel, by decide +kernel, rfl, by decide +kernel, by decide +kernel⟩, by decide +kernel⟩

/-- A chunk that crosses port 3 of its package, in a state of that port. -/
def crossingChunk (state : Nat) (p : Plan) : State :=
  let s := planEv { k := 7 } p
  { s with chunks := [(7, { chunk0 with pos := 1, path := [(0, 0x1000), (0, 3), (1, 4), (1, 0x40)] })], pkgs := (s.pkgs.map fun e => (e.1, { e.2 with ports := [(3, { state := state, peer := 1, pport := 4 })] })) ++ [(1, { ports := [(4, { state := state, peer := 0, pport := 3 })] })] }

theorem wit_ChunkAndPortEvents_links :
    (∀ e ∈ [0, 1, 2], linkState (crossingChunk e (onePlan 2 0)) (0, 3) (1, 4) = e ∧
      ∀ c ∈ (crossingChunk e (onePlan 2 0)).chunk 7, chunkCurrent (crossingChunk e (onePlan 2 0)) c = true) ∧
    (∀ pkg ∈ [0, 1], let p : Plan := { onePlan 2 0 with ranks := [{ pkg := pkg, core := 0, sbase := 0x21000, dbase := 0x22000, aword := 0 }] }
      let s := crossingChunk 0 p
      ∃ c tail, s.chunk 7 = some c ∧ c.path[c.pos]? = some (0, 3) ∧ c.path[c.pos + 1]? = some (1, 4) ∧ 0 < c.pos ∧
        endPoints s (s.plan c.plan) c.q c.g c.item = some tail ∧ (planRoute s (s.plan c.plan) 0 (tail.headD (0, 0)).1).isSome = decide (pkg = 0)) := by
  refine ⟨by decide +kernel, fun pkg hp => ?_⟩
  simp only [List.mem_cons, List.not_mem_nil, or_false] at hp
  rcases hp with rfl | rfl <;> exact ⟨_, _, by rfl, by decide +kernel, by decide +kernel, by decide +kernel, by rfl, by decide +kernel⟩

/-- A plan of two ranks that add elements, both inputs of the first node of group 0 there. -/
def merging : Plan :=
  { rankPlan 2 id with
    op := 1
    ranks := [{ pkg := 0, core := 0, sbase := 0, dbase := 0, aword := 0 }, { pkg := 0, core := 1, sbase := 0, dbase := 0, aword := 0 }]
    levels := [{ bound := 1, sstride := 0, dstride := 0, pa := 0, pb := 0, pc := 0 }]
    grps := [{ q := 0, g := 0, ins := [(0, List.replicate 8 0), (2, List.replicate 8 1)] }] }

theorem wit_ChunkAndPortEvents_merge :
    let s := planEv { k := 1, j := 1 } merging
    let y := merging.grp 0 0
    ∃ m, (s.plan 1) = merging ∧ (nodeInputs merging.shape m 1) = (some 0, some 2) ∧ (∃ e, y.ins.find? (fun e => e.1 = 0) = some e ∧ e.2 = List.replicate 8 0) ∧
      (∃ e, y.ins.find? (fun e => e.1 = 2) = some e ∧ e.2 = List.replicate 8 1) ∧
      (∃ v, unitOf s merging 0 0 1 = some v) ∧ y.written = false ∧ s.arg.flag = true ∧
      (itemPath s merging 0 0 (nodeItem 1)).isSome = true :=
  ⟨2, by decide +kernel, by decide, ⟨_, rfl, rfl⟩, ⟨_, rfl, rfl⟩, ⟨_, by rfl⟩, by decide, by decide +kernel, by decide +kernel⟩

/-- Two packages joined by port 3 of the first, as given, and port 4 of the second. -/
def porting (a : Args) (p : Port) : State :=
  ev a { st0 with pkgs := [(0, { ports := [(3, { p with peer := 1, pport := 4 })] }), (1, { on := true, ports := [(4, { p with peer := 0, pport := 3 })] })], members := [0, 1] }

theorem wit_ChunkAndPortEvents_ports :
    (∀ r ∈ [15, 16], let s := porting { k := 3, flag := false } { replays := r }
      s.arg.flag = false ∧ (s.port 0 3).replays = r ∧ (s.port 0 3).far = (1, 4)) ∧
    (∀ w ∈ [0, 2, 3, 4], ((porting { k := 3 } { state := 2, spu := true, width := w }).port 0 3) = { state := 2, spu := true, width := w, peer := 1, pport := 4 }) ∧
    (∀ st ∈ [0, 1, 2], ((porting { k := 3 } { state := st }).port 0 3).state = st) ∧ ((porting { k := 3 } { state := 2 }).port 0 3).spu = false ∧
    (let s := porting { j := 3 } { state := 1 }
     s.arg.flag = true ∧ s.arg.unit < 8192 ∧ (s.port 0 s.arg.j).far.1 ≠ s.arg.unit ∧ (s.pkg (s.port 0 s.arg.j).far.1).on = true) ∧
    (porting { k := 1, flag := false } {}).arg.k ≠ (porting { k := 1, flag := false } {}).arg.unit ∧ 1 ∈ (porting { k := 1, flag := false } {}).members := by
  decide

/-- A task with a start of channel 0 accepted behind a query broadcast of the same channel, or not. -/
def tableStart (tick n : Nat) (before : List NmOp) : State :=
  { (stores n (copying 64)).modTask (fun t => { t with nms := before ++ [{ kind := 0, tl := 0, num := 2, blk := [0, 5, 0], left := [0], seq := 1 }] }) with
    chans := [(0, { state := 2, table := [0] })], tick := tick }

/-- A broadcast that still has to write channel 0. -/
def casting : NmOp := { kind := 2, tl := 0, num := 1, blk := [2 ^ 16], left := [0], seq := 1 }

theorem wit_ChannelLeaseAndPageManagerEvents_start :
    (∀ e ∈ [(5, 0), (6, 0), (4, 0), (5, 1)], let s := tableStart e.1 e.2 []
      ∃ x o, TaskOn s (s.chan s.arg.unit).owner x ∧ x.nms = [] ++ o :: [] ∧ o.kind = 0 ∧ 0 ∈ o.left ∧ (s.chan 0).state = 2 ∧ (s.chan 0).live = false ∧
        o.blk.getD 1 0 = 5 ∧ s.tick = e.1 ∧ performedBefore x o.seq = decide (e.2 = 0)) ∧
    (let s := tableStart 5 0 [casting]
     ∃ x o, TaskOn s (s.chan s.arg.unit).owner x ∧ x.nms = [casting] ++ o :: [] ∧ o ∉ [casting] ∧ (∀ y ∈ [casting], ¬ (y.kind = 0 ∧ 0 ∈ y.left)) ∧ writesChan 0 casting = true) := by
  refine ⟨fun e he => ?_, ⟨_, _, rfl, rfl, by decide, by decide, by decide⟩⟩
  simp only [List.mem_cons, List.not_mem_nil, or_false] at he
  rcases he with rfl | rfl | rfl | rfl <;>
    exact ⟨_, _, rfl, rfl, by decide, by decide, by decide +kernel, by decide +kernel, by decide, by decide +kernel, by decide +kernel⟩

theorem wit_ChannelLeaseAndPageManagerEvents :
    (tableStart 5 0 []).arg.unit = 0 ∧ (tableStart 5 0 []).arg.flag = true ∧ ((tableStart 5 0 []).chan 0).held = false ∧
    (∀ h ∈ [true, false], let s : State := { st0 with chans := [(0, { state := 2, held := h, task := 9 })] }
      (s.chan 0).state = 2 ∧ (s.chan 0).live = false ∧ (s.chan 0).held = h ∧ ∀ x ∈ (s.core (s.chan 0).owner).task, x.id ≠ (s.chan 0).task) ∧
    (let s := ev { flag := false } st0
     s.arg.flag = false ∧ ∃ x, TaskOn s s.arg.unit x ∧ x.id = s.arg.v) ∧ (st0.chan 0).state ≠ 2 ∧
    ({ st0 with chans := [(0, { state := 2, live := true })] }.chan 0).live = true ∧ (kv0.pkg 0).kvEn = true ∧ (st0.pkg 0).kvEn = false ∧
    ((ev { v := 2 ^ 31 - 1 } kv0).arg.v / 2 ^ 31 % 2 = 0 ∧ (ev { v := 2 ^ 31 } kv0).arg.v / 2 ^ 31 % 2 = 1 ∧ ∀ e ∈ (kv0.pkg 0).seqs, e.1 < 2 ^ 16) :=
  ⟨by decide +kernel, by decide +kernel, by decide +kernel, by decide +kernel, ⟨by decide +kernel, _, rfl, by decide +kernel⟩, by decide +kernel⟩

/-! ### Queues, packets, gangs -/

/-- A queue of package 0, its other registers, the package. -/
def queued0 (a : Args) (x : Queue) : State :=
  ev a { paged with pkgs := [(0, { ctxs := [(0, 2 ^ 127 + 1 * 2 ^ 64 + 0x10000)], queues := [(0, x)] })] }

/-- A queue whose head is a packet. -/
def headed (w : List Nat) : Queue := { en := true, state := 1, lg := 4, rd := 3, wr := 4, head := some w, hidx := 3 }

theorem wit_QueueRegistersAndCompletion_registers :
    (queueOf (queued0 {} { en := true })).en = true ∧
    (∀ x ∈ [({} : Queue), { epoch := 1, wr := 4, hidx := 3, head := some [5, 0x30000, 7, 0, 0, 0, 0, 0, 0] }], let s := queued0 { v := 2 ^ 16 * 4 } x
     (queueOf s).en = false ∧ ((queueOf s).wr = 0 ∨ (queueOf s).head.isSome = true) ∧ (∀ w, (queueOf s).head = some w → (packetEvent w).isSome = true) ∧
       enableCodes s s.arg.unit { queueOf s with pri := 0, part := 0, lg := 4, ctx := 0, idx := 0 } = []) ∧
    (let s := queued0 { v := 2 ^ 16 * 3 } {}
     (queueOf s).en = false ∧ enableCodes s s.arg.unit { queueOf s with pri := 0, part := 0, lg := 3, ctx := 0, idx := 0 } ≠ []) ∧
    (∀ v ∈ [16, 17], let s := queued0 { v := v } { lg := 4 }
      (queueOf s).en = false ∧ decide ((queueOf s).wr ≤ v ∧ v ≤ 2 ^ (queueOf s).lg) = decide (v = 16) ∧ decide (v < (queueOf s).wr ∨ 2 ^ (queueOf s).lg < v) = decide (v = 17)) ∧
    (let s := queued0 { n := 2 } { rd := 3, wr := 3, opens := [(2, [5])] }
     (queueOf s).opens.find? (fun e => e.1 = s.arg.n) = some (s.arg.n, [5]) ∧ (queueOf s).head = none ∧ (queueOf s).wr ≤ (queueOf s).rd) ∧
    (let s := queued0 { n := 2 } {}
     (queueOf s).opens.find? (fun e => e.1 = s.arg.n) = none) ∧
    (∀ w ∈ [[2 + 2 ^ 9], [6, 0, 0, 0, 0, 0, 0, 4]], let s := queued0 {} (headed w)
      (queueOf s).head = some w ∧ (queueOf s).state ≠ 2 ∧ (packetEvent w).isSome = true ∧ (queueOf s).opens = [] ∧ s.arg.flag = true ∧
        (w.headD 0 / 2 ^ 9 % 2 ^ 23 ≠ 0 ∨ w.getD 7 0 % 8 ≠ 0)) := by
  refine ⟨by decide +kernel, fun x hx => ?_, by decide +kernel, by decide +kernel, by decide +kernel, by decide +kernel, by decide +kernel⟩
  simp only [List.mem_cons, List.not_mem_nil, or_false] at hx
  rcases hx with rfl | rfl
  · exact ⟨by decide +kernel, by decide +kernel, (by intro w h; cases h), by decide +kernel⟩
  · exact ⟨by decide +kernel, by decide +kernel, (by intro w h; cases h; decide), by decide +kernel⟩

/-- An active queue of ring 0x20000 with one packet read. -/
def ringing (f : Queue → Queue) : Queue := f { en := true, state := 1, lg := 4, rd := 1, wr := 1, base := 0x20000 }

/-- Its machine, with bytes of its ring and a doorbell value. -/
def doorbell (v : Nat) (f : Queue → Queue) : State := { queued0 { v := v } (ringing f) with mem := pageTables [(4160, 5), (4168, 8)] }

theorem wit_QueueRegistersAndCompletion_doorbell :
    (∀ v ∈ [0, 18], let x := ringing id
      x.en = true ∧ (x.epoch * 2 ^ 64 + v < x.wr ∨ x.rd + 2 ^ x.lg < x.epoch * 2 ^ 64 + v)) ∧
    (∀ v ∈ [2 ^ 64 + 1, 2 ^ 64 + 17], let x := ringing fun x => { x with epoch := 1, rd := 2 ^ 64 + 1, wr := 2 ^ 64 + 1, head := some [] }
      x.en = true ∧ x.wr ≤ v ∧ v ≤ x.rd + 2 ^ x.lg ∧ x.state ≠ 2 ∧ x.head.isSome = true) ∧
    (let s := doorbell 2 id
      let x := queueOf s
      x.state = 1 ∧ x.head = none ∧ x.rd < 2 ∧ x.wr ≤ 2 ∧ (s.pkg 0).health ≠ 2 ∧ (readClean s 0 x.ctx (x.base + 64 * (x.rd % 2 ^ x.lg)) 64).any fun b =>
        packetEvent (wordsOf 8 8 b ++ [x.ctx]) = some .signalStorePacket) ∧
    (let s := doorbell 2 fun x => { x with base := 2 ^ 21 }
      let x := queueOf s
      x.state = 1 ∧ x.head = none ∧ x.rd < 2 ∧ x.wr ≤ 2 ∧ (s.pkg 0).health ≠ 2 ∧ readClean s 0 x.ctx (x.base + 64 * (x.rd % 2 ^ x.lg)) 64 = none) ∧
    (let s : State := { doorbell 2 (fun x => { x with state := 2, swapped := 1 }) with mem := pageTables [(4216, 8)] }
     let x := queueOf s
     x.en = true ∧ x.state = 2 ∧ x.wr + 1 = 2 ∧ x.opens = [] ∧ x.head = none ∧ x.rd ≤ x.wr ∧ x.swapped ≤ x.wr ∧ (slotWords s 0 s.arg.k x.wr).any fun w => w.getD 7 0 ≠ 0) :=
  ⟨by decide +kernel, by decide +kernel, by decide +kernel, by decide +kernel, by decide +kernel⟩

/-- The machine at a head packet, with words of memory. -/
def packetAt (l : List (Nat × Byte)) (w : List Nat) : State := { queued0 {} (headed w) with mem := pageTables l }

/-- A packet with a signal at 0x30000, whose value is 0 unless written. -/
def signal0 : Nat := 0x30000

theorem wit_PacketEvents_barriers :
    (∀ e ∈ [(2, []), (2, [(6144, 1)]), (3, []), (3, [(6144, 1)]), (2, [(6151, 128)])], let w := [e.1, signal0, 0, 0, 0, 0, 0, 0, 0]
      let s := packetAt e.2 w
      Head s (if e.1 = 2 then .barrierAndPacket else .barrierOrPacket) w ∧ barrierOk w = true ∧
        (barrierSignals w).mapM (fun a => (readClean s 0 (packetCtx (queueOf s) w) a 8).map ofBytes) = some [if e.2 = [] then 0 else if e.2 = [(6144, 1)] then 1 else 2 ^ 63]) := by
  unfold Head ReadsNothing
  decide +kernel

theorem wit_PacketEvents_signals :
    (∀ e ∈ [([5, signal0, 7, 0, 0, 0, 0, 0, 0], Instr.signalStorePacket), ([5 + 2 ^ 32, signal0, 7, 0, 0, 0, 0, 0, 0], .signalAddPacket),
        ([5 + 2 ^ 33, 0, 2 ^ 16 * 3 + 5, 0, 0, 0, 0, 0, 0], .signalTriggerPacket), ([5 + 2 ^ 8, 0, 7, 0, 0, 0, 0, signal0, 0], .signalStorePacket)],
      Head (packetAt [] e.1) e.2 e.1 ∧ e.1.getD 1 0 % 8 = 0) ∧
    (trigPlan (planEv {} (onePlan 2 0)) 0 (2 ^ 16 * 3 + 5) = some 1 ∧ (2 ^ 16 * 3 + 5) / 2 ^ 38 % 2 = 0) := by
  unfold Head ReadsNothing
  decide +kernel

/-- A copy packet: 64 bytes from 0x21000 to 0x22000, its block at 0x20000. -/
def copyPkt : List Nat := [4, 0x20000, 0, 0, 0, 0, 0, 0, 0]

/-- Its machine: the block's bytes stand at 0x20000. -/
def copyHead : State := packetAt [(4097, 16), (4098, 2), (4105, 32), (4106, 2), (4112, 64)] copyPkt

theorem wit_PacketEvents_copy :
    Head copyHead .copyPacket copyPkt ∧ copyHead.arg.flag = true ∧ copyFieldsOk copyPkt = true ∧
    (partDies copyHead 0 (queueOf copyHead).part).find? (fun d => decide ((copyHead.die d).qcopies.length < 16)) = some 0 ∧
    (let l := (locsOf (engine 0 0) copyHead false true 0 (0, 0) 0x20000 64)
     l.2 = none ∧ cleanPrefix (engine 0 0) copyHead l.1 64 = 64 ∧ copyBlockOk (packetCopy copyPkt (wordsOf 8 8 (l.1.map (readLoc (engine 0 0) copyHead)))) = true) ∧
    (let s : State := { copyHead with dies := (partDies copyHead 0 (queueOf copyHead).part).map fun d => (d, { qcopies := List.replicate 16 (0, 0, {}) }) }
     (partDies s 0 (queueOf s).part).find? (fun d => decide ((s.die d).qcopies.length < 16)) = none) := by
  unfold Head ReadsNothing
  decide +kernel

/-- The same copy, taken, with the rest of one byte to be walked. -/
def copyOn : State :=
  { queued0 { flag := false, n := 2 } { en := true, state := 1, lg := 4, rd := 3, wr := 3, opens := [(2, copyPkt)] } with
    dies := [(0, { qcopies := [(0, 2, { fn := 0, blk := [0x21000, 0x22000, 1, 0, 0, 0, 0, 0] })] })] }

theorem wit_PacketEvents_piece :
    copyOn.arg.flag = false ∧ engineCopy copyOn 0 0 copyOn.arg.n = some (0, { fn := 0, blk := [0x21000, 0x22000, 1, 0, 0, 0, 0, 0] }) ∧
    (∀ q ∈ (copyOn.pkg 0).queues, q.2.head = none) ∧ copyOn.chans = [] ∧ openCtx (queueOf copyOn) copyOn.arg.n = 0 ∧
    (let c : Copy := { fn := 0, blk := [0x21000, 0x22000, 1, 0, 0, 0, 0, 0] }
     (c.stretch (engine 0 0) 64 (drawUnits (physOf ((c.nextLocs (engine 0 0) copyOn).1 ++ (c.nextLocs (engine 0 0) copyOn).2)) copyOn)).2.2 = none) := by
  decide +kernel

/-- A table load of one word for channel 0. -/
def tablePkt : List Nat := [6, 0x20000, 1 + 2 ^ 48, 0, 0, 0, 0, 0, 0]

/-- Its machine: the word is `bend`. -/
def tableAt : State := packetAt [(4103, 0x4C)] tablePkt

theorem wit_PacketEvents_table :
    Head tableAt .tableLoadPacket tablePkt ∧ tableOk 0 0 tableAt tablePkt = true ∧
    readClean tableAt 0 (packetCtx (queueOf tableAt) tablePkt) 0x20000 8 = some [0, 0, 0, 0, 0, 0, 0, 0x4C] ∧
    loadResult (tableAt.chan 0) (wordsOf 8 1 [0, 0, 0, 0, 0, 0, 0, 0x4C]) = (0, 0) ∧ (loadResult { state := 2 } (wordsOf 8 1 [0, 0, 0, 0, 0, 0, 0, 0x4C])).1 ≠ 0 := by
  unfold Head ReadsNothing
  decide +kernel

/-- The bytes of an image of no code: its header, its latencies, its hash. -/
def image0 : List Nat :=
  [0x38, 0x4A, 0x5A, 0x4E, 0, 3, 0, 0, 0, 1, 0, 0, 0, 1, 0, 0] ++ List.replicate 48 0 ++ List.replicate 8 0x11 ++ List.replicate 120 0 ++
  [193, 56, 17, 200, 74, 53, 44, 218, 186, 41, 169, 82, 151, 102, 9, 82, 221, 31, 0, 65, 126, 75, 32, 158, 244, 89, 131, 126, 251, 51, 101, 221, 27, 242, 253, 231, 5, 228, 48, 254, 24, 173, 177, 1, 202, 70, 49, 221, 239, 5, 55, 43, 99, 250, 40, 87, 167, 25, 119, 90, 71, 248, 229, 66]

/-- Its cells at 0x30000. -/
def imageCells : List (Nat × Byte) :=
  [(6144, 56), (6145, 74), (6146, 90), (6147, 78), (6149, 3), (6153, 1), (6157, 1), (6208, 17), (6209, 17), (6210, 17), (6211, 17),
   (6212, 17), (6213, 17), (6214, 17), (6215, 17), (6336, 193), (6337, 56), (6338, 17), (6339, 200), (6340, 74), (6341, 53),
   (6342, 44), (6343, 218), (6344, 186), (6345, 41), (6346, 169), (6347, 82), (6348, 151), (6349, 102), (6350, 9), (6351, 82),
   (6352, 221), (6353, 31), (6355, 65), (6356, 126), (6357, 75), (6358, 32), (6359, 158), (6360, 244)] ++
  [(6361, 89), (6362, 131), (6363, 126), (6364, 251), (6365, 51), (6366, 101), (6367, 221), (6368, 27), (6369, 242), (6370, 253),
   (6371, 231), (6372, 5), (6373, 228), (6374, 48), (6375, 254), (6376, 24), (6377, 173), (6378, 177), (6379, 1), (6380, 202),
   (6381, 70), (6382, 49), (6383, 221), (6384, 239), (6385, 5), (6386, 55), (6387, 43), (6388, 99), (6389, 250), (6390, 40),
   (6391, 87), (6392, 167), (6393, 25), (6394, 119), (6395, 90), (6396, 71), (6397, 248), (6398, 229), (6399, 66)]

/-- A launch of two gangs of two tasks with that image. -/
def launchPkt : List Nat := [1 + 2 ^ 33, 2, 0x30000, 0, 0, 0, 0, 0, 0]

/-- Its grid. -/
def launchGrid : Grid := { queue := 0, idx := 3, dws := launchPkt, ctx := 0, num := 1 }

/-- Its machine before the launch is checked, and as a ready head. -/
def launching (r : Option Nat) : State :=
  { queued0 {} { headed launchPkt with ready := r } with
    mem := pageTables imageCells
    pkgs :=
      [(0, { ctxs := [(0, 2 ^ 127 + 1 * 2 ^ 64 + 0x10000)], queues := [(0, { headed launchPkt with ready := r })], grids := [launchGrid] })] }

theorem readImage_of (s : State) (p : Page) (va : Nat) (img : List Nat) (h : walk s 0 0 0 = .ok p) (hb : p.bits = 21) (hc : pteCf p.pte = false) (hl : va + 256 ≤ 2 ^ 21)
    (hp : s.poison = []) (hr : readBytes s (p.pa + va) 256 = img) (hs : imgSize img = 256) (ok : imageOk img = true) : readImage s 0 0 va = some img := by
  have h1 : readClean s 0 0 va 256 = some img := by
    unfold readClean
    rw [hp, readVirt_page s p va 256 h hb hc hl, hr]
    rfl
  unfold readImage
  rw [h1]
  simp [hs, h1, ok]

/-- The lanes after each of the first three of the four blocks that the image's digest takes. -/
def shaLanes : List (List Word64) :=
  [[0x3DDF0C9AAF7081C3, 0xFCD1FB008C1B9733, 0xDB777839D4F8A850, 0x3B6E9CEB9F01180B, 0x3012B61A7C9775D2, 0x94F3C70D977248D3, 0x138CE9FAEEC37BE1,
   0xF5A51A03E2DDC943, 0x427D947516BF3C84, 0x6A9CEF593440719A, 0x3AAE1A8DCD3A7B53, 0x93A3995A69DE363A, 0xA2750B5FFADF1E53, 0x555B78871CF3FD0C,
   0x763975F0F9DBBF7D, 0x59A4FC8457470C49, 0x59BEE3DA43D50D33, 0xD6D1F4EC6CE4ACBE, 0x633097F6A0EB77F4, 0x3F368A4069AEC44D, 0xF423073E43D4F36C,
   0x632C42C0970C38D2, 0xFB26CEE83EC01B24, 0xF36C2356E9144C14, 0xCAB32BCB0B7B5BDF],
   [0x376EE7BE12E2667B, 0x6265ED53B1346986, 0x5ED028E6BEF23FAF, 0xC0C14133264471AC, 0xD52D7AAEFA288BC4, 0x740767AD1A0F6E69, 0xB89BE32DD5F9DAA4,
   0xA5DA9223DE71A086, 0x35F2FF7294AFDED0, 0xC7CBFDBCD0068D9B, 0xAD233D08E74E82E4, 0xD84CF4B56D5A351C, 0x3CB44734CC8C29E8, 0xBC8387E8845FE910,
   0xBD535AC60B3CFC14, 0x86485ACA9BEA97BA, 0x6A820F400A19996C, 0xCC1FA2D67792CA49, 0xE7CF4FF7F072420A, 0x4275CEB0E2EC2AF4, 0xBDDEE658108BE750,
   0xE379D6A2299A93AD, 0x5DE565E9996D5969, 0xC3D67C7CF2544D8A, 0xA9E03F137EDDC61D],
   [0x45ADD6508E116A8E, 0x6B5B810F0487DF8E, 0x3D04E003DB6EE09C, 0x8890876766CBAD4E, 0x59FC21B52A5C197E, 0x54D68256CF51A68C, 0xD43A8EC7F31F6B0F,
   0xE12BB045085E28E4, 0xA67381616DAAA106, 0x3A89EBDC9BF1C890, 0x7686EBB0F58333E7, 0xAEC601635DF4DCE3, 0x6223C1DAA9A472B3, 0xD22CBCF6C273E85,
   0x88E4D06F24AC4EC9, 0x8174580444F710AC, 0x515556882D446198, 0x9D5A5255C3E7F2E, 0xA0071174524DB987, 0xC5AAF5BCD985B422, 0xEDD10D538782856,
   0x9F44480264F4195, 0xA62224347DBE4829, 0xB053F96AA4D703BE, 0x547F221919EF1316]]

theorem shaTake_succ (n : Nat) (ws : List Nat) (a b : List Word64) (h : shaTake 1 ws a = b) : shaTake (n + 1) ws a = shaTake n (ws.drop 9) b := by rw [← h]; rfl

/-- The words of the four blocks. -/
def shaWords : List Nat := [0x3004e5a4a38, 0x10000000100, 0x0, 0x0, 0x0, 0x0, 0x0, 0x0, 0x1111111111111111, 0x0, 0x0, 0x0, 0x0, 0x0, 0x0, 0x0, 0x0, 0x0, 0x0, 0x0, 0x0, 0x0, 0x0, 0x0, 0x0, 0x0, 0x0, 0x0, 0x0, 0x0, 0x0, 0x0, 0x6, 0x0, 0x0, 0x8000000000000000]

theorem image0_block1 : shaTake 1 shaWords (List.replicate 25 0) = shaLanes.getD 0 [] := by decide +kernel
theorem image0_block2 : shaTake 1 (shaWords.drop 9) (shaLanes.getD 0 []) = shaLanes.getD 1 [] := by decide +kernel
theorem image0_block3 : shaTake 1 ((shaWords.drop 9).drop 9) (shaLanes.getD 1 []) = shaLanes.getD 2 [] := by decide +kernel

theorem image0_sha : sha3_512 (image0.take 0xC0 ++ List.replicate 64 0 ++ image0.drop 0x100) = (image0.drop 0xC0).take 64 := by
  have hw : (let m := image0.take 0xC0 ++ List.replicate 64 0 ++ image0.drop 0x100
    wordsOf 8 36 ((List.range 288).map fun i => m.getD i 0 + (if i = m.length then 6 else 0) + if i = 287 then 128 else 0)) = shaWords := by decide +kernel
  have hn : (image0.take 0xC0 ++ List.replicate 64 0 ++ image0.drop 0x100).length / 72 + 1 = 4 := by decide +kernel
  unfold sha3_512
  simp only [hn]
  rw [show 9 * 4 = 36 from rfl, show 4 * 72 = 288 from rfl, show 288 - 1 = 287 from rfl, hw, shaTake_succ 3 _ _ _ image0_block1, shaTake_succ 2 _ _ _ image0_block2,
    shaTake_succ 1 _ _ _ image0_block3]
  decide +kernel

theorem image0_ok : imgSize image0 = 256 ∧ imageOk image0 = true := by
  refine ⟨by decide, ?_⟩
  unfold imageOk
  simp only [image0_sha, decide_true, Bool.and_true]
  decide +kernel

theorem image_read : ∀ r ∈ [none, some 0], readImage (launching r) 0 0 0x30000 = some image0 := by
  have h : ∀ r ∈ [none, some 0], walk (launching r) 0 0 0 = .ok ⟨2 ^ 63 + 2 ^ 62 + 2 ^ 58 + 2 ^ 57, 0, 21⟩ ∧ (launching r).poison = [] ∧
      readBytes (launching r) (0 + 0x30000) 256 = image0 := by
    decide +kernel
  have hc : pteCf (2 ^ 63 + 2 ^ 62 + 2 ^ 58 + 2 ^ 57) = false := by decide
  exact fun r hr => let ⟨a, b, c⟩ := h r hr; readImage_of _ ⟨_, 0, 21⟩ _ _ a rfl hc (by decide) b c image0_ok.1 image0_ok.2

theorem wit_PacketEvents_launch : Head (launching none) .launchPacket launchPkt ∧ launchOk 0 0 (launching none) launchPkt = true := by
  have hi := image_read none (by decide)
  refine ⟨by unfold Head ReadsNothing; decide +kernel, ?_⟩
  unfold launchOk
  have hc : packetCtx ((launching none).queue 0 0) launchPkt = 0 := by decide +kernel
  rw [hc, show launchPkt.getD 2 0 = 0x30000 from rfl, hi]
  decide +kernel

theorem wit_GangsArePlacedResumedAndEnded_place :
    let s := launching (some 0)
    let x : Queue := { headed launchPkt with ready := some 0 }
    (∀ g ∈ nextSaved s 0 0, canResume s g = false) ∧ readyQueues s 0 0 = [(0, x)] ∧ effPri x s.tick = topPri s 0 0 ∧
    s.queue 0 0 = x ∧ packetCtx x launchPkt = 0 ∧ readImage s 0 0 (launchPkt.getD 2 0) = some image0 ∧ hoursFree s 0 image0 launchPkt = true ∧
    (bestOf (fun d => (freeCores s d).length) ((launchDies s 0 x.part launchPkt).filter (canTake s launchPkt))).isSome = true ∧
    (∃ g, (s.pkg 0).grids.find? (fun g => g.queue = 0 && g.idx = x.hidx) = some g ∧ g.next + 1 ≠ launchG launchPkt ∧
      ({ g with next := 1 } : Grid).next + 1 = launchG launchPkt) ∧ x.wr ≤ nextRd x :=
  ⟨by decide +kernel, by decide +kernel, by decide +kernel, by decide +kernel, by decide +kernel, image_read _ (by decide), by decide +kernel, by decide +kernel,
    ⟨_, rfl, by decide, by decide⟩, by decide⟩

/-- A ready launch whose image no page maps. -/
def unplaceable : State :=
  { queued0 {} { headed [1 + 2 ^ 33, 2, 2 ^ 21, 0, 0, 0, 0, 0, 0] with ready := some 0 } with mem := pageTables [] }

theorem wit_GangsArePlacedResumedAndEnded_none :
    (∀ g ∈ nextSaved unplaceable 0 0, canResume unplaceable g = false) ∧ readyQueues unplaceable 0 0 ≠ [] ∧ (∀ e ∈ readyQueues unplaceable 0 0,
      effPri e.2 unplaceable.tick = topPri unplaceable 0 0 → (readImage unplaceable 0 0 (2 ^ 21) = none → tryPlace 0 e.1 unplaceable = none)) ∧
    readClean unplaceable 0 0 (2 ^ 21) 256 = none := by
  refine ⟨by decide +kernel, by decide +kernel, ?_, by decide +kernel⟩
  have h : readyQueues unplaceable 0 0 = [(0, { headed [1 + 2 ^ 33, 2, 2 ^ 21, 0, 0, 0, 0, 0, 0] with ready := some 0 })] := by decide +kernel
  rw [h]
  intro e he _ hi
  obtain rfl : e = (0, { headed [1 + 2 ^ 33, 2, 2 ^ 21, 0, 0, 0, 0, 0, 0] with ready := some 0 }) := by simpa using he
  have hq : (unplaceable.queue 0 0).head = some [1 + 2 ^ 33, 2, 2 ^ 21, 0, 0, 0, 0, 0, 0] ∧ packetCtx (unplaceable.queue 0 0) [1 + 2 ^ 33, 2, 2 ^ 21, 0, 0, 0, 0, 0, 0] = 0 := by decide +kernel
  unfold tryPlace
  simp only [hq.1, hq.2]
  rw [show ([1 + 2 ^ 33, 2, 2 ^ 21, 0, 0, 0, 0, 0, 0] : List Nat).getD 2 0 = 2 ^ 21 from rfl, hi]

/-- A saved gang of one task of core 0 that is to be resumed. -/
def savedGang : Saved := { pkg := 0, gang := 1, part := 0, queue := 0, tasks := [{ core := 0, kind := 0, n := 0, task := task0 }], resume := true }

/-- A task whose streams have ended, the last of its grid. -/
def overTask : State :=
  { on .s { task0 with s := { task0.s with status := .ended }, v := { task0.v with status := .ended }, m := { task0.m with status := .ended }, c := { task0.c with status := .ended } } with
    pkgs := [(0, { grids := [{ queue := 0, idx := 0, dws := [1 + 2 ^ 32], ctx := 0, num := 0 }] })] }

/-- A machine with a saved gang whose area is mapped, or is not. -/
def resuming (save : Nat) : State :=
  { queued0 {} {} with saved := [{ savedGang with tasks := savedGang.tasks.map fun x => { x with task := { x.task with save := save } } }], cores := [], mem := pageTables [] }

theorem wit_GangsArePlacedResumedAndEnded_end :
    (∀ save ∈ [0, 2 ^ 21], let s := resuming save
     ∃ g ∈ s.saved, (nextSaved s 0 0).find? (canResume s) = some g ∧ canResume s g = true ∧ (g.tasks.map (·.core)).Nodup ∧
       ∀ x ∈ g.tasks, areaReads s 0 x.task = decide (save = 0)) ∧
    (nextSaved st0 0 0).find? (canResume st0) = none ∧ taskOver st0 0 = false ∧ taskOver overTask 0 = true ∧
    (∃ x g, TaskOn overTask 0 x ∧ coresWith (pkgOf 0) (fun y => gangOf y.id = gangOf x.id) overTask = [0] ∧
      (overTask.pkg (pkgOf 0)).grids.find? (fun g => g.queue = x.queue && g.idx = x.pidx) = some g ∧ g.ended + 1 = launchG g.dws) :=
  ⟨by decide +kernel, by decide +kernel, by decide +kernel, by decide +kernel, ⟨_, _, rfl, by decide +kernel, rfl, by decide⟩⟩

/-! ### Pre-emption, the hang timer, errors and spares -/

/-- A task with vesper point 7, a save area in a mapped page, and streams that have ended but the S stream. -/
def vesperTask : Task :=
  { task0 with vesp := [[7]], save := 2 ^ 20, v := { task0.v with status := .ended }, m := { task0.m with status := .ended }, c := { task0.c with status := .ended } }

/-- Its machine, with the partition's pre-emption registers. -/
def preempting (a : Args) (x : Task) (p : Part) : State :=
  { (ev a (on .s x)) with mem := pageTables [], pkgs := [(0, { ctxs := [(0, 2 ^ 127 + 1 * 2 ^ 64 + 0x10000)], parts := [(0, p)] })] }

theorem wit_VesperPointsAndPreemption_vesper :
    (∀ p ∈ [({ pm := 1 } : Part), {}], let s := preempting {} vesperTask p
      Issues g0 s ∧ (requested s = true ↔ p.pm = 1) ∧ (s.task.vesper 7).isSome = true ∧ parked s.task.v = true ∧ parked s.task.m = true ∧ parked s.task.c = true) := by
  unfold Issues
  decide +kernel

/-- The task, stopped at its vesper point. -/
def haltedTask : Task := { vesperTask with halt := some (1, 7) }

theorem virtCells_page (s : State) (p : Page) (va : Nat) (b : List Nat) (h : walk s 0 0 0 = .ok p) (hb : p.bits = 21)
    (hc : (pteCf p.pte || !pteW p.pte || pteCmp p.pte) = false) (hl : va + b.length ≤ 2 ^ 21) : (virtCells s 0 0 va b).isSome = true := by
  have hw : ∀ i < b.length, walk s 0 0 (va + i) = .ok ⟨p.pte, p.pa + (va + i), 21⟩ := by
    intro i hi
    unfold walk at h ⊢
    simp only [show ¬ 2 ^ 56 ≤ va + i by omega, show ¬ 2 ^ 56 ≤ 0 by omega, if_false] at h ⊢
    split at h
    · cases h
    · rw [if_neg ‹_›]
      exact walkGo_page s 0 (va + i) (by omega) 5 _ p (by omega) h hb
  have hm : ∀ (f : Nat × Nat → Option (Nat × Byte)) (l : List (Nat × Nat)), (∀ e ∈ l, (f e).isSome = true) → (l.mapM f).isSome = true := by
    intro f l
    induction l with
    | nil => intro _; rfl
    | cons a l ih =>
      intro hl
      obtain ⟨x, hx⟩ := Option.isSome_iff_exists.mp (hl a (by simp))
      obtain ⟨y, hy⟩ := Option.isSome_iff_exists.mp (ih fun e he => hl e (by simp [he]))
      simp [List.mapM_cons, hx, hy]
  unfold virtCells
  refine hm _ _ fun e he => ?_
  obtain ⟨x, i⟩ := e
  have hi : i < b.length := by
    have := List.mem_zipIdx he
    omega
  simp [hw i hi, hc]

theorem writeArea_page (s : State) (x : Task) (kind n : Nat) (chans : List Nat) (p : Page) (hx : x.save = 2 ^ 20 ∧ x.gang = 0 ∧ x.rank = 0 ∧ x.ctx = 0)
    (h3 : ((List.range 10).all fun i => savePage s 0 0 (2 ^ 20 + 0x10000 * i)) = true) (h : walk s 0 0 0 = .ok p) (hb : p.bits = 21)
    (hc : (pteCf p.pte || !pteW p.pte || pteCmp p.pte) = false) : (writeArea 0 0 x kind n chans s).isSome = true := by
  have ha : x.save + 0xA0000 * (x.gang * x.gsize + x.rank) = 2 ^ 20 := by rw [hx.1, hx.2.1, hx.2.2.1, Nat.zero_mul, Nat.add_zero]
  unfold writeArea
  rw [hx.2.2.2, ha, if_pos h3, Option.isSome_map]
  exact virtCells_page s p _ _ h hb hc (by rw [List.length_map, List.length_range]; decide)

theorem wit_VesperPointsAndPreemption_save : (writeAreas 0 [0] (preempting {} haltedTask { pm := 2 })).isSome = true := by
  have h1 : ((preempting {} haltedTask { pm := 2 }).core 0).task = some haltedTask := by rfl
  have h3 : ((List.range 10).all fun i => savePage (preempting {} haltedTask { pm := 2 }) 0 0 (2 ^ 20 + 0x10000 * i)) = true := by decide +kernel
  have h4 : walk (preempting {} haltedTask { pm := 2 }) 0 0 0 = .ok ⟨2 ^ 63 + 2 ^ 62 + 2 ^ 58 + 2 ^ 57, 0, 21⟩ := by decide +kernel
  have h5 : (pteCf (2 ^ 63 + 2 ^ 62 + 2 ^ 58 + 2 ^ 57) || !pteW (2 ^ 63 + 2 ^ 62 + 2 ^ 58 + 2 ^ 57) || pteCmp (2 ^ 63 + 2 ^ 62 + 2 ^ 58 + 2 ^ 57)) = false := by decide
  generalize preempting {} haltedTask { pm := 2 } = s at h1 h3 h4 ⊢
  unfold writeAreas
  rw [List.foldl_cons, List.foldl_nil, Option.bind_some, h1]
  exact writeArea_page s haltedTask _ _ _ ⟨_, 0, 21⟩ (by decide) h3 h4 rfl h5

theorem wit_VesperPointsAndPreemption_gang :
    (∀ pm ∈ [1, 2], ((preempting {} haltedTask { pm := pm }).part 0 0).pm = pm) ∧ (preempting {} haltedTask {}).arg.v % 2 = 0 ∧
    InGang (preempting {} haltedTask {}) 0 0 0 0 haltedTask ∧ gangCores (preempting {} haltedTask {}) 0 0 0 = [0] ∧
    gangCores (preempting {} haltedTask {}) 0 0 1 = [] ∧ (preempting { v := 1 } haltedTask {}).arg.v % 2 = 1 ∧ haltedTask.save ≠ 0 ∧ task0.save = 0 ∧
    (let s : State := { ev { v := 2 ^ 9 + 1 } {} with saved := [savedGang] }
     ∃ g ∈ s.saved, g.pkg = 0 ∧ g.part = 0 ∧ g.gang = s.arg.v / 512) ∧
    (∀ t ∈ [19999, 20000], (20000 ≤ t ↔ ((preempting {} vesperTask { pm := 1 }).part 0 0).since + 1000 * ((preempting {} vesperTask { pm := 1 }).part 0 0).bnd ≤ t)) ∧
    (let x : Task := { vesperTask with s := { vesperTask.s with status := .stopped 4 .retry } }
     taskStopped x = true ∧ faulted x = true ∧ x.halt = none ∧ InGang (preempting {} x { pm := 1 }) 0 0 0 0 x) ∧
    taskStopped haltedTask = true ∧ taskStopped vesperTask = false ∧ taskQuiet (preempting {} haltedTask {}) 0 haltedTask = true ∧
    taskQuiet (preempting {} haltedTask {}) 0 { haltedTask with s := { haltedTask.s with flights := [{ due := 0, iss := 0, seq := 0, land := .none, wait := 1 }] } } = false := by
  unfold InGang TaskOn
  exact ⟨by decide, by decide, ⟨rfl, by decide, by decide, by decide⟩, by decide +kernel, by decide +kernel, by decide, by decide, by decide, by decide, by decide,
    ⟨by decide, by decide, by decide, rfl, by decide, by decide, by decide⟩, by decide +kernel, by decide +kernel, by decide +kernel, by decide +kernel⟩

theorem wit_HangTimerReloadsOrResetsItsPartition :
    (∀ r ∈ [5, 6], let s := { preempting {} haltedTask { run := some r } with tick := 5 }
      (s.part 0 0).run = some r ∧ s.tick = 5 ∧ midnightBusy s 0 0 = false) ∧ 0 ∈ partDies (preempting {} haltedTask {}) 0 0 ∧
    (let s := on .s haltedTask
     let p : Pkg := { queues := [(0, { en := true, opens := [(0, [1])] })], grids := [{ queue := 0, idx := 0, dws := [1], ctx := 0, num := 1 }], parts := [(0, { run := some 0 })] }
     let u : State := { s with pkgs := [(0, p)] }
     midnightBusy u 0 0 = true ∧ (u.part 0 0).run = some u.tick) := by
  decide +kernel

/-- A core with its error history. -/
def erring (l : List Nat) (c : Core) : State := { cores := [(0, { c with errs := l })], tick := 10 ^ 9, arg := { loc := .reg 0 .s 3 } }

theorem wit_ErrorsPoisonAndUnitsAreSpared :
    (erring [] {}).arg.loc = .reg 0 .s 3 ∧ ((erring [1, 1, 1] {}).tick :: ((erring [1, 1, 1] {}).core 0).errs.filter fun e => decide (10 ^ 9 < e + 10 ^ 9)).length = 4 ∧
    ((erring [1, 1, 0] {}).tick :: ((erring [1, 1, 0] {}).core 0).errs.filter fun e => decide (10 ^ 9 < e + 10 ^ 9)).length = 3 ∧
    (∀ s ∈ [erring [] {}, erring [] { failed := true, task := some task0 }, erring [] { failed := true, out := true }],
      (s.core 0).failed = false ∨ (s.core 0).task.isSome = true ∨ (s.core 0).out = true) ∧
    (∀ n ∈ [0, 1], let s : State := { erring [] { failed := true } with dies := [(0, { spares := n })] }
      (s.core 0).failed = true ∧ (s.core 0).task = none ∧ (s.core 0).out = false ∧ (s.die (dieOf 0)).spares = n) ∧
    (∀ e ∈ [([], 1), ([1, 1, 1], 4)], let s : State := { chans := [(0, { errs := e.1 })], tick := 10 ^ 9, arg := { loc := .hbm 0 } }
      columnChan 0 = 0 ∧ (s.tick :: (s.chan 0).errs.filter fun e => decide (s.tick < e + 10 ^ 9)).length = e.2 ∧ (s.chan 0).state ≠ 3) ∧
    (∀ d ∈ [true, false], let s := ev { loc := .l1 0 16 } ({ cores := [(0, { l1 := [(1, d)] })] })
      (16 / 16, d) ∈ (s.core 0).l1 ∧ ((16 / 16, true) ∈ (s.core 0).l1 ↔ d = true)) := by
  decide +kernel

/-! ### Registers of the host and of the rack controller -/

/-- A package with a task, and what it holds. -/
def hosting (a : Args) (x : Task) (p : Pkg) : State := { ev a (on .s x) with pkgs := [(0, p)] }

theorem wit_TranslationAndFaultRegisters :
    (∀ x ∈ [none, some 5], ((hosting {} task0 { xinv := x }).pkg 0).xinv = x) ∧ accessesDone (hosting {} task0 { xinv := some 0 }) 0 (0 / 2 ^ 8 % 2 ^ 16) = true ∧
    accessesDone (stores 1 (hosting {} task0 { xinv := some 0 })) 0 (0 / 2 ^ 8 % 2 ^ 16) = false ∧
    (let y : Task := { task0 with s := { task0.s with status := .stopped 4 .retry } }
     let s := hosting { v := 4 * 2 ^ 32 } y {}
     TaskOn s 0 y ∧ y.ctx = s.arg.v / 2 ^ 16 % 2 ^ 16 ∧ outstanding s 0 (s.arg.v / 2 ^ 32 % 2 ^ 32) y = true ∧ (y.str .s).status = .stopped (s.arg.v / 2 ^ 32 % 2 ^ 32) .retry ∧
     namesFault s 0 (s.arg.v / 2 ^ 16 % 2 ^ 16) (s.arg.v / 2 ^ 32 % 2 ^ 32) = true) ∧
    namesFault (hosting {} task0 {}) 0 0 0 = false := by
  unfold TaskOn
  decide +kernel

theorem wit_ConfigurationRegisters :
    (∀ v ∈ [64, 65], (hosting { v := v, k := 15 } task0 {}).arg.v % 128 = v) ∧ (hosting { k := 15 } task0 {}).arg.k < 16 ∧ 16 ≤ (hosting { k := 16 } task0 {}).arg.k ∧
    ((hosting {} task0 {}).pkg 0).kvEn = false ∧ ((hosting {} task0 { kvEn := true }).pkg 0).kvEn = true ∧
    busyCtx (hosting {} task0 {}) 0 (fun c => decide (c = 0)) true = true ∧ busyCtx (hosting {} task0 {}) 0 (fun c => decide (c = 1)) true = false ∧
    ((2 ^ 127 / 2 ^ 127 % 2 = 1) ∧ ctxEntry (hosting {} task0 {}) 0 1 / 2 ^ 127 = 0) ∧ (∀ b ∈ [0, 1], (hosting { v := b * 2 ^ 31 } task0 {}).arg.v / 2 ^ 31 % 2 = b) := by
  decide +kernel

/-- A dirty line of stack 15 in the L1 of core 0. -/
def dirtied : State := (hosting { v := 64, k := 15 } task0 {}).modCore 0 fun c => { c with l1 := [(15 * 2 ^ 29, true), (15 * 2 ^ 29 + 1, false)] }

theorem wit_ConfigurationRegisters_dirty :
    dirtyLines (hosting { v := 64, k := 15 } task0 {}) 0 15 = [] ∧ dirtyLines dirtied 0 15 = [15 * 2 ^ 29] ∧ deviceIdle (hosting {} task0 {}) 0 = false ∧
    deviceIdle ({} : State) 0 = true ∧ (dirtied.pkg 0).kvEn = false := by
  decide +kernel

/-- A package counter. -/
def counted0 (e : Ec) : State := hosting {} task0 { ec := [(0, e)] }

theorem wit_HostEventCounters :
    (∀ b ∈ [false, true], ((counted0 { wrapped := b }).ec (counted0 {}).arg.ec).wrapped = b ∧ ((counted0 { wrapped := b }).ec (counted0 {}).arg.ec).kind = 0) ∧
    ((counted0 { wrapped := true, kind := 1 }).ec (counted0 {}).arg.ec).kind = 1 := by
  decide +kernel

theorem wit_PowerControlKeepsMeansAndThrottles :
    (∀ e ∈ [(4401, true), (4400, true), (4313, true), (4312, true), (9000, false)], let s := hosting { k := e.1 % 8192, j := e.1 / 8192 * 8191 } task0 { power := { mem := 1, hist := [e.1] } }
      let p := (s.pkg 0).power
      let w := s.arg.k % 8192 + s.arg.j % 8192 + s.arg.n % 8192 + s.arg.v % 8192
      let last := ((w :: p.hist).take 1000).take p.win
      p.due ≤ s.tick ∧ 1 ≤ p.win ∧ 1 ≤ p.rsp ∧ p.mem ≤ 32 ∧ p.clk ≤ 48 ∧ (e.2 = true → min 8191 (last.sum / last.length) = e.1) ∧ (e.2 = false → p.cap < min 8191 (last.sum / last.length))) ∧
    (4400 < 4401 ∧ 4400 ≤ 4400 ∧ 98 * 4400 < 4313 * 100 ∧ 4312 * 100 ≤ 98 * 4400) ∧ (hosting {} task0 { power := { due := 1 } }).tick < ((hosting {} task0 { power := { due := 1 } }).pkg 0).power.due := by
  decide +kernel

/-- A lease of die 0 with its frames, which the host reaches through its window. -/
def windowed : State := { hosting {} task0 {} with dies := [(0, { leases := [(0, { ctx := 0, base := 0, size := 1, frames := (List.range 16).map (· * 2 ^ 16), units := [], expiry := 1 })] })] }

theorem wit_RegisterAccessesOfHostAndRack :
    ((hosting {} task0 { atBusy := true }).pkg 0).atBusy = true ∧ ((hosting {} task0 {}).pkg 0).atBusy = false ∧ (∀ b ∈ [false, true], (hosting { flag := b } task0 {}).arg.flag = b) ∧
    answers (hosting {} task0 { health := 2, why := 1 }) 0 (0x10800000000 + 0x9008) true = false ∧
    (∀ k ∈ [0x2008, 0x4000, 0x4000 + 8 * 63], answers (hosting {} task0 {}) 0 (0x10800000000 + k) true = true) ∧
    ((hosting {} task0 { on := false }).pkg 0).on = false ∧ mctpServes false 0xAFF8 = false ∧ mctpServes false 0xB000 = true ∧ mctpServes false 0x9000 = true ∧
    (∀ v ∈ [999, 1000, 4400, 4401], v % 2 ^ 13 = v) ∧ ((2 ^ 40 - 1 < hbmTop) ∧ hbmTop ≤ 2 ^ 40) ∧ answers (hosting {} task0 {}) 0 (2 ^ 40 - 1) true = true := by
  decide +kernel

theorem wit_RegisterAccessesOfHostAndRack_leases :
    (∀ off ∈ [0, 2 ^ 34 - 1], answers windowed 0 (hbmTop + off) true = true) ∧ windowed.poison = [] ∧
    hostLease windowed 0 (2 ^ 20 - 8) 8 = some ((List.range 8).map (2 ^ 20 - 8 + ·)) ∧ hostLease windowed 0 (2 ^ 20 - 7) 8 = none ∧ hostLease windowed 0 (2 ^ 25) 1 = none ∧
    windowed.chans = [] ∧
    (let s : State := { windowed with chans := [((chanBank windowed (2 ^ 20 - 8)).1, { state := 2, live := true, drawn := [(0, 16)] })] }
     chanBusy s (2 ^ 20 - 8) = true ∧ hostLease s 0 (2 ^ 20 - 8) 8 = some ((List.range 8).map (2 ^ 20 - 8 + ·))) := by
  decide +kernel

theorem wit_StartUpAndPowerLoss : (hosting { k := 1 } task0 {}).arg.k ≠ 0 ∧ min 4 4 = 4 := by
  decide

/-! ### Words, steps and what every step keeps -/

theorem wit_DecodingAnEncodedInstructionGivesItBack :
    Instr.wf .s (.add ⟨15, true⟩ 63 63 63) = true ∧ Instr.wf .v (.vadd ⟨15, true⟩ 31 31 31) = true ∧ Instr.wf .m (.mmMac 7 7 7 3) = true ∧
    Instr.wf .c (.plSetup 15 15 7) = true ∧ Instr.bankWf .bdot { w := 255, b := 63, r := 0x8000, col := 152, os := 15, sq := 4095 } = true := by
  decide

theorem wit_AWordHasOneMeaning : 0xF0001402 < 2 ^ 32 ∧ decode .s 0xF0001402 = .ok (.semWait g0 5 2) ∧
    decodeBank 0x4C00000000000000 = .ok (.bend, {}) := by
  decide +kernel

/-- The machine about to come to an S word that stands in its instruction cache. -/
def stepping (w : Nat) : State := { cores := [(0, { task := some task0, icache := [(0, w)] })], sched := [.stream 0 .s] }

/-- The machine about to come to the one word of channel 0's table, `bend`. -/
def sequencing : State := { chans := [(0, { state := 2, live := true, table := [0x4C00000000000000] })], sched := [.chan 0] }

/-- The machine about to come to an S stream that a late result has frozen. -/
def slowed : State :=
  { stepping 0 with
    cores := [(0, { task := some { task0 with s := { task0.s with frozen := some 0xA, flights := [{ due := 0, iss := 0, seq := 3, land := .regs [(5, 7)], wait := 10 }] } }, icache := [(0, 0)] })] }

theorem wit_AStepRunsTheDecodedInstruction :
    (let s := stepping 0x90000000
     let a := (reached (.stream 0 .s) [] s).at 0 .s
     Moves s (.stream 0 .s) [] ∧ a.task.halt = none ∧ a.task.start ≤ a.tick ∧ a.str.status = .running ∧ a.str.redo = false ∧ lateCause a.str = none ∧ a.str.occ = none ∧
       (a.pkg (pkgOf 0)).power.clk = 0 ∧ a.str.pc % 4 = 0 ∧ a.str.pc + 4 ≤ a.str.regLen ∧
       a.curCore.icache.find? (fun l => l.1 = icKey a.task.ctx (a.task.image + a.str.regOff + a.str.pc)) = some (0, 0x90000000) ∧
       ErrLoc.icache 0 ((a.task.image + a.str.regOff + a.str.pc) / 8) ∉ a.poison ∧ decode .s 0x90000000 = .ok (.sysEnd g0)) ∧
    (∀ e ∈ [(({ cores := [(0, { task := some task0 })], sched := [.stream 0 .s] } : State), 1), (slowed, 10)],
      let a := (reached (.stream 0 .s) [] e.1).at 0 .s
      Moves e.1 (.stream 0 .s) [] ∧ a.task.halt = none ∧ a.task.start ≤ a.tick ∧ a.str.status = .running ∧ a.str.redo = false ∧ (issueCauses a).min? = some e.2 ∧
        (a.str.frozen.isSome = true ∨ fetchMiss a = true)) ∧
    Moves { stepping 0 with sched := [.matrix 0] } (.matrix 0) [] ∧
    (let a := reached (.chan 0) [] sequencing
     Moves sequencing (.chan 0) [] ∧ (a.pkg (0 / 512)).power.mem = 0 ∧ (a.chan 0).state = 2 ∧ (a.chan 0).live = true ∧ (a.chan 0).held = false ∧
       decodeBank (((atBankWord 0 a).chan 0).table.getD ((atBankWord 0 a).chan 0).widx 0) = .ok (.bend, {})) ∧
    (let s : State := { sched := [.event 0], agenda := [(.taskEnd, { unit := 5 })] }
     Moves s (.event 0) [] ∧ s.agenda[0]? = some (.taskEnd, { unit := 5 })) ∧ Moves { sched := [.clock] } .clock [] ∧
    mayMove { stepping 0 with moved := [Mover.key (.stream 0 .s)], sched := [] } (.stream 0 .s) = false := by
  unfold Moves
  decide +kernel

/-- A machine whose next mover is the clock. -/
def ticking : State := { st0 with sched := [.clock], rank := 9, moved := (unitMovers st0).map Mover.key }

theorem wit_NoStepStopsTheMachine : EventsOnly ticking ∧ EventsOnly { ticking with agenda := [(.taskEnd, {}), (.pageWalk, {})] } := by
  refine ⟨fun e he => (by cases he), fun e he => ?_⟩
  simp only [List.mem_cons, List.not_mem_nil, or_false] at he
  rcases he with rfl | rfl <;> rfl

theorem clock_steps (s : State) (h : s.sched = [.clock]) (hm : mayMove { s with sched := [] } .clock = true) :
    Steps s (clockTick (reached .clock [] s)) := by
  unfold Steps step nextMover
  simp only [h, hm, if_true]
  rfl

theorem wit_TheClockNeverRunsBack : Steps ticking (clockTick (reached .clock [] ticking)) := clock_steps _ rfl (by decide +kernel)

theorem wit_EveryStepKeepsEventsOnly : EventsOnly ticking ∧ Steps ticking (clockTick (reached .clock [] ticking)) :=
  ⟨wit_NoStepStopsTheMachine.1, wit_TheClockNeverRunsBack⟩

theorem wit_EveryStepKeepsMemoryCanonical :
    Memory.wf (pageTables []) = true ∧ Steps { ticking with mem := pageTables [] } (clockTick (reached .clock [] { ticking with mem := pageTables [] })) :=
  ⟨by decide, clock_steps _ rfl (by decide +kernel)⟩

/-! ### Words that the spec writes out (sections 3, 5 to 15) -/

theorem test_words_scalar :
    decode .s 0x04E28C38 = .ok (.add ⟨3, true⟩ 5 6 7) ∧ decode .v 0x0C010480 = .ok (.addi g0 2 2 128) ∧ decode .s 0x60048744 = .ok (.ld g0 9 3 2 1 4) := by
  decide +kernel

theorem test_words_synchronisation :
    decode .s 0xF0001402 = .ok (.semWait g0 5 2) ∧ decode .s 0xF0011401 = .ok (.semSig g0 5 1) ∧ decode .s 0xF002A003 = .ok (.semTry g0 40 3) ∧
    decode .s 0xF003A009 = .ok (.semRd g0 40 9) := by
  decide +kernel

theorem test_words_vector :
    decode .v 0x84008301 = .ok (.vstg g0 0x8301) ∧ decode .v 0x80050005 = .ok (.vloop g0 0 5 5) ∧ decode .v 0x7E102000 = .ok (.vld ⟨8, false⟩ 16 2 0) ∧
    decode .v 0x5E538806 = .ok (.vexp2 ⟨9, false⟩ 19 17) ∧ decode .v 0x7E943001 = .ok (.vst ⟨10, false⟩ 20 3 0) := by
  decide +kernel

theorem test_words_matrix :
    decode .m 0x500E5400 = .ok (.mmMac 3 4 5 1) ∧ decode .m 0x54001000 = .ok (.mmMul 0 0 1 0) ∧ decode .m 0x5C0B0800 = .ok (.mmDrain 2 6 1 0) ∧
    decode .m 0x60040102 = .ok (.mmSetd 1 0x102) ∧ decode .m 0x68018000 = .ok (.mmAdv 3) ∧ decode .m 0x70100000 = .ok (.mmMov 4 0) ∧
    decode .m 0x58140000 = .ok (.mmZero 5) ∧ decode .m 0x64040102 = .ok (.mmGetd 1 0x102) ∧ decode .m 0x6C050000 = .ok (.mmLdacc 1 2) ∧
    decode .m 0x5C0B6000 = .error .c03 ∧ decode .m 0x522E5400 = .error .c03 := by
  decide +kernel

theorem test_words_memory :
    decode .s 0x88000002 = .ok (.fenceAcq g0 2) ∧ decode .s 0x88000027 = .ok (.fenceAr g0 7) ∧ decode .s 0x78030634 = .ok (.amAddW g0 6 3 3 4) ∧
    decode .s 0x7C041497 = .ok (.amCasD g0 8 10 1 7) ∧ decode .c 0x68048A00 = .ok (.fenceArmSig 2 4 5) ∧ decode .c 0x68024C80 = .ok (.fenceArmWr 1 2 6) := by
  decide +kernel

theorem test_words_copy_stream :
    decode .c 0x640A4600 = .ok (.l2Lease 5 2 3) ∧ decode .c 0x64024606 = .ok (.l2InvL1 1 2 3) ∧ decode .c 0x540A4000 = .ok (.cpStat 5 2) ∧
    decode .c 0x5C068000 = .ok (.nmStart 3 4) ∧ decode .c 0x600C4602 = .ok (.kvApp 6 2 3) ∧ decode .c 0x60126046 = .ok (.kvStatGen 9 3) ∧
    decode .c 0x58048040 = .ok (.plSetup 2 4 1) ∧ decode .c 0x5806A044 = .ok (.plRedo 3 5 1) := by
  decide +kernel

theorem test_words_system :
    decode .s 0x90000000 = .ok (.sysEnd g0) ∧ decode .s 0x90028C02 = .ok (.sysArg g0 5 6) ∧ decode .s 0x94000012 = .ok (.trap g0 0x12) ∧
    decode .s 0x98000003 = .ok (.vesper g0 3) ∧ decode .s 0x8C028C00 = .ok (.ecRd g0 5 6) ∧ decode .s 0x8C000C39 = .ok (.ecCfg g0 6 7) := by
  decide +kernel

theorem test_words_bank :
    decodeBank 0x140C000000000000 = .ok (.bqld, { w := 3 }) ∧ decodeBank 0x042C600280000000 = .ok (.bact, { w := 11, b := 6, r := 40 }) ∧
    decodeBank 0x1810500280800030 = .ok (.bdot, { w := 4, b := 5, r := 40, col := 8, sq := 3 }) ∧
    decodeBank 0x1C18500000600040 = .ok (.bemit, { w := 6, b := 5, col := 6, sq := 4 }) ∧ decodeBank 0x5000000000000070 = .ok (.bmx, { sq := 7 }) ∧
    decodeBank 0x4C00000000000000 = .ok (.bend, {}) := by
  decide +kernel

/-! ### WellFormed refuses one ill-formed term for each check -/

theorem test_wf_fields :
    Instr.wf .s (.add ⟨16, false⟩ 0 0 0) = false ∧ Instr.wf .s (.add g0 64 0 0) = false ∧ Instr.wf .s (.addi g0 0 0 512) = false ∧ Instr.wf .s (.li g0 0 32768) = false ∧
    Instr.wf .s (.pand g0 16 0 0) = false ∧ Instr.wf .v (.vadd g0 32 0 0) = false ∧ Instr.wf .c (.plSetup 0 0 8) = false ∧ Instr.wf .s (.vesper g0 32768) = false ∧
    Instr.wf .s (.ld g0 0 0 4 0 0) = false ∧ Instr.wf .s (.ld g0 0 0 0 2 0) = false ∧ Instr.wf .s (.loop g0 2 0 1) = false ∧ Instr.wf .s (.loop g0 0 0 16384) = false ∧
    Instr.wf .s (.loopi g0 0 1024 1) = false ∧ Instr.wf .s (.cmpi g0 1 0 0 128) = false ∧ Instr.wf .s (.brp g0 0 262144) = false ∧ Instr.wf .s (.semWait g0 0 1024) = false ∧
    Instr.wf .c (.cpStat 0 16) = false := by
  decide

theorem test_wf_maps :
    Instr.wf .m (.add g0 0 0 0) = false ∧ Instr.wf .v (.add g0 16 0 0) = false ∧ Instr.wf .c (.vadd g0 0 0 0) = false ∧ Instr.wf .s (.mmZero 0) = false ∧
    Instr.wf .v (.sysEnd g0) = false ∧ Instr.wf .s .taskEnd = false ∧ Instr.wf .s .bend = false := by
  decide

theorem test_wf_subcauses :
    Instr.wf .s (.cmp g0 1 0 0 8) = false ∧ Instr.wf .s (.cmp g0 0 0 0 0) = false ∧ Instr.wf .s (.pset g0 0) = false ∧ Instr.wf .s (.loopi g0 0 1 0) = false ∧
    Instr.wf .s (.csrr g0 0 511) = false ∧ Instr.wf .s (.semSig g0 0 0) = false ∧ Instr.wf .s (.gbArr g0 16) = false ∧ Instr.wf .s (.fenceTlw g0 16 0 0) = false ∧
    Instr.wf .s (.fenceTlw g0 0 10 0) = false ∧ Instr.wf .s (.ld g0 0 0 3 1 0) = false ∧ Instr.wf .s (.ldAcq g0 0 0 0 10) = false ∧ Instr.wf .s (.amCasW g0 1 0 0 0) = false ∧
    Instr.wf .v (.vstg g0 65535) = false ∧ Instr.wf .m (.mmDrain 0 0 12 0) = false ∧ Instr.wf .c (.cpStat 0 4) = false ∧ Instr.wf .c (.fenceArmWr 0 0 1) = false := by
  decide

theorem test_wf_bank :
    Instr.bankWf .bend { w := 256 } = false ∧ Instr.bankWf .bact { b := 64 } = false ∧ Instr.bankWf .bact { r := 0x8000 } = false ∧ Instr.bankWf .bdot { r := 0x8001 } = false ∧
    Instr.bankWf .bdot { col := 1 } = false ∧ Instr.bankWf .bdot { col := 32 } = false ∧ Instr.bankWf .bdot { col := 256 } = false ∧ Instr.bankWf .bemit { col := 128 } = false ∧
    Instr.bankWf .bwr { col := 32 } = false ∧ Instr.bankWf .bemit { os := 16 } = false ∧ Instr.bankWf .bemit { sq := 4096 } = false ∧ Instr.bankWf .bqld { q := 16 } = false ∧
    Instr.bankWf .bwact { wk := 65536 } = false ∧ Instr.bankWf .bclr { all := 2 } = false ∧ Instr.bankWf .bclr { all := 1, b := 1 } = false ∧
    Instr.bankWf .bloop { lp := 4 } = false ∧ Instr.bankWf .bloop { tgt := 1024 } = false ∧ Instr.bankWf .bloop { cnt := 256 } = false ∧ Instr.bankWf .bend { b := 1 } = false ∧
    Instr.bankWf .taskEnd {} = false := by
  decide

theorem test_copy_stream_has_no_guard_there :
    decode .c 0x04028C38 = .ok (.add g0 5 6 7) ∧ decode .c 0x04E28C38 = .error .c03 ∧ decode .c 0x0C610480 = .error .c03 ∧
    Instr.wf .c (.add ⟨3, true⟩ 5 6 7) = false ∧ Instr.wf .v (.add ⟨3, true⟩ 5 6 7) = true := by
  decide +kernel

theorem test_decode_rejects_by_name :
    (decode .s 0xFC000000).toOption = none ∧ (decodeBank 0xFC00000000000000).toOption = none := by
  decide +kernel

end Sys2Proof.Tests
end

section
/-!
PROOFS. What reading a guard changes, said once; a result of a latency class in the statements' words; and the proofs about the control
and status registers and the start-up.
-/

namespace Sys2Proof.Machine

open Claim

/-! ### Reading a predicate and a guard (R62, R140) -/

/-- Only what is made of the resident task counts for a change of it. -/
theorem State.modTask_congr (s : State) {f g : Task → Task} (h : f s.task = g s.task) : s.modTask f = s.modTask g := by
  have hc : (s.core s.cur.core).task.map f = (s.core s.cur.core).task.map g := by
    unfold State.task at h
    cases ht : (s.core s.cur.core).task with
    | none => rfl
    | some t => simpa [ht] using h
  exact congrArg (fun t => s.modCore s.cur.core fun c => { c with task := t }) hc

theorem readPred_task (k p wall choice : Nat) (t : Task) :
    ∃ view prop, (readPred k p wall choice t).2 = { t with pview := view, pprop := prop } := by
  unfold readPred
  dsimp only
  split
  · exact ⟨t.pview, t.pprop, rfl⟩
  · split
    · exact ⟨t.pview, t.pprop, rfl⟩
    · split
      · exact ⟨t.pview, t.pprop, rfl⟩
      · exact ⟨_, _, rfl⟩

/-- Reading a guard changes what the stream has seen of its predicate and the count of free choices, or nothing. -/
theorem guardRead_cases (g : Guard) (s : State) :
    (guardRead g s).2 = s ∨ ∃ view prop n,
      (guardRead g s).2 = { s.modTask (fun t => { t with pview := view, pprop := prop }) with nfree := n } := by
  unfold guardRead
  split
  · exact .inl rfl
  · unfold readP
    dsimp only
    split
    · exact .inl rfl
    · obtain ⟨view, prop, h⟩ := readPred_task s.cur.st.num g.p s.wall (Config.freeChoice s.nfree) s.task
      exact .inr ⟨view, prop, s.nfree + 1, by rw [s.modTask_congr (f := fun _ => _) (g := fun t => { t with pview := view, pprop := prop }) h]⟩

theorem guardRead_task (g : Guard) (s : State) (h : s.resident = true) :
    ∃ view prop, (guardRead g s).2.task = { s.task with pview := view, pprop := prop } := by
  rcases guardRead_cases g s with e | ⟨view, prop, n, e⟩ <;> rw [e]
  · exact ⟨s.task.pview, s.task.pprop, rfl⟩
  · exact ⟨view, prop, s.task_modTask _ h⟩

@[simp] theorem guardRead_cur (g : Guard) (s : State) : (guardRead g s).2.cur = s.cur := by
  obtain ⟨-, hcur, -⟩ := guardRead_frame g s
  exact hcur

@[simp] theorem guardRead_poison (g : Guard) (s : State) : (guardRead g s).2.poison = s.poison := by
  obtain ⟨-, -, -, hpoison, -⟩ := guardRead_frame g s
  exact hpoison

@[simp] theorem guardRead_tick (g : Guard) (s : State) : (guardRead g s).2.tick = s.tick := by
  rcases guardRead_cases g s with e | ⟨view, prop, n, e⟩ <;> rw [e]
  rfl

theorem guardRead_str (g : Guard) (s : State) (h : s.resident = true) : (guardRead g s).2.str = s.str := by
  obtain ⟨view, prop, e⟩ := guardRead_task g s h
  unfold State.str
  rw [e, guardRead_cur]
  cases s.cur.st <;> rfl

theorem guardRead_reg (g : Guard) (s : State) (h : s.resident = true) (r : Nat) : (guardRead g s).2.reg r = s.reg r := by
  unfold State.reg
  rw [guardRead_str g s h]

theorem State.curCore_modTask (s : State) (f : Task → Task) :
    (s.modTask f).curCore = { s.curCore with task := s.curCore.task.map f } := s.core_modCore s.cur.core _

@[simp] theorem guardRead_tags (g : Guard) (s : State) : (guardRead g s).2.curCore.tags = s.curCore.tags := by
  rcases guardRead_cases g s with e | ⟨view, prop, n, e⟩ <;> rw [e]
  show (s.modTask _).curCore.tags = _
  rw [State.curCore_modTask]

/-! ### The statements' words for an issue -/

/-- A result of a latency class joins the results in flight as the statements write it (R91, R98, R99). -/
theorem result_eq_pending (cls : Nat) (l : Land) (fl : Nat) (s : State) : result cls l fl s = pending 0 cls l fl s := by
  unfold result resultAfter pending Task.interlocked Task.lat
  by_cases h : Config.latCycles (s.task.lata / 16 ^ cls % 16) < Config.latCycles (Config.latn / 16 ^ cls % 16) <;> simp [h, State.post]

/-- A guarded stream instruction that issues has its effect after the guard is read (R62). -/
theorem onStream_guarded_of_issues {g : Guard} {s : State} (h : Issues g s) (f : State → State) :
    onStream s (guarded g f) = .next (f (guardRead g s).2) := by
  obtain ⟨hres, hguard⟩ := h
  rw [onStream_of_resident s _ hres, guarded_of_true g f s hguard]

/-- Registers that are clean before a guard is read stop nothing after it (R428). -/
theorem reading_guardRead_of_clean {l : List Nat} {s : State} (h : Clean l s) (g : Guard) (f : State → State) :
    reading l f (guardRead g s).2 = f (guardRead g s).2 :=
  reading_of_clean l f _ (by simpa [Clean] using h)

/-! ### Control and status registers (R9, R108 to R110, R163) -/

theorem exec_csrr (g : Guard) (d n : Nat) (s : State) :
    exec (.csrr g d n) s = onStream s (guarded g fun s => result 14 (.regs [(d, BitVec.ofNat 64 (csrRead n s))]) 0 s) := rfl

theorem exec_csrw (g : Guard) (a n : Nat) (s : State) :
    exec (.csrw g a n) s = onStream s (guarded g (reading [a] fun s => csrWrite n (s.reg a).toNat s)) := rfl

/-- Reading a guard changes no control and status register. -/
theorem csrRead_guardRead (n : Nat) (g : Guard) (s : State) (h : s.resident = true) : csrRead n (guardRead g s).2 = csrRead n s := by
  obtain ⟨view, prop, e⟩ := guardRead_task g s h
  simp only [csrRead, tagVal, State.tl, guardRead_str g s h, guardRead_tick, guardRead_cur, guardRead_tags, e]
  rfl

/-- The freeze counts of the four streams side by side (R109). -/
theorem Task.frz_eq (t : Task) : t.frz = t.s.frz + t.v.frz * 2 ^ 4 + t.m.frz * 2 ^ 8 + t.c.frz * 2 ^ 12 := by
  unfold Task.frz
  omega

/-- A class is interlocked where its native latency exceeds the assumed one (R99). -/
theorem Task.interlocked_iff (t : Task) (c : Nat) :
    t.interlocked c = true ↔ Config.latCycles (t.lata / 16 ^ c % 16) < Config.latCycles (Config.latn / 16 ^ c % 16) := decide_eq_true_iff

theorem Task.ilk_eq (t : Task) :
    t.ilk = ((List.range 16).map fun k =>
      if Config.latCycles (t.lata / 16 ^ k % 16) < Config.latCycles (Config.latn / 16 ^ k % 16) then 2 ^ k else 0).sum := by
  simp only [Task.ilk, Task.interlocked_iff]

/-- The table of the statements gives what each register reads (R108, R163, R202, R218, R225, R314). -/
theorem csrRead_of_mem_csr (s : State) : ∀ e ∈ csr s, csrRead e.1 s = e.2 := by
  unfold csr
  rw [← Task.frz_eq, ← Task.ilk_eq]
  simp only [List.forall_mem_append, List.forall_mem_cons, List.forall_mem_map, List.mem_range, List.not_mem_nil, false_imp_iff, implies_true, and_true]
  refine ⟨⟨⟨?_, ?_⟩, ?_⟩, ?_⟩
  · and_intros <;> rfl
  all_goals
    intro k hk
    interval_cases k <;> rfl

/-- `tagval` of a page below the task's scratchpad bytes is its sequence tag (R163). -/
theorem csrRead_tagval (s : State) :
    csrRead 0x103 s = if 2048 * s.task.tagsel < s.task.spadBytes then tabGet 0 s.curCore.tags s.task.tagsel else 0 := by
  show tagVal s = _
  simp only [tagVal, ← Nat.not_lt, ite_not]

/-- A write to a register has the effect that the statements list (R9, R110); `tagval` stands apart. -/
theorem csrWrite_eq_csrTo {n : Nat} (hn : n ≠ 0x103) (v : Nat) (s : State) : csrWrite n v s = csrTo n v s := by
  unfold csrWrite
  split
  case h_8 => exact absurd rfl hn
  case h_12 => simp_all [csrTo]
  all_goals rfl

/-- A write to `tagval` sets the tag of a page below the task's scratchpad bytes (R163). -/
theorem csrWrite_tagval (v : Nat) (s : State) (h : 2048 * s.task.tagsel < s.task.spadBytes) :
    csrWrite 0x103 v s = s.modCore s.cur.core fun c => { c with tags := tabSet 0 c.tags s.task.tagsel (v % 2 ^ 16) } :=
  if_neg (Nat.not_le.2 h)

/-- `csrr` that issues lands the value its register had before the guard was read. -/
theorem exec_csrr_of_issues {g : Guard} {s : State} (h : Issues g s) (d n : Nat) :
    exec (.csrr g d n) s = .next (regPending 14 d (BitVec.ofNat 64 (csrRead n s)) (guardRead g s).2) := by
  rw [exec_csrr, onStream_guarded_of_issues h, csrRead_guardRead n g s h.1, result_eq_pending]
  rfl

/-- `csrw` that issues writes what its source held before the guard was read. -/
theorem exec_csrw_of_issues {g : Guard} {a : Nat} {s : State} (h : Issues g s) (hc : Clean [a] s) (n : Nat) :
    exec (.csrw g a n) s = .next (csrWrite n (s.reg a).toNat (guardRead g s).2) := by
  rw [exec_csrw, onStream_guarded_of_issues h, reading_guardRead_of_clean hc, guardRead_reg g s h.1]

end Sys2Proof.Machine

namespace Sys2Proof.Proofs

open Machine Claim

/-- Settles O8: each clause is the register's own equation behind the guard, whose reading changes no register. -/
theorem controlRegistersReadAndWrite : Obligations.ControlRegistersReadAndWrite := by
  refine ⟨fun g d n v s hi hv => ?_, fun g a n s hi hc hn => ?_, fun g a s hi hc ht => ?_, fun g d s hi => ?_⟩
  · rw [exec_csrr_of_issues hi, csrRead_of_mem_csr s (n, v) hv]
  · rw [exec_csrw_of_issues hi hc, csrWrite_eq_csrTo hn]
  · obtain ⟨view, prop, e⟩ := guardRead_task g s hi.1
    rw [exec_csrw_of_issues hi hc, csrWrite_tagval _ _ (by rw [e]; exact ht), guardRead_cur, e]
  · rw [exec_csrr_of_issues hi, csrRead_tagval, apply_ite (BitVec.ofNat 64)]
    rfl

/-! ### The Dawn start-up (R12, R332, R345, R429) -/

/-- Package 1 is the home of a sequence whose entry 0 names a page of channel 0 of package 0: it stands in the map area, whose page is
the first of package 1's memory. The start-up of package 0 is due, and its channel 0 will fail the test. -/
def holdsForeignEntry : State :=
  { mem := [(2 ^ 45 + 10, 0x81), (2 ^ 45 + 12, 0xF0), (2 ^ 45 + 13, 0x03)]
    pkgs := [(0, { hsplit := [(0, 1)], kvEn := true, pairs := [(pairKey 0 (63 * 2 ^ 11), 1)] }),
      (1, { kvEn := true, seqs := [(0, { sink := 64, win := 1, holders := [0], area := 0, frames := [2 ^ 45], n := 1,
                                         ents := [(0, { pkg := 0, chan := 0, frame := 63 * 2 ^ 11, state := 1, fill := 1 })] })] })]
    members := [0, 1]
    arg := { unit := 0, k := 0, j := 0, v := 1 } }

theorem exec_dawnStartup (s : State) :
    exec .dawnStartup s = .next (dawn s.arg.unit (min s.arg.k 4) s.arg.n s.arg.v (s.arg.j % 2 ^ 32) (s.arg.j / 2 ^ 32) s) := rfl

/-- The map area of `holdsForeignEntry` shows its entry. -/
theorem holdsForeignEntry_map :
    readBytes holdsForeignEntry (2 ^ 45) 16 = ((holdsForeignEntry.seq (2 ^ 16)).map fun q => (q.ent 0).bytes).getD [] := by
  decide +kernel

/-- The retired channel's entry becomes absent in the map area of its home (R345): byte 4 holds its new generation. -/
theorem dawn_writes_map_of_other_package :
    Memory.get holdsForeignEntry.mem (2 ^ 45 + 4) = 0 ∧ Memory.get (dawn 0 0 0 1 0 0 holdsForeignEntry).mem (2 ^ 45 + 4) = 1 := by
  decide +kernel

/-- Refutes O51: where no lane fails, memory need not stay as it was. A channel that fails the built-in test is retired (R429), and every
home then makes the entries it held absent (R345), which writes them into the map area (R332): in `holdsForeignEntry` byte 4 of package
1's memory goes from 0 to 1. -/
theorem not_startUpAndPowerLoss : ¬ Obligations.StartUpAndPowerLoss := by
  intro h
  obtain ⟨⟨t, ht, -, -, -, -, hmem, -⟩, -⟩ := h holdsForeignEntry
  have hsame : SameMemory holdsForeignEntry t := hmem rfl (.inr rfl)
  obtain ⟨hbefore, hafter⟩ := dawn_writes_map_of_other_package
  have hdawn : dawn 0 0 0 1 0 0 holdsForeignEntry = t := by
    rw [exec_dawnStartup] at ht
    exact Host.Outcome.next.inj ht
  have habs : (1 : Byte) = 0 := by
    calc (1 : Byte) = Memory.get t.mem (2 ^ 45 + 4) := by rw [← hdawn, hafter]
      _ = Memory.get holdsForeignEntry.mem (2 ^ 45 + 4) := hsame _
      _ = 0 := hbefore
  exact absurd habs (by decide)

end Sys2Proof.Proofs
end

section
/-!
PROOFS. A word as the sum of its fixed bits and of the parts its format gives it, and what a decoder reads from such a word; every
well-formed word of the streams and of the bank units decodes to the instruction it was made from.
-/

namespace Sys2Proof

/-! ### The parts of a word -/

/-- One part of a format, bits hi:lo of the word: bits that the encoding fixes, an operand with the value it holds, or the guard. -/
inductive WordPart where
  | fixed (hi lo : Nat)
  | opnd (hi lo v : Nat)
  | guard (g : Guard)

/-- The guard bits g and n of a word (R61). -/
def guardBits (g : Guard) : Nat := 2 * g.p + if g.neg then 1 else 0

theorem encGuard_eq (g : Guard) : encGuard g = guardBits g * 2 ^ 21 := by
  unfold encGuard guardBits
  split <;> omega

theorem guardBits_lt {g : Guard} (h : g.fits = true) : guardBits g < 2 ^ 5 := by
  have hp : g.p < 16 := of_decide_eq_true h
  unfold guardBits
  split <;> omega

/-- A word whose guard bits are those of a guard has that guard. -/
theorem guardOf_of_bits {w : Nat} {g : Guard} (h : fld w 25 21 = guardBits g) : guardOf w = g := by
  obtain ⟨p, neg⟩ := g
  have hp : fld w 25 22 = fld w 25 21 / 2 := by unfold fld; omega
  have hn : fld w 21 21 = fld w 25 21 % 2 := by unfold fld; omega
  unfold guardOf
  rw [hp, hn, h, guardBits]
  cases neg <;> simp
  omega

namespace WordPart

def hi : WordPart → Nat
  | fixed hi _ | opnd hi _ _ => hi
  | guard _ => 25

def lo : WordPart → Nat
  | fixed _ lo | opnd _ lo _ => lo
  | guard _ => 21

/-- What a word with fixed bits `c` holds in a part. -/
def val (c : Nat) : WordPart → Nat
  | fixed hi lo => c / 2 ^ lo % 2 ^ (hi + 1 - lo)
  | opnd _ _ v => v
  | guard g => guardBits g

/-- The fixed bits leave a part to its operand. -/
def free (c : Nat) : WordPart → Bool
  | fixed _ _ => true
  | opnd hi lo _ => c / 2 ^ lo % 2 ^ (hi + 1 - lo) == 0
  | guard _ => c / 2 ^ 21 % 2 ^ 5 == 0

/-- A word so far with what a part adds to it, as the encoder writes it. -/
def put (w : Nat) : WordPart → Nat
  | fixed _ _ => w
  | opnd _ lo v => w + v * 2 ^ lo
  | guard g => w + encGuard g

/-- A word of a format: the fixed bits `c` and its parts. -/
def word (c : Nat) (l : List WordPart) : Nat := l.foldl put c

/-- A number is written as the sum of the fixed bits `c` and the parts, in the encoder's own words. -/
inductive Sums : Nat → List WordPart → Nat → Prop
  | nil {c : Nat} : Sums c [] c
  | fixed {c w hi lo : Nat} {l : List WordPart} (h : Sums c l w) : Sums c (fixed hi lo :: l) w
  | opnd {c w hi lo v : Nat} {l : List WordPart} (h : Sums (c + v * 2 ^ lo) l w) : Sums c (opnd hi lo v :: l) w
  | guard {c w : Nat} {g : Guard} {l : List WordPart} (h : Sums (c + encGuard g) l w) : Sums c (guard g :: l) w

theorem Sums.eq_word {c w : Nat} {l : List WordPart} (h : Sums c l w) : w = word c l := by
  induction h with
  | nil => rfl
  | fixed _ ih | opnd _ ih | guard _ ih => exact ih

/-- The parts fill the low n bits from the top, and the fixed bits leave them free. -/
def tiles (c : Nat) : Nat → List WordPart → Bool
  | n, [] => n == 0
  | n, p :: l => n == p.hi + 1 && Nat.ble p.lo p.hi && p.free c && tiles c p.lo l

/-- Every operand is in the range of its field. -/
def Fit : List WordPart → Prop
  | [] => True
  | fixed _ _ :: l => Fit l
  | opnd hi lo v :: l => v < 2 ^ (hi + 1 - lo) ∧ Fit l
  | guard g :: l => g.fits = true ∧ Fit l

/-- What a decoder reads from a word with fixed bits `c`. -/
def Reads (c w : Nat) : List WordPart → Prop
  | [] => True
  | fixed hi lo :: l => fld w hi lo = c / 2 ^ lo % 2 ^ (hi + 1 - lo) ∧ Reads c w l
  | opnd hi lo v :: l => fld w hi lo = v ∧ Reads c w l
  | guard g :: l => (guardOf w = g ∧ fld w 25 21 = guardBits g) ∧ Reads c w l

/-- What the parts add to the fixed bits. -/
def sum (l : List WordPart) : Nat := word 0 l

theorem word_eq (c : Nat) (l : List WordPart) : word c l = c + sum l := by
  unfold sum word
  induction l generalizing c with
  | nil => rfl
  | cons p l ih =>
    rw [List.foldl_cons, List.foldl_cons, ih, ih (put 0 p)]
    cases p <;> simp only [put] <;> omega

/-- A part that is free holds its value. -/
theorem put_free {c : Nat} {p : WordPart} (h : p.free c = true) :
    c / 2 ^ p.lo % 2 ^ (p.hi + 1 - p.lo) * 2 ^ p.lo + put 0 p = p.val c * 2 ^ p.lo := by
  cases p with
  | fixed hi lo => rfl
  | opnd hi lo v =>
    have h0 : c / 2 ^ lo % 2 ^ (hi + 1 - lo) = 0 := beq_iff_eq.1 h
    simp only [WordPart.hi, WordPart.lo, put, val, h0, Nat.zero_mul, Nat.zero_add]
  | guard g =>
    have h0 : c / 2 ^ 21 % 2 ^ 5 = 0 := beq_iff_eq.1 h
    show c / 2 ^ 21 % 2 ^ 5 * 2 ^ 21 + (0 + encGuard g) = guardBits g * 2 ^ 21
    rw [h0, encGuard_eq]
    omega

theorem fit_cons {c : Nat} {p : WordPart} {l : List WordPart} (h : Fit (p :: l)) : p.val c < 2 ^ (p.hi + 1 - p.lo) ∧ Fit l := by
  cases p with
  | fixed => exact ⟨Nat.mod_lt _ (Nat.two_pow_pos _), h⟩
  | opnd => exact h
  | guard g => exact ⟨guardBits_lt h.1, h.2⟩

theorem reads_cons {c w : Nat} {p : WordPart} {l : List WordPart} (hp : fld w p.hi p.lo = p.val c) (hl : Reads c w l) :
    Reads c w (p :: l) := by
  cases p with
  | fixed => exact ⟨hp, hl⟩
  | opnd => exact ⟨hp, hl⟩
  | guard g => exact ⟨⟨guardOf_of_bits hp, hp⟩, hl⟩

/-- A field on top of a rest of fewer bits is read alone. -/
theorem fld_of_mod {w hi lo t r : Nat} (hlo : lo ≤ hi) (hr : r < 2 ^ lo) (h : w % 2 ^ (hi + 1) = t * 2 ^ lo + r) :
    fld w hi lo = t ∧ w % 2 ^ lo = r := by
  have hpow : 2 ^ (hi + 1) = 2 ^ lo * 2 ^ (hi + 1 - lo) := by rw [← pow_add, Nat.add_sub_cancel' (by omega)]
  constructor
  · rw [fld, ← Nat.mod_mul_right_div_self, ← hpow, h, Nat.mul_comm, Nat.mul_add_div (Nat.two_pow_pos lo), Nat.div_eq_of_lt hr, Nat.add_zero]
  · rw [← Nat.mod_mul_right_mod w _ (2 ^ (hi + 1 - lo)), ← hpow, h, Nat.mul_add_mod_self_right, Nat.mod_eq_of_lt hr]

/-- A word whose low n bits are the fixed bits with the parts reads as the parts say. -/
theorem reads_of_mod {c n : Nat} {l : List WordPart} (ht : tiles c n l = true) (hf : Fit l) :
    c % 2 ^ n + sum l < 2 ^ n ∧ ∀ w, w % 2 ^ n = c % 2 ^ n + sum l → Reads c w l := by
  induction l generalizing n with
  | nil =>
    have hn : n = 0 := beq_iff_eq.1 ht
    subst hn
    exact ⟨by simp [sum, word, Nat.mod_one], fun _ _ => trivial⟩
  | cons p l ih =>
    simp only [tiles, Bool.and_eq_true, beq_iff_eq, Nat.ble_eq] at ht
    obtain ⟨⟨⟨rfl, hlo⟩, hfree⟩, htl⟩ := ht
    obtain ⟨hval, hfl⟩ := fit_cons (c := c) hf
    obtain ⟨hrest, hreads⟩ := ih htl hfl
    have hpow : 2 ^ (p.hi + 1) = 2 ^ p.lo * 2 ^ (p.hi + 1 - p.lo) := by rw [← pow_add, Nat.add_sub_cancel' (by omega)]
    have hsum : c % 2 ^ (p.hi + 1) + sum (p :: l) = p.val c * 2 ^ p.lo + (c % 2 ^ p.lo + sum l) := by
      rw [← put_free hfree, hpow, Nat.mod_mul, show sum (p :: l) = put 0 p + sum l from word_eq (put 0 p) l]
      ring
    refine ⟨?_, fun w hw => ?_⟩
    · calc c % 2 ^ (p.hi + 1) + sum (p :: l) < (p.val c + 1) * 2 ^ p.lo := by rw [hsum, Nat.succ_mul]; omega
        _ ≤ 2 ^ (p.hi + 1 - p.lo) * 2 ^ p.lo := Nat.mul_le_mul_right _ hval
        _ = 2 ^ (p.hi + 1) := by rw [hpow, Nat.mul_comm]
    · obtain ⟨htop, hlow⟩ := fld_of_mod hlo hrest (hw.trans hsum)
      exact reads_cons htop (hreads w hlow)

/-- A word of a format is read part by part, and fills no more than its bits. -/
theorem reads_word {c n : Nat} {l : List WordPart} (hc : c < 2 ^ n) (ht : tiles c n l = true) (hf : Fit l) :
    word c l < 2 ^ n ∧ Reads c (word c l) l := by
  obtain ⟨hlt, hreads⟩ := reads_of_mod ht hf
  rw [Nat.mod_eq_of_lt hc, ← word_eq] at hlt hreads
  exact ⟨hlt, hreads _ (Nat.mod_eq_of_lt hlt)⟩

end WordPart

open WordPart

/-! ### Words of the streams -/

@[simp] theorem pick_ok (i : Instr) : pick false false false false false i = .ok i := rfl

/-- An instruction has a word, from which stream k decodes it back. -/
def RoundTrip (k : StreamId) (i : Instr) : Prop := ∃ w, encode i = some w ∧ w < 2 ^ 32 ∧ decode k w = .ok i

/-- A word whose opcode is none of the two that R58 and R59 fix is neither of their words. -/
theorem ne_of_opcode {w c : Nat} (h : fld w 31 26 = c) (h0 : c ≠ 0) (h63 : c ≠ 63) : w ≠ 0 ∧ w ≠ 0xFFFFFFFF := by
  subst h
  exact ⟨fun h => h0 (by rw [h]; rfl), fun h => h63 (by rw [h]; rfl)⟩

/-- The words of the cells that a stream keeps to itself (R73 to R76). -/
theorem decode_of_own_cell {k : StreamId} {w c : Nat} (h : fld w 31 26 = c) (hc : 20 ≤ c ∧ c < 60) : decode k w = decodeOwn k w := by
  obtain ⟨h0, h1⟩ := ne_of_opcode h (by omega) (by omega)
  unfold decode
  rw [if_neg h1, if_neg h0]
  split
  case h_22 => rfl
  all_goals omega

/-- An instruction whose format is given below the opcode is decoded back if the decoder answers it for what the format reads. -/
theorem RoundTrip.of_format {k : StreamId} {i : Instr} {c w : Nat} (l : List WordPart) (henc : encode i = some w) (hf : Fit l)
    (hdec : ∀ w, w ≠ 0 → w ≠ 0xFFFFFFFF → fld w 31 26 = c / 2 ^ 26 → Reads c w l → decode k w = .ok i) (hw : Sums c l w := by repeat constructor)
    (hc : 2 ^ 26 ≤ c ∧ c < 63 * 2 ^ 26 := by decide) (ht : tiles c 26 l = true := by rfl) : RoundTrip k i := by
  obtain ⟨hlt, hop, hreads⟩ := reads_word (c := c) (n := 32) (l := fixed 31 26 :: l) (by omega) ht hf
  rw [show word c (fixed 31 26 :: l) = w from hw.eq_word.symm] at hlt hop hreads
  rw [Nat.mod_eq_of_lt (by omega)] at hop
  obtain ⟨h0, h1⟩ := ne_of_opcode hop (by omega) (by omega)
  exact ⟨w, henc, hlt, hdec w h0 h1 hop hreads⟩

/-- The same for a word of the stream's own cells. -/
theorem RoundTrip.of_own_format {k : StreamId} {i : Instr} {c w : Nat} (l : List WordPart) (henc : encode i = some w) (hf : Fit l)
    (hdec : ∀ w, fld w 31 26 = c / 2 ^ 26 → Reads c w l → decodeOwn k w = .ok i) (hw : Sums c l w := by repeat constructor)
    (hc : 20 * 2 ^ 26 ≤ c ∧ c < 60 * 2 ^ 26 := by decide) (ht : tiles c 26 l = true := by rfl) : RoundTrip k i :=
  .of_format l henc hf (fun w _ _ hop hr => by rw [decode_of_own_cell hop (by omega)]; exact hdec w hop hr) hw (by omega) ht

theorem Guard.fits_of_fitsPlain {k : StreamId} {g : Guard} (h : g.fitsPlain k = true) : g.fits = true := (Bool.and_eq_true_iff.1 h).1

/-- The words of the cells 0x01 to 0x0B have no bits of a guard in the C stream (R61, R71). -/
theorem noGuard_of_fitsPlain {k : StreamId} {g : Guard} {w : Nat} (h : g.fitsPlain k = true) (hw : fld w 25 21 = guardBits g) :
    noGuard k w = false := by
  have hg : k ≠ .c ∨ g = ⟨0, false⟩ := by simpa using (Bool.and_eq_true_iff.1 h).2
  refine decide_eq_false fun ⟨hk, hne⟩ => ?_
  rcases hg with hg | rfl
  · exact hg hk
  · exact hne hw

set_option linter.unusedSimpArgs false in
/-- The words under a plain guard, whose formats R67 to R69 give: the common map, the S stream's, and the V stream's register words (R71,
R73, R74). -/
theorem roundTrip_of_plainGuard {k : StreamId} {i : Instr} {g : Guard} (hp : Claim.plainGuard i = some g) (h : Instr.wf k i = true) :
    RoundTrip k i := by
  cases i with
  | add gd d a b | sub gd d a b | and gd d a b | or gd d a b | xor gd d a b | andn gd d a b | orn gd d a b | xnor gd d a b | sll gd d a b
  | srl gd d a b | sra gd d a b | ror gd d a b | min gd d a b | max gd d a b | minu gd d a b | maxu gd d a b =>
    obtain ⟨hk, hg, hd, ha, hb, hr⟩ := of_decide_eq_true h
    refine .of_format [.guard gd, .opnd 20 15 d, .opnd 14 9 a, .opnd 8 3 b, .fixed 2 0] rfl
      ⟨Guard.fits_of_fitsPlain hg, hd, ha, hb, trivial⟩ fun w h0 h1 hc r => ?_
    simp [Reads] at hc r
    simp [decode, h0, h1, hc, r, decodeX01, decodeX02, hk, hr, noGuard_of_fitsPlain hg]
  | addi gd d a i | andi gd d a i | ori gd d a i | xori gd d a i =>
    obtain ⟨hk, hg, hd, ha, hi, hr⟩ := of_decide_eq_true h
    refine .of_format [.guard gd, .opnd 20 15 d, .opnd 14 9 a, .opnd 8 0 i] rfl
      ⟨Guard.fits_of_fitsPlain hg, hd, ha, hi, trivial⟩ fun w h0 h1 hc r => ?_
    simp [Reads] at hc r
    simp [decode, h0, h1, hc, r, decodeX03, decodeX04, decodeX05, decodeX06, hk, hr, noGuard_of_fitsPlain hg]
  | slli gd d a s | srli gd d a s | srai gd d a s | rori gd d a s =>
    obtain ⟨hk, hg, hd, ha, hs, hr⟩ := of_decide_eq_true h
    refine .of_format [.guard gd, .opnd 20 15 d, .opnd 14 9 a, .fixed 8 7, .fixed 6 6, .opnd 5 0 s] rfl
      ⟨Guard.fits_of_fitsPlain hg, hd, ha, hs, trivial⟩ fun w h0 h1 hc r => ?_
    simp [Reads] at hc r
    simp [decode, h0, h1, hc, r, decodeX07, hk, hr, noGuard_of_fitsPlain hg]
  | li gd d i | lix gd d i =>
    obtain ⟨hk, hg, hd, hi, hr⟩ := of_decide_eq_true h
    refine .of_format [.guard gd, .opnd 20 15 d, .opnd 14 0 i] rfl ⟨Guard.fits_of_fitsPlain hg, hd, hi, trivial⟩ fun w h0 h1 hc r => ?_
    simp [Reads] at hc r
    simp [decode, h0, h1, hc, r, decodeX08, decodeX09, hk, hr, noGuard_of_fitsPlain hg]
  | cmp gd p a b c =>
    obtain ⟨hk, hg, hp', ha, hb, hc', hcond, hr, hp0⟩ := of_decide_eq_true h
    refine .of_format [.guard gd, .opnd 20 17 p, .opnd 16 11 a, .opnd 10 5 b, .opnd 4 1 c, .fixed 0 0] rfl
      ⟨Guard.fits_of_fitsPlain hg, hp', ha, hb, hc', trivial⟩ fun w h0 h1 hc r => ?_
    simp [Reads] at hc r
    simp [decode, h0, h1, hc, r, decodeX0A, hk, hr, hcond, hp0, noGuard_of_fitsPlain hg]
  | cmpi gd p a c i =>
    obtain ⟨hk, hg, hp', ha, hc', hi, hcond, hr, hp0⟩ := of_decide_eq_true h
    refine .of_format [.guard gd, .opnd 20 17 p, .opnd 16 11 a, .opnd 10 7 c, .opnd 6 0 i] rfl
      ⟨Guard.fits_of_fitsPlain hg, hp', ha, hc', hi, trivial⟩ fun w h0 h1 hc r => ?_
    simp [Reads] at hc r
    simp [decode, h0, h1, hc, r, decodeX0B, hk, hr, hcond, hp0, noGuard_of_fitsPlain hg]
  | pand gd d a b | por gd d a b | pxor gd d a b | pandn gd d a b =>
    obtain ⟨hg, hd, ha, hb, hd0⟩ := of_decide_eq_true h
    refine .of_format [.guard gd, .opnd 20 17 d, .opnd 16 13 a, .opnd 12 9 b, .fixed 8 6, .fixed 5 0] rfl
      ⟨hg, hd, ha, hb, trivial⟩ fun w h0 h1 hc r => ?_
    simp [Reads] at hc r
    simp [decode, h0, h1, hc, r, decodeX0C, hd0]
  | pnot gd d a | pmov gd d a =>
    obtain ⟨hg, hd, ha, hd0⟩ := of_decide_eq_true h
    refine .of_format [.guard gd, .opnd 20 17 d, .opnd 16 13 a, .fixed 12 9, .fixed 8 6, .fixed 5 0] rfl
      ⟨hg, hd, ha, trivial⟩ fun w h0 h1 hc r => ?_
    simp [Reads] at hc r
    simp [decode, h0, h1, hc, r, decodeX0C, hd0]
  | pset gd d | pclr gd d =>
    obtain ⟨hg, hd, hd0⟩ := of_decide_eq_true h
    refine .of_format [.guard gd, .opnd 20 17 d, .fixed 16 9, .fixed 8 6, .fixed 5 0] rfl ⟨hg, hd, trivial⟩ fun w h0 h1 hc r => ?_
    simp [Reads] at hc r
    simp [decode, h0, h1, hc, r, decodeX0C, hd0]
  | brp gd d o =>
    obtain ⟨hg, hd, ho⟩ := of_decide_eq_true h
    refine .of_format [.guard gd, .opnd 20 18 d, .opnd 17 0 o] rfl ⟨hg, hd, ho, trivial⟩ fun w h0 h1 hc r => ?_
    simp [Reads] at hc r
    simp [decode, h0, h1, hc, r, decodeX0D]
  | brpx gd d a =>
    obtain ⟨hk, hg, hd, ha, hr⟩ := of_decide_eq_true h
    refine .of_format [.guard gd, .opnd 20 18 d, .opnd 17 12 a, .fixed 11 0] rfl ⟨hg, hd, ha, trivial⟩ fun w h0 h1 hc r => ?_
    simp [Reads] at hc r
    simp [decode, h0, h1, hc, r, decodeX0E, hk, hr]
  | br gd b =>
    obtain ⟨hg, hb⟩ := of_decide_eq_true h
    refine .of_format [.guard gd, .opnd 20 18 b, .fixed 17 17, .fixed 16 0] rfl ⟨hg, hb, trivial⟩ fun w h0 h1 hc r => ?_
    simp [Reads] at hc r
    simp [decode, h0, h1, hc, r, decodeX0F]
  | brL gd b d =>
    obtain ⟨rfl, hg, hb, hd⟩ := of_decide_eq_true h
    refine .of_format [.guard gd, .opnd 20 18 b, .fixed 17 17, .opnd 16 11 d, .fixed 10 0] rfl ⟨hg, hb, hd, trivial⟩ fun w h0 h1 hc r => ?_
    simp [Reads] at hc r
    simp [decode, h0, h1, hc, r, decodeX0F]
  | loop gd l a e =>
    obtain ⟨hk, hg, hl, ha, he, hr, he0⟩ := of_decide_eq_true h
    refine .of_format [.guard gd, .opnd 20 20 l, .opnd 19 14 a, .opnd 13 0 e] rfl ⟨hg, hl, ha, he, trivial⟩ fun w h0 h1 hc r => ?_
    simp [Reads] at hc r
    simp [decode, h0, h1, hc, r, decodeX10, hk, hr, he0]
  | loopi gd l n e =>
    obtain ⟨hg, hl, hn, he, he0⟩ := of_decide_eq_true h
    refine .of_format [.guard gd, .opnd 20 20 l, .opnd 19 10 n, .opnd 9 0 e] rfl ⟨hg, hl, hn, he, trivial⟩ fun w h0 h1 hc r => ?_
    simp [Reads] at hc r
    simp [decode, h0, h1, hc, r, decodeX11, he0]
  | csrr gd d n =>
    obtain ⟨hk, hg, hd, hn, hcsr, hr⟩ := of_decide_eq_true h
    refine .of_format [.guard gd, .opnd 20 15 d, .fixed 14 9, .opnd 8 0 n] rfl ⟨hg, hd, hn, trivial⟩ fun w h0 h1 hc r => ?_
    simp [Reads] at hc r
    simp [decode, h0, h1, hc, r, decodeX12, hk, hr, hcsr]
  | csrw gd a n =>
    obtain ⟨hk, hg, ha, hn, hcsr, hr⟩ := of_decide_eq_true h
    refine .of_format [.guard gd, .fixed 20 15, .opnd 14 9 a, .opnd 8 0 n] rfl ⟨hg, ha, hn, trivial⟩ fun w h0 h1 hc r => ?_
    simp [Reads] at hc r
    simp [decode, h0, h1, hc, r, decodeX13, hk, hr, hcsr]
  | semWait gd n c | semSig gd n c =>
    obtain ⟨hg, hn, hc', hc0⟩ := of_decide_eq_true h
    refine .of_format [.guard gd, .fixed 20 16, .opnd 15 10 n, .opnd 9 0 c] rfl ⟨hg, hn, hc', trivial⟩ fun w h0 h1 hc r => ?_
    simp [Reads] at hc r
    simp [decode, h0, h1, hc, r, decodeX3C, hc0]
  | semTry gd n p =>
    obtain ⟨hg, hn, hp', hp0⟩ := of_decide_eq_true h
    refine .of_format [.guard gd, .fixed 20 16, .opnd 15 10 n, .fixed 9 4, .opnd 3 0 p] rfl ⟨hg, hn, hp', trivial⟩ fun w h0 h1 hc r => ?_
    simp [Reads] at hc r
    simp [decode, h0, h1, hc, r, decodeX3C, hp0]
  | semRd gd n d =>
    obtain ⟨hk, hg, hn, hd, hr⟩ := of_decide_eq_true h
    refine .of_format [.guard gd, .fixed 20 16, .opnd 15 10 n, .fixed 9 6, .opnd 5 0 d] rfl ⟨hg, hn, hd, trivial⟩ fun w h0 h1 hc r => ?_
    simp [Reads] at hc r
    simp [decode, h0, h1, hc, r, decodeX3C, hk, hr]
  | gbArr gd n | gbWait gd n | gbSync gd n =>
    obtain ⟨hg, hn, hbar⟩ := of_decide_eq_true h
    refine .of_format [.guard gd, .fixed 20 16, .opnd 15 10 n, .fixed 9 0] rfl ⟨hg, hn, trivial⟩ fun w h0 h1 hc r => ?_
    simp [Reads] at hc r
    simp [decode, h0, h1, hc, r, decodeX3C, hbar]
  | fenceTlw gd n c a =>
    obtain ⟨hk, hg, hn, hc', ha, hbar, hr⟩ := of_decide_eq_true h
    refine .of_format [.guard gd, .fixed 20 16, .opnd 15 10 n, .opnd 9 6 c, .opnd 5 0 a] rfl
      ⟨hg, hn, hc', ha, trivial⟩ fun w h0 h1 hc r => ?_
    simp [Reads] at hc r
    simp [decode, h0, h1, hc, r, decodeX3C, hk, hr, hbar]
  | mul gd d a b | mulh gd d a b | mulhu gd d a b | mulhsu gd d a b | div gd d a b | divu gd d a b | rem gd d a b | remu gd d a b
  | addw gd d a b | subw gd d a b | mulw gd d a b | sllw gd d a b | srlw gd d a b | sraw gd d a b | divw gd d a b | remw gd d a b =>
    obtain ⟨rfl, hg, hd, ha, hb⟩ := of_decide_eq_true h
    refine .of_own_format [.guard gd, .opnd 20 15 d, .opnd 14 9 a, .opnd 8 3 b, .fixed 2 0] rfl ⟨hg, hd, ha, hb, trivial⟩ fun w hc r => ?_
    simp [Reads] at hc r
    simp [hc, r, decodeOwn, decodeOwnS, decodeS14, decodeS15]
  | clz gd d a | ctz gd d a | popc gd d a | brev gd d a | sextb gd d a | sexth gd d a | sextw gd d a | zextw gd d a | ecRd gd d a
  | sysArg gd d a =>
    obtain ⟨rfl, hg, hd, ha⟩ := of_decide_eq_true h
    refine .of_own_format [.guard gd, .opnd 20 15 d, .opnd 14 9 a, .fixed 8 3, .fixed 2 0] rfl ⟨hg, hd, ha, trivial⟩ fun w hc r => ?_
    simp [Reads] at hc r
    simp [hc, r, decodeOwn, decodeOwnS, decodeS16, decodeS23, decodeS24]
  | ld gd d a s x o | ldsp gd d a s x o =>
    obtain ⟨rfl, hg, hd, ha, hs, hx, ho, hsx⟩ := of_decide_eq_true h
    refine .of_own_format [.guard gd, .opnd 20 15 d, .opnd 14 9 a, .opnd 8 7 s, .opnd 6 6 x, .opnd 5 0 o] rfl
      ⟨hg, hd, ha, hs, hx, ho, trivial⟩ fun w hc r => ?_
    simp [Reads] at hc r
    simp [hc, r, decodeOwn, decodeOwnS, decodeS18, decodeS1A, hsx]
  | st gd d a s o | stsp gd d a s o =>
    obtain ⟨rfl, hg, hd, ha, hs, ho⟩ := of_decide_eq_true h
    refine .of_own_format [.guard gd, .opnd 20 15 d, .opnd 14 9 a, .opnd 8 7 s, .fixed 6 6, .opnd 5 0 o] rfl
      ⟨hg, hd, ha, hs, ho, trivial⟩ fun w hc r => ?_
    simp [Reads] at hc r
    simp [hc, r, decodeOwn, decodeOwnS, decodeS19, decodeS1B]
  | ldAcq gd d a s c | stRel gd d a s c =>
    obtain ⟨rfl, hg, hd, ha, hs, hc', hsc⟩ := of_decide_eq_true h
    refine .of_own_format [.guard gd, .opnd 20 15 d, .opnd 14 9 a, .fixed 8 8, .opnd 7 6 s, .fixed 5 4, .opnd 3 0 c] rfl
      ⟨hg, hd, ha, hs, hc', trivial⟩ fun w hc r => ?_
    simp [Reads] at hc r
    simp [hc, r, decodeOwn, decodeOwnS, decodeS1C, decodeS1D, hsc]
  | amAddW gd d a o c | amSwapW gd d a o c | amCasW gd d a o c | amAndW gd d a o c | amOrW gd d a o c | amXorW gd d a o c | amMaxW gd d a o c
  | amMinW gd d a o c | amAddD gd d a o c | amSwapD gd d a o c | amCasD gd d a o c | amAndD gd d a o c | amOrD gd d a o c | amXorD gd d a o c
  | amMaxD gd d a o c | amMinD gd d a o c =>
    obtain ⟨rfl, hg, hd, ha, ho, hc', hsc⟩ := of_decide_eq_true h
    refine .of_own_format [.guard gd, .opnd 20 15 d, .opnd 14 9 a, .fixed 8 6, .opnd 5 4 o, .opnd 3 0 c] rfl
      ⟨hg, hd, ha, ho, hc', trivial⟩ fun w hc r => ?_
    simp [Reads] at hc r
    simp [hc, r, decodeOwn, decodeOwnS, decodeS1E, decodeS1F, hsc]
  | scLd gd d a s x o | scSt gd d a s x o =>
    obtain ⟨rfl, hg, hd, ha, hs, hx, ho⟩ := of_decide_eq_true h
    refine .of_own_format [.guard gd, .opnd 20 15 d, .opnd 14 9 a, .fixed 8 8, .opnd 7 7 s, .opnd 6 6 x, .opnd 5 0 o] rfl
      ⟨hg, hd, ha, hs, hx, ho, trivial⟩ fun w hc r => ?_
    simp [Reads] at hc r
    simp [hc, r, decodeOwn, decodeOwnS, decodeS20, decodeS21]
  | fenceAcq gd c | fenceRel gd c | fenceAr gd c =>
    obtain ⟨rfl, hg, hc', hsc⟩ := of_decide_eq_true h
    refine .of_own_format [.guard gd, .fixed 20 6, .fixed 5 4, .opnd 3 0 c] rfl ⟨hg, hc', trivial⟩ fun w hc r => ?_
    simp [Reads] at hc r
    simp [hc, r, decodeOwn, decodeOwnS, decodeS22, hsc]
  | ecCfg gd a b =>
    obtain ⟨rfl, hg, ha, hb⟩ := of_decide_eq_true h
    refine .of_own_format [.guard gd, .fixed 20 15, .opnd 14 9 a, .opnd 8 3 b, .fixed 2 0] rfl ⟨hg, ha, hb, trivial⟩ fun w hc r => ?_
    simp [Reads] at hc r
    simp [hc, r, decodeOwn, decodeOwnS, decodeS23]
  | ecOn gd a | ecOff gd a | sysAbort gd a =>
    obtain ⟨rfl, hg, ha⟩ := of_decide_eq_true h
    refine .of_own_format [.guard gd, .fixed 20 15, .opnd 14 9 a, .fixed 8 3, .fixed 2 0] rfl ⟨hg, ha, trivial⟩ fun w hc r => ?_
    simp [Reads] at hc r
    simp [hc, r, decodeOwn, decodeOwnS, decodeS23, decodeS24]
  | sysEnd gd | yield gd =>
    obtain ⟨rfl, hg⟩ := of_decide_eq_true h
    refine .of_own_format [.guard gd, .fixed 20 3, .fixed 2 0] rfl ⟨hg, trivial⟩ fun w hc r => ?_
    simp [Reads] at hc r
    simp [hc, r, decodeOwn, decodeOwnS, decodeS24]
  | trap gd i | vesper gd i =>
    obtain ⟨rfl, hg, hi⟩ := of_decide_eq_true h
    refine .of_own_format [.guard gd, .fixed 20 15, .opnd 14 0 i] rfl ⟨hg, hi, trivial⟩ fun w hc r => ?_
    simp [Reads] at hc r
    simp [hc, r, decodeOwn, decodeOwnS, decodeS25, decodeS26]
  | vsetq gd d a b | vgetq gd d a b | vadvq gd d a b =>
    obtain ⟨rfl, hg, hd, ha, hb⟩ := of_decide_eq_true h
    refine .of_own_format [.guard gd, .opnd 20 16 d, .opnd 15 12 a, .opnd 11 8 b, .fixed 7 0] rfl ⟨hg, hd, ha, hb, trivial⟩ fun w hc r => ?_
    simp [Reads] at hc r
    simp [hc, r, decodeOwn, decodeOwnV, decodeV1E]
  | vcntq gd d a =>
    obtain ⟨rfl, hg, hd, ha⟩ := of_decide_eq_true h
    refine .of_own_format [.guard gd, .opnd 20 16 d, .opnd 15 12 a, .fixed 11 8, .fixed 7 0] rfl ⟨hg, hd, ha, trivial⟩ fun w hc r => ?_
    simp [Reads] at hc r
    simp [hc, r, decodeOwn, decodeOwnV, decodeV1E]
  | vloop gd l a e =>
    obtain ⟨rfl, hg, hl, ha, he, he0⟩ := of_decide_eq_true h
    refine .of_own_format [.guard gd, .opnd 20 20 l, .opnd 19 16 a, .fixed 15 14, .opnd 13 0 e] rfl
      ⟨hg, hl, ha, he, trivial⟩ fun w hc r => ?_
    simp [Reads] at hc r
    simp [hc, r, decodeOwn, decodeOwnV, decodeV20, he0]
  | vstg gd i =>
    obtain ⟨rfl, hg, hi, hleg⟩ := of_decide_eq_true h
    refine .of_own_format [.guard gd, .fixed 20 16, .opnd 15 0 i] rfl ⟨hg, hi, trivial⟩ fun w hc r => ?_
    simp [Reads] at hc r
    simp [hc, r, decodeOwn, decodeOwnV, decodeV21, hleg]
  | _ => cases hp

set_option linter.unusedSimpArgs false in
/-- The other words: `nop`, `sel`, the vector, matrix and copy words (R58, R73 to R76). -/
theorem roundTrip_of_no_plainGuard {k : StreamId} {i : Instr} (hp : Claim.plainGuard i = none) (h : Instr.wf k i = true) :
    RoundTrip k i := by
  cases i with
  | nop => exact ⟨0, rfl, by decide, rfl⟩
  | sel gd d a b =>
    obtain ⟨rfl, hg, hd, ha, hb⟩ := of_decide_eq_true h
    refine .of_own_format [.guard gd, .opnd 20 15 d, .opnd 14 9 a, .opnd 8 3 b, .fixed 2 0] rfl ⟨hg, hd, ha, hb, trivial⟩ fun w hc r => ?_
    simp [Reads] at hc r
    simp [hc, r, decodeOwn, decodeOwnS, decodeS17]
  | vadd gd d a b | vsub gd d a b | vmul gd d a b | vdiv gd d a b | vmin gd d a b | vmax gd d a b | vminp gd d a b | vmaxp gd d a b
  | viand gd d a b | vior gd d a b | vixor gd d a b | vishl gd d a b | vishr gd d a b | visra gd d a b | vimin gd d a b | vimax gd d a b
  | vqlg6 gd d a b | vqint8 gd d a b | vscl gd d a b | vperm gd d a b | vmrg gd d a b | vcmpEq gd d a b | vcmpNe gd d a b | vcmpLt gd d a b
  | vcmpLe gd d a b | vcmpUn gd d a b =>
    obtain ⟨rfl, hg, hd, ha, hb⟩ := of_decide_eq_true h
    refine .of_own_format [.guard gd, .opnd 20 16 d, .opnd 15 11 a, .opnd 10 6 b, .fixed 5 0] rfl ⟨hg, hd, ha, hb, trivial⟩ fun w hc r => ?_
    simp [Reads] at hc r
    simp [hc, r, decodeOwn, decodeOwnV, decodeV14, decodeV15, decodeV18, decodeV19, decodeV1C, decodeV1D]
  | viadd gd d a b s | visub gd d a b s | vimul gd d a b s =>
    obtain ⟨rfl, hg, hd, ha, hb, hs⟩ := of_decide_eq_true h
    refine .of_own_format [.guard gd, .opnd 20 16 d, .opnd 15 11 a, .opnd 10 6 b, .opnd 5 5 s, .fixed 4 0] rfl
      ⟨hg, hd, ha, hb, hs, trivial⟩ fun w hc r => ?_
    have hf : fld w 5 0 = 32 * fld w 5 5 + fld w 4 0 := by unfold fld; omega
    simp [Reads] at hc r
    interval_cases s <;> simp [hc, r, hf, decodeOwn, decodeOwnV, decodeV15]
  | vfma gd d a b c | vfms gd d a b c | vsel gd d a b c =>
    obtain ⟨rfl, hg, hd, ha, hb, hc'⟩ := of_decide_eq_true h
    refine .of_own_format [.guard gd, .opnd 20 16 d, .opnd 15 11 a, .opnd 10 6 b, .opnd 5 1 c, .fixed 0 0] rfl
      ⟨hg, hd, ha, hb, hc', trivial⟩ fun w hc r => ?_
    simp [Reads] at hc r
    simp [hc, r, decodeOwn, decodeOwnV, decodeV16, decodeV22]
  | vmov gd d a | vneg gd d a | vabs gd d a | vexp2 gd d a | vlog2 gd d a | vrcp gd d a | vrsqrt gd d a | vsqrt gd d a | vdq gd d a
  | vunpk4 gd d a | vtr8 gd d a | vrsum gd d a | vrmax gd d a | vrmin gd d a | vrmaxp gd d a | vrminp gd d a | virsum gd d a | vck gd d a =>
    obtain ⟨rfl, hg, hd, ha⟩ := of_decide_eq_true h
    refine .of_own_format [.guard gd, .opnd 20 16 d, .opnd 15 11 a, .fixed 10 6, .fixed 5 0] rfl ⟨hg, hd, ha, trivial⟩ fun w hc r => ?_
    simp [Reads] at hc r
    simp [hc, r, decodeOwn, decodeOwnV, decodeV17, decodeV18, decodeV19, decodeV1A, decodeV1C]
  | vcvt gd d a x =>
    obtain ⟨rfl, hg, hd, ha, hx⟩ := of_decide_eq_true h
    refine .of_own_format [.guard gd, .opnd 20 16 d, .opnd 15 11 a, .fixed 10 6, .fixed 5 1, .opnd 0 0 x] rfl
      ⟨hg, hd, ha, hx, trivial⟩ fun w hc r => ?_
    have hf : fld w 5 0 = 2 * fld w 5 1 + fld w 0 0 := by unfold fld; omega
    simp [Reads] at hc r
    interval_cases x <;> simp [hc, r, hf, decodeOwn, decodeOwnV, decodeV17]
  | vany gd p a | vall gd p a =>
    obtain ⟨rfl, hg, hp, ha, hp0⟩ := of_decide_eq_true h
    refine .of_own_format [.guard gd, .fixed 20 20, .opnd 19 16 p, .opnd 15 11 a, .fixed 10 6, .fixed 5 0] rfl
      ⟨hg, hp, ha, trivial⟩ fun w hc r => ?_
    simp [Reads] at hc r
    simp [hc, r, decodeOwn, decodeOwnV, decodeV1B, hp0]
  | vld gd q a m | vst gd q a m =>
    obtain ⟨rfl, hg, hq, ha, hm, hm3⟩ := of_decide_eq_true h
    refine .of_own_format [.guard gd, .opnd 20 16 q, .opnd 15 12 a, .fixed 11 6, .opnd 5 4 m, .fixed 3 0] rfl
      ⟨hg, hq, ha, hm, trivial⟩ fun w hc r => ?_
    simp [Reads] at hc r
    simp [hc, r, decodeOwn, decodeOwnV, decodeV1F, hm3]
  | mmMac a d e t | mmMul a d e t =>
    obtain ⟨rfl, ha, hd, he, ht⟩ := of_decide_eq_true h
    refine .of_own_format [.fixed 25 21, .opnd 20 18 a, .opnd 17 15 d, .opnd 14 12 e, .opnd 11 10 t, .fixed 9 0] rfl
      ⟨ha, hd, he, ht, trivial⟩ fun w hc r => ?_
    simp [Reads] at hc r
    simp [hc, r, decodeOwn, decodeOwnM, decodeM14, decodeM15]
  | mmZero a =>
    obtain ⟨rfl, ha⟩ := of_decide_eq_true h
    refine .of_own_format [.fixed 25 21, .opnd 20 18 a, .fixed 17 0] rfl ⟨ha, trivial⟩ fun w hc r => ?_
    simp [Reads] at hc r
    simp [hc, r, decodeOwn, decodeOwnM, decodeM16]
  | mmDrain a d f x =>
    obtain ⟨rfl, ha, hd, hf, hx, hf12⟩ := of_decide_eq_true h
    refine .of_own_format [.fixed 25 21, .opnd 20 18 a, .opnd 17 15 d, .opnd 14 11 f, .opnd 10 10 x, .fixed 9 0] rfl
      ⟨ha, hd, hf, hx, trivial⟩ fun w hc r => ?_
    simp [Reads] at hc r
    simp [hc, r, decodeOwn, decodeOwnM, decodeM17, hf12]
  | mmSetd d s | mmGetd d s =>
    obtain ⟨rfl, hd, hs⟩ := of_decide_eq_true h
    refine .of_own_format [.fixed 25 21, .opnd 20 18 d, .fixed 17 15, .opnd 14 0 s] rfl ⟨hd, hs, trivial⟩ fun w hc r => ?_
    simp [Reads] at hc r
    simp [hc, r, decodeOwn, decodeOwnM, decodeM18, decodeM19]
  | mmAdv d =>
    obtain ⟨rfl, hd⟩ := of_decide_eq_true h
    refine .of_own_format [.fixed 25 18, .opnd 17 15 d, .fixed 14 0] rfl ⟨hd, trivial⟩ fun w hc r => ?_
    simp [Reads] at hc r
    simp [hc, r, decodeOwn, decodeOwnM, decodeM1A]
  | mmLdacc a d | mmMov a d =>
    obtain ⟨rfl, ha, hd⟩ := of_decide_eq_true h
    refine .of_own_format [.fixed 25 21, .opnd 20 18 a, .opnd 17 15 d, .fixed 14 0] rfl ⟨ha, hd, trivial⟩ fun w hc r => ?_
    simp [Reads] at hc r
    simp [hc, r, decodeOwn, decodeOwnM, decodeM1B, decodeM1C]
  | cp1d n a b | cp2d n a b | cp3d n a b | cpGat n a b | cpSct n a b | cpFill n a b | cpTol n a b | cpFrl n a b | cpRedSum n a b
  | cpRedMax n a b | cpRedMrg n a b | cpMm n a b =>
    obtain ⟨rfl, hn, ha, hb⟩ := of_decide_eq_true h
    refine .of_own_format [.fixed 25 21, .opnd 20 19 n, .opnd 18 15 a, .opnd 14 11 b, .fixed 10 6, .fixed 5 0] rfl
      ⟨hn, ha, hb, trivial⟩ fun w hc r => ?_
    simp [Reads] at hc r
    simp [hc, r, decodeOwn, decodeOwnC, decodeC14]
  | cpStat d n | cpAbort d n | cpBind d n =>
    obtain ⟨rfl, hd, hn, hn4⟩ := of_decide_eq_true h
    refine .of_own_format [.fixed 25 21, .opnd 20 17 d, .opnd 16 13 n, .fixed 12 6, .fixed 5 0] rfl ⟨hd, hn, trivial⟩ fun w hc r => ?_
    simp [Reads] at hc r
    simp [hc, r, decodeOwn, decodeOwnC, decodeC15, hn4]
  | plSetup n a m | plRedo n a m =>
    obtain ⟨rfl, hn, ha, hm⟩ := of_decide_eq_true h
    refine .of_own_format [.fixed 25 21, .opnd 20 17 n, .opnd 16 13 a, .fixed 12 9, .opnd 8 6 m, .fixed 5 0] rfl
      ⟨hn, ha, hm, trivial⟩ fun w hc r => ?_
    simp [Reads] at hc r
    simp [hc, r, decodeOwn, decodeOwnC, decodeC16]
  | plFire n m | plFree n m | plStat n m | plGeth n m =>
    obtain ⟨rfl, hn, hm⟩ := of_decide_eq_true h
    refine .of_own_format [.fixed 25 21, .opnd 20 17 n, .fixed 16 9, .opnd 8 6 m, .fixed 5 0] rfl ⟨hn, hm, trivial⟩ fun w hc r => ?_
    simp [Reads] at hc r
    simp [hc, r, decodeOwn, decodeOwnC, decodeC16]
  | plSeth a m =>
    obtain ⟨rfl, ha, hm⟩ := of_decide_eq_true h
    refine .of_own_format [.fixed 25 17, .opnd 16 13 a, .fixed 12 9, .opnd 8 6 m, .fixed 5 0] rfl ⟨ha, hm, trivial⟩ fun w hc r => ?_
    simp [Reads] at hc r
    simp [hc, r, decodeOwn, decodeOwnC, decodeC16]
  | nmStart n a | nmRatio n a | nmColl n a | nmQbc n a | nmWalk n a | nmStat n a | kvAlloc n a | kvFree n a | kvMap n a | kvShare n a
  | kvMove n a | l2Rel n a | l2Stat n a | l2Dot n a =>
    obtain ⟨rfl, hn, ha⟩ := of_decide_eq_true h
    refine .of_own_format [.fixed 25 21, .opnd 20 17 n, .opnd 16 13 a, .fixed 12 6, .fixed 5 0] rfl ⟨hn, ha, trivial⟩ fun w hc r => ?_
    simp [Reads] at hc r
    simp [hc, r, decodeOwn, decodeOwnC, decodeC17, decodeC18, decodeC19]
  | nmFenceBank a | nmFenceChan a =>
    obtain ⟨rfl, ha⟩ := of_decide_eq_true h
    refine .of_own_format [.fixed 25 17, .opnd 16 13 a, .fixed 12 9, .fixed 8 6, .fixed 5 0] rfl ⟨ha, trivial⟩ fun w hc r => ?_
    simp [Reads] at hc r
    simp [hc, r, decodeOwn, decodeOwnC, decodeC17]
  | kvStatLen d a | kvStatGen d a | kvStatFree d a =>
    obtain ⟨rfl, hd, ha⟩ := of_decide_eq_true h
    refine .of_own_format [.fixed 25 21, .opnd 20 17 d, .opnd 16 13 a, .fixed 12 9, .fixed 8 6, .fixed 5 0] rfl
      ⟨hd, ha, trivial⟩ fun w hc r => ?_
    simp [Reads] at hc r
    simp [hc, r, decodeOwn, decodeOwnC, decodeC18]
  | kvApp n a b | kvGen n a b | l2Lease n a b | l2Renew n a b | l2WbL1 n a b | l2WbL2 n a b | l2InvL1 n a b | l2InvL2 n a b =>
    obtain ⟨rfl, hn, ha, hb⟩ := of_decide_eq_true h
    refine .of_own_format [.fixed 25 21, .opnd 20 17 n, .opnd 16 13 a, .opnd 12 9 b, .fixed 8 6, .fixed 5 0] rfl
      ⟨hn, ha, hb, trivial⟩ fun w hc r => ?_
    simp [Reads] at hc r
    simp [hc, r, decodeOwn, decodeOwnC, decodeC18, decodeC19]
  | fenceArmSig n a b | fenceArmTrig n a b =>
    obtain ⟨rfl, hn, ha, hb⟩ := of_decide_eq_true h
    refine .of_own_format [.fixed 25 21, .opnd 20 17 n, .opnd 16 13 a, .opnd 12 9 b, .fixed 8 0] rfl ⟨hn, ha, hb, trivial⟩ fun w hc r => ?_
    simp [Reads] at hc r
    simp [hc, r, decodeOwn, decodeOwnC, decodeC1A]
  | fenceArmWr n a b =>
    obtain ⟨rfl, hn, ha, hb, heven⟩ := of_decide_eq_true h
    refine .of_own_format [.fixed 25 21, .opnd 20 17 n, .opnd 16 13 a, .opnd 12 9 b, .fixed 8 0] rfl ⟨hn, ha, hb, trivial⟩ fun w hc r => ?_
    simp [Reads] at hc r
    simp [hc, r, decodeOwn, decodeOwnC, decodeC1A, heven]
  | l2PfL2 a b | l2PfL1 a b =>
    obtain ⟨rfl, ha, hb⟩ := of_decide_eq_true h
    refine .of_own_format [.fixed 25 17, .opnd 16 13 a, .opnd 12 9 b, .fixed 8 6, .fixed 5 0] rfl ⟨ha, hb, trivial⟩ fun w hc r => ?_
    simp [Reads] at hc r
    simp [hc, r, decodeOwn, decodeOwnC, decodeC19]
  | ldC d a s x o =>
    obtain ⟨rfl, hd, ha, hs, hx, ho, hsx, hr⟩ := of_decide_eq_true h
    refine .of_own_format [.fixed 25 21, .opnd 20 15 d, .opnd 14 9 a, .opnd 8 7 s, .opnd 6 6 x, .opnd 5 0 o] rfl
      ⟨hd, ha, hs, hx, ho, trivial⟩ fun w hc r => ?_
    simp [Reads] at hc r
    simp [hc, r, decodeOwn, decodeOwnC, decodeC1B, hsx, hr]
  | stC d a s o =>
    obtain ⟨rfl, hd, ha, hs, ho, hr⟩ := of_decide_eq_true h
    refine .of_own_format [.fixed 25 21, .opnd 20 15 d, .opnd 14 9 a, .opnd 8 7 s, .fixed 6 6, .opnd 5 0 o] rfl
      ⟨hd, ha, hs, ho, trivial⟩ fun w hc r => ?_
    simp [Reads] at hc r
    simp [hc, r, decodeOwn, decodeOwnC, decodeC1C, hr]
  | _ => cases hp <;> cases h

theorem roundTrip_of_wf {k : StreamId} {i : Instr} (h : Instr.wf k i = true) : RoundTrip k i := by
  cases hp : Claim.plainGuard i with
  | none => exact roundTrip_of_no_plainGuard hp h
  | some g => exact roundTrip_of_plainGuard hp h

/-! ### Bank command words -/

/-- A bank command has a word, from which it is decoded back with its operands. -/
def BankRoundTrip (i : Instr) (o : BankOps) : Prop := ∃ w, encodeBank i o = some w ∧ w < 2 ^ 64 ∧ decodeBank w = .ok (i, o)

/-- A bank command whose format is given is decoded back if the decoder answers it for what the format reads. -/
theorem BankRoundTrip.of_format {i : Instr} {o : BankOps} {c w : Nat} (l : List WordPart) (henc : encodeBank i o = some w) (hf : Fit l)
    (hdec : ∀ w, Reads c w l → decodeBank w = .ok (i, o)) (hw : Sums c l w := by repeat constructor)
    (hc : c < 2 ^ 64 := by decide) (ht : tiles c 64 l = true := by rfl) : BankRoundTrip i o := by
  obtain ⟨hlt, hreads⟩ := reads_word hc ht hf
  rw [← hw.eq_word] at hlt hreads
  exact ⟨w, henc, hlt, hdec w hreads⟩

/-- Every bank command, by its format (R78, R79, R298). -/
theorem bankRoundTrip_of_wf {i : Instr} {o : BankOps} (h : Instr.bankWf i o = true) : BankRoundTrip i o := by
  obtain ⟨w, b, r, col, os, sq, q, wk, lp, tgt, cnt, all⟩ := o
  cases i with
  | bnop | bpra | bend =>
    obtain ⟨hw, rfl, rfl, rfl, rfl, rfl, rfl, rfl, rfl, rfl, rfl, rfl⟩ := of_decide_eq_true h
    refine .of_format [.fixed 63 58, .opnd 57 50 w, .fixed 49 0] rfl ⟨hw, trivial⟩ fun x hx => ?_
    simp [Reads] at hx
    simp [decodeBank, hx, pickBank]
  | bact =>
    obtain ⟨hw, hb, hr, hlim, rfl, rfl, rfl, rfl, rfl, rfl, rfl, rfl, rfl⟩ := of_decide_eq_true h
    refine .of_format [.fixed 63 58, .opnd 57 50 w, .opnd 49 44 b, .opnd 43 28 r, .fixed 27 0] rfl ⟨hw, hb, hr, trivial⟩ fun x hx => ?_
    simp [Reads] at hx
    simp [decodeBank, hx, pickBank, hlim]
  | bpre | bref | bwbc =>
    obtain ⟨hw, hb, rfl, rfl, rfl, rfl, rfl, rfl, rfl, rfl, rfl, rfl⟩ := of_decide_eq_true h
    refine .of_format [.fixed 63 58, .opnd 57 50 w, .opnd 49 44 b, .fixed 43 0] rfl ⟨hw, hb, trivial⟩ fun x hx => ?_
    simp [Reads] at hx
    simp [decodeBank, hx, pickBank]
  | bqld =>
    obtain ⟨hw, hq, rfl, rfl, rfl, rfl, rfl, rfl, rfl, rfl, rfl, rfl⟩ := of_decide_eq_true h
    refine .of_format [.fixed 63 58, .opnd 57 50 w, .fixed 49 32, .opnd 31 28 q, .fixed 27 0] rfl ⟨hw, hq, trivial⟩ fun x hx => ?_
    simp [Reads] at hx
    simp [decodeBank, hx, pickBank]
  | bdot | bwacc =>
    obtain ⟨hw, hb, hr, hcol, hos, hsq, hlim, hcol8, hcol4, rfl, rfl, rfl, rfl, rfl, rfl⟩ := of_decide_eq_true h
    refine .of_format [.fixed 63 58, .opnd 57 50 w, .opnd 49 44 b, .opnd 43 28 r, .opnd 27 20 col, .opnd 19 16 os, .opnd 15 4 sq,
        .fixed 3 0] rfl
      ⟨hw, hb, hr, hcol, hos, hsq, trivial⟩ fun x hx => ?_
    have hlow : fld x 22 20 = fld x 27 20 % 8 := by unfold fld; omega
    have hmid : fld x 26 25 = fld x 27 20 / 32 % 4 := by unfold fld; omega
    simp [Reads] at hx
    simp [decodeBank, hx, pickBank, hlow, hmid, hlim, hcol8, hcol4]
  | bemit =>
    obtain ⟨hw, hb, hcol, hos, hsq, rfl, rfl, rfl, rfl, rfl, rfl, rfl⟩ := of_decide_eq_true h
    refine .of_format [.fixed 63 58, .opnd 57 50 w, .opnd 49 44 b, .fixed 43 27, .opnd 26 20 col, .opnd 19 16 os, .opnd 15 4 sq,
        .fixed 3 0] rfl
      ⟨hw, hb, hcol, hos, hsq, trivial⟩ fun x hx => ?_
    simp [Reads] at hx
    simp [decodeBank, hx, pickBank]
  | bwr =>
    obtain ⟨hw, hb, hr, hcol, hos, hsq, hlim, rfl, rfl, rfl, rfl, rfl, rfl⟩ := of_decide_eq_true h
    refine .of_format [.fixed 63 58, .opnd 57 50 w, .opnd 49 44 b, .opnd 43 28 r, .fixed 27 25, .opnd 24 20 col, .opnd 19 16 os,
        .opnd 15 4 sq, .fixed 3 0] rfl
      ⟨hw, hb, hr, hcol, hos, hsq, trivial⟩ fun x hx => ?_
    simp [Reads] at hx
    simp [decodeBank, hx, pickBank, hlim]
  | bwra =>
    obtain ⟨hw, hb, hr, hos, hsq, hlim, rfl, rfl, rfl, rfl, rfl, rfl, rfl⟩ := of_decide_eq_true h
    refine .of_format [.fixed 63 58, .opnd 57 50 w, .opnd 49 44 b, .opnd 43 28 r, .fixed 27 20, .opnd 19 16 os, .opnd 15 4 sq,
        .fixed 3 0] rfl
      ⟨hw, hb, hr, hos, hsq, trivial⟩ fun x hx => ?_
    simp [Reads] at hx
    simp [decodeBank, hx, pickBank, hlim]
  | bclr =>
    obtain ⟨hw, hb, hall, hone, rfl, rfl, rfl, rfl, rfl, rfl, rfl, rfl, rfl⟩ := of_decide_eq_true h
    refine .of_format [.fixed 63 58, .opnd 57 50 w, .opnd 49 44 b, .fixed 43 28, .opnd 27 27 all, .fixed 26 0] rfl
      ⟨hw, hb, hall, trivial⟩ fun x hx => ?_
    have hclear : all = 1 → b = 0 := fun h1 => hone.resolve_left fun h0 => absurd (h1.symm.trans h0) (by decide)
    simp [Reads] at hx
    simpa [decodeBank, hx, pickBank] using hclear
  | bscl =>
    obtain ⟨hw, hb, hr, hcol, hos, hsq, hlim, rfl, rfl, rfl, rfl, rfl, rfl⟩ := of_decide_eq_true h
    refine .of_format [.fixed 63 58, .opnd 57 50 w, .opnd 49 44 b, .opnd 43 28 r, .fixed 27 27, .opnd 26 20 col, .opnd 19 16 os,
        .opnd 15 4 sq, .fixed 3 0] rfl
      ⟨hw, hb, hr, hcol, hos, hsq, trivial⟩ fun x hx => ?_
    simp [Reads] at hx
    simp [decodeBank, hx, pickBank, hlim]
  | bwact =>
    obtain ⟨hw, hb, hwk, rfl, rfl, rfl, rfl, rfl, rfl, rfl, rfl, rfl⟩ := of_decide_eq_true h
    refine .of_format [.fixed 63 58, .opnd 57 50 w, .opnd 49 44 b, .opnd 43 28 wk, .fixed 27 0] rfl ⟨hw, hb, hwk, trivial⟩ fun x hx => ?_
    simp [Reads] at hx
    simp [decodeBank, hx, pickBank]
  | bwadv =>
    obtain ⟨hw, hwk, rfl, rfl, rfl, rfl, rfl, rfl, rfl, rfl, rfl, rfl⟩ := of_decide_eq_true h
    refine .of_format [.fixed 63 58, .opnd 57 50 w, .fixed 49 44, .opnd 43 28 wk, .fixed 27 0] rfl ⟨hw, hwk, trivial⟩ fun x hx => ?_
    simp [Reads] at hx
    simp [decodeBank, hx, pickBank]
  | bloop =>
    obtain ⟨hw, hlp, htgt, hcnt, rfl, rfl, rfl, rfl, rfl, rfl, rfl, rfl⟩ := of_decide_eq_true h
    refine .of_format [.fixed 63 58, .opnd 57 50 w, .fixed 49 46, .opnd 45 44 lp, .fixed 43 38, .opnd 37 28 tgt, .opnd 27 20 cnt,
        .fixed 19 0] rfl
      ⟨hw, hlp, htgt, hcnt, trivial⟩ fun x hx => ?_
    simp [Reads] at hx
    simp [decodeBank, hx, pickBank]
  | bjmp =>
    obtain ⟨hw, htgt, rfl, rfl, rfl, rfl, rfl, rfl, rfl, rfl, rfl, rfl⟩ := of_decide_eq_true h
    refine .of_format [.fixed 63 58, .opnd 57 50 w, .fixed 49 38, .opnd 37 28 tgt, .fixed 27 0] rfl ⟨hw, htgt, trivial⟩ fun x hx => ?_
    simp [Reads] at hx
    simp [decodeBank, hx, pickBank]
  | bsync | bmx =>
    obtain ⟨hw, hos, hsq, rfl, rfl, rfl, rfl, rfl, rfl, rfl, rfl, rfl⟩ := of_decide_eq_true h
    refine .of_format [.fixed 63 58, .opnd 57 50 w, .fixed 49 20, .opnd 19 16 os, .opnd 15 4 sq, .fixed 3 0] rfl
      ⟨hw, hos, hsq, trivial⟩ fun x hx => ?_
    simp [Reads] at hx
    simp [decodeBank, hx, pickBank]
  | _ => cases h

end Sys2Proof

namespace Sys2Proof.Proofs

/-- Settles O52: a format's word is read part by part, and what is read decodes to the instruction. -/
theorem decodingAnEncodedInstructionGivesItBack : Obligations.DecodingAnEncodedInstructionGivesItBack :=
  ⟨fun _ _ h => roundTrip_of_wf h, fun _ _ h => bankRoundTrip_of_wf h⟩

/-- Settles O54: the decoder evaluates on the words of the formats' examples. -/
theorem wordsDecodeAsTheFormatsSay : Obligations.WordsDecodeAsTheFormatsSay := by
  refine ⟨?_, ?_, ?_, ?_, ?_, ?_⟩ <;> decide +kernel

end Sys2Proof.Proofs
end

section
/-!
PROOFS. Every word under a plain guard has its effect under that guard, so that a false guard leaves the count of the word and no other
change.
-/

namespace Sys2Proof.Machine

open Claim

/-- A word under a plain guard has its effect under that guard. -/
theorem exec_of_plainGuard {i : Instr} {g : Guard} (h : plainGuard i = some g) (s : State) :
    ∃ f, exec i s = onStream s (guarded g f) := by
  cases i <;> cases h <;> exact ⟨_, rfl⟩

/-- Guarding by p0 reads no predicate (R62). -/
theorem guardRead_p0 {g : Guard} (h : g.p = 0) (s : State) : guardRead g s = (if s.str.redo then true else !g.neg, s) := by
  unfold guardRead
  rw [h, readP_zero]
  split <;> simp

end Sys2Proof.Machine

namespace Sys2Proof.Proofs

open Machine Claim

/-- Settles O5: under a false guard `guarded` only counts the word, and `guardRead_cases` says what reading the guard changes. -/
theorem guardsAreReadAtIssueAndFalseOnesDoNothing : Obligations.GuardsAreReadAtIssueAndFalseOnesDoNothing := by
  refine ⟨fun i g s hi hs hg => ?_, fun g s _ => ⟨guardRead_cases g s, fun hp => guardRead_p0 hp s⟩⟩
  obtain ⟨f, hf⟩ := exec_of_plainGuard hi s
  rw [hf, onStream_of_resident _ _ hs, guarded_of_false _ _ _ hg, guardRead_cur]

end Sys2Proof.Proofs
end

section
/-!
PROOFS. No step stops the machine: a word of a stream needs a resident task, and a stream comes to a word only where one is resident; a
bank command and a step of the device's own need nothing.
-/

namespace Sys2Proof.Machine

open Claim

/-! ### What an instruction needs -/

/-- A word of a stream has a stream instruction's meaning. `cpStat` and `cpBind` are named so that their effects are read off their own
definitions. -/
theorem exec_of_word {i : Instr} (h : (encode i).isSome = true) (s : State) : ∃ f, exec i s = onStream s f := by
  cases i with
  | cpStat d n => exact ⟨_, show execCpStat d n s = _ from rfl⟩
  | cpBind d n => exact ⟨_, show execCpBind d n s = _ from rfl⟩
  | _ => cases h <;> exact ⟨_, rfl⟩

/-- What no word of a stream encodes, a bank command or a step of the device's own, always has an effect. -/
theorem exec_of_no_word {i : Instr} (h : encode i = none) (s : State) : ∃ t, exec i s = .next t := by
  cases i <;> cases h <;> exact ⟨_, rfl⟩

/-- Where a task is resident every instruction has an effect. -/
theorem exec_of_resident (i : Instr) {s : State} (hs : s.resident = true) : ∃ t, exec i s = .next t := by
  cases h : encode i with
  | none => exact exec_of_no_word h s
  | some w =>
    obtain ⟨f, hf⟩ := exec_of_word (i := i) (by rw [h]; rfl) s
    exact ⟨f s, by rw [hf, onStream_of_resident s f hs]⟩

/-! ### What lands leaves a task resident -/

@[simp] theorem State.resident_unpoison (f : ErrLoc → Bool) (s : State) : (unpoison f s).resident = s.resident := by
  unfold unpoison
  split <;> rfl

@[simp] theorem State.resident_mendFile (f r : Nat) (s : State) : (mendFile f r s).resident = s.resident := State.resident_unpoison _ _

@[simp] theorem State.resident_postOnce (i : Instr) (a : Args) (s : State) : (s.postOnce i a).resident = s.resident := by
  unfold State.postOnce
  split <;> rfl

/-- Bytes written to the scratchpad leave the core's task. -/
@[simp] theorem State.resident_spadWrite (c : Nat) (l : List (Nat × Byte)) (s : State) :
    (s.modCore c fun x => x.spadWrite l).resident = s.resident := by
  refine State.resident_congr _ _ rfl fun k => ?_
  by_cases h : k = c
  · rw [h, State.core_modCore]
    rfl
  · rw [State.core_modCore_of_ne _ _ h]

theorem landOne_resident (f : Flight) (s : State) : (landOne f s).resident = s.resident := by
  have hfl : (if f.fl = 0 then s else s.modStr fun x => { x with fflags := x.fflags ||| f.fl }).resident = s.resident := by
    split <;> simp
  unfold landOne
  dsimp only
  cases f.land with
  | dset d v =>
    dsimp only
    split <;> simp [hfl]
  | _ => simp [hfl]

theorem landDue_resident (s : State) : (landDue s).resident = s.resident := by
  have hfold (l : List Flight) (t : State) : (l.foldl (fun s f => landOne f s) t).resident = t.resident := by
    induction l generalizing t with
    | nil => rfl
    | cons f l ih => rw [List.foldl_cons, ih, landOne_resident]
  unfold landDue
  dsimp only
  split
  · rfl
  · rw [hfold, State.resident_modStr]

/-! ### A word comes to execute only where a task is resident -/

@[simp] theorem State.resident_holding (i : Instr) (s : State) : (holding i s).resident = s.resident := State.resident_modStr _ _

theorem nextWord_resident {s t : State} {i : Instr} (h : nextWord s = .ok (i, t)) : t.resident = s.resident := by
  unfold nextWord at h
  dsimp only at h
  split at h
  · cases h
    rw [State.resident_holding, landDue_resident]
  · split at h
    · cases h
    · cases h
    · cases h
    · split at h
      · cases h
      · cases h
        rw [State.resident_holding, landDue_resident, State.resident_modStr]

theorem beginTurn_resident {s t : State} {i : Instr} (h : beginTurn s = .ok (i, t)) : t.resident = s.resident := by
  unfold beginTurn at h
  dsimp only at h
  split at h
  · cases h
  · split at h
    · split at h
      · split at h
        · cases h
        · cases h
          exact State.resident_holding _ _
      · split at h
        · cases h
        · exact nextWord_resident h
    · split at h <;> cases h
    · split at h <;> cases h

/-- Without a task no stream runs. -/
theorem beginTurn_of_no_task {s t : State} {i : Instr} (hs : s.resident = false) : beginTurn s ≠ .ok (i, t) := by
  have htask : s.task = {} := by
    have h : (s.core s.cur.core).task = none := by simpa [State.resident] using hs
    rw [State.task, h]
    rfl
  have hstr : s.str = {} := by
    rw [State.str, htask]
    cases s.cur.st <;> rfl
  simp [beginTurn, htask, hstr]

theorem resident_of_beginTurn {s t : State} {i : Instr} (h : beginTurn s = .ok (i, t)) : t.resident = true := by
  rw [beginTurn_resident h]
  by_contra hs
  exact beginTurn_of_no_task (Bool.eq_false_iff.2 hs) h

/-! ### What else executes is no word of a stream -/

theorem encode_of_decodeBank {w : Nat} {i : Instr} {o : BankOps} (h : decodeBank w = .ok (i, o)) : encode i = none := by
  have hpick {bad : Bool} {j : Instr} {p : BankOps} (hp : pickBank bad j p = .ok (i, o)) : j = i := by
    unfold pickBank at hp
    split at hp
    · cases hp
    · cases hp
      rfl
  unfold decodeBank at h
  split at h
  case h_22 => cases h
  all_goals
    rw [← hpick h]
    rfl

theorem encode_of_beginWord {key : Nat} {s t : State} {i : Instr} (h : beginWord key s = some (i, t)) : encode i = none := by
  unfold beginWord at h
  dsimp only at h
  split at h
  · split at h
    next hdec =>
      cases h
      exact encode_of_decodeBank hdec
    · cases h
  · cases h

theorem encode_of_takeEvent {n : Nat} {s t : State} {i : Instr} (hs : EventsOnly s) (h : takeEvent n s = some (i, t)) : encode i = none := by
  obtain ⟨e, he, heq⟩ := Option.map_eq_some_iff.1 h
  cases heq
  exact hs e (List.mem_of_getElem? he)

theorem eventsOnly_nextMover {s : State} (h : EventsOnly s) : EventsOnly (nextMover s).2 := by
  unfold nextMover
  split
  · exact h
  · split <;> exact h

theorem eventsOnly_reachPlace {s : State} (h : EventsOnly s) (m : Mover) : EventsOnly (reachPlace m s) := by
  cases m with
  | event n =>
    unfold reachPlace
    dsimp only
    split <;> exact h
  | _ => exact h

/-! ### Each mover's step has a next state -/

theorem streamStep_next (core : Nat) (st : StreamId) (s : State) : ∃ t, streamStep core st s = .next t := by
  unfold streamStep
  dsimp only
  split
  · split
    · exact ⟨_, rfl⟩
    · split <;> exact ⟨_, rfl⟩
  next i s1 hbegin =>
    obtain ⟨t, ht⟩ := exec_of_resident i (resident_of_beginTurn hbegin)
    exact ⟨_, by rw [ht]⟩

theorem matrixStep_next (core : Nat) (s : State) : ∃ t, matrixStep core s = .next t := by
  obtain ⟨t, ht⟩ := exec_of_no_word (i := .followOnStart) rfl { s with arg := { unit := core, st := .m } }
  exact ⟨_, by rw [matrixStep, ht]⟩

theorem chanStep_next (key : Nat) (s : State) : ∃ t, chanStep key s = .next t := by
  unfold chanStep
  split
  · exact ⟨_, rfl⟩
  · split
    · exact ⟨_, rfl⟩
    next i s1 hbegin =>
      obtain ⟨t, ht⟩ := exec_of_no_word (encode_of_beginWord hbegin) s1
      exact ⟨_, by rw [ht]⟩

theorem eventStep_next (n : Nat) {s : State} (h : EventsOnly s) : ∃ t, eventStep n s = .next t := by
  unfold eventStep
  split
  · exact ⟨_, rfl⟩
  next e s1 htake => exact exec_of_no_word (encode_of_takeEvent h htake) s1

theorem moveStep_next (m : Mover) {s : State} (h : EventsOnly s) : ∃ t, moveStep m s = .next t := by
  cases m with
  | stream core st => exact streamStep_next core st s
  | matrix core => exact matrixStep_next core s
  | event n => exact eventStep_next n h
  | chan key => exact chanStep_next key s
  | clock => exact ⟨_, rfl⟩

end Sys2Proof.Machine

namespace Sys2Proof.Proofs

open Machine Claim

/-- Settles O56: a stream's word executes only where a task is resident, and what else executes always has an effect. -/
theorem noStepStopsTheMachine : Obligations.NoStepStopsTheMachine := by
  intro s hs
  unfold SafeAt Steps step
  dsimp only
  split
  · exact moveStep_next _ (eventsOnly_reachPlace (eventsOnly_nextMover hs) _)
  · exact ⟨_, rfl⟩

end Sys2Proof.Proofs
end

section
/-!
PROOFS. What counting, reading a guard and a result in flight leave alone, said once for the beats of vector work.
-/

namespace Sys2Proof.Machine

open Claim

/-! ### What counting and reading a guard leave alone -/

@[simp] theorem countCore_taskOf (u c n : Nat) (s : State) : (countCore u c n s).task = s.task := by
  unfold State.task
  rw [countCore_cur, countCore_task]

@[simp] theorem countCore_str (u c n : Nat) (s : State) : (countCore u c n s).str = s.str := by
  unfold State.str
  rw [countCore_taskOf, countCore_cur]

@[simp] theorem countCore_resident (u c n : Nat) (s : State) : (countCore u c n s).resident = s.resident :=
  State.resident_congr _ _ (countCore_cur ..) fun _ => countCore_task ..

theorem guardRead_resident (g : Guard) (s : State) : (guardRead g s).2.resident = s.resident := by
  rcases guardRead_cases g s with e | ⟨view, prop, n, e⟩ <;> rw [e]
  exact s.resident_modTask _

/-- Reading a guard changes nothing of the core but its task. -/
theorem guardRead_curCore (g : Guard) (s : State) : ∃ t, (guardRead g s).2.curCore = { s.curCore with task := t } := by
  rcases guardRead_cases g s with e | ⟨view, prop, n, e⟩ <;> rw [e]
  · exact ⟨_, rfl⟩
  · exact ⟨_, s.curCore_modTask _⟩

/-! ### What is left alone -/

/-- What a beat, counting and the finding of a page leave alone of the machine, the executing stream apart. -/
structure Kept (s t : State) : Prop where
  cur : t.cur = s.cur := by rfl
  mem : t.mem = s.mem := by rfl
  resident : t.resident = s.resident := by rfl
  ctx : t.task.ctx = s.task.ctx := by rfl
  lata : t.task.lata = s.task.lata := by rfl
  mtlb : t.task.mtlb = s.task.mtlb := by rfl
  cpat : ∀ u, (t.pkg u).cpat = (s.pkg u).cpat := by intro; rfl
  spad : t.curCore.spad = s.curCore.spad := by rfl
  seed : t.curCore.seed = s.curCore.seed := by rfl

theorem Kept.trans {s t u : State} (h : Kept s t) (k : Kept t u) : Kept s u where
  cur := k.cur.trans h.cur
  mem := k.mem.trans h.mem
  resident := k.resident.trans h.resident
  ctx := k.ctx.trans h.ctx
  lata := k.lata.trans h.lata
  mtlb := k.mtlb.trans h.mtlb
  cpat u := (k.cpat u).trans (h.cpat u)
  spad := k.spad.trans h.spad
  seed := k.seed.trans h.seed

theorem Kept.symm {s t : State} (h : Kept s t) : Kept t s where
  cur := h.cur.symm
  mem := h.mem.symm
  resident := h.resident.symm
  ctx := h.ctx.symm
  lata := h.lata.symm
  mtlb := h.mtlb.symm
  cpat u := (h.cpat u).symm
  spad := h.spad.symm
  seed := h.seed.symm

theorem Kept.sameMemory {s t : State} (h : Kept s t) : SameMemory s t := fun a => by rw [h.mem]

@[simp] theorem Task.setStr_ctx (t : Task) (k : StreamId) (x : Stream) : (t.setStr k x).ctx = t.ctx := by cases k <;> rfl
@[simp] theorem Task.setStr_lata (t : Task) (k : StreamId) (x : Stream) : (t.setStr k x).lata = t.lata := by cases k <;> rfl
@[simp] theorem Task.setStr_mtlb (t : Task) (k : StreamId) (x : Stream) : (t.setStr k x).mtlb = t.mtlb := by cases k <;> rfl

theorem kept_modTask {s : State} (hs : s.resident = true) {f : Task → Task} (hctx : (f s.task).ctx = s.task.ctx)
    (hlata : (f s.task).lata = s.task.lata) (hmtlb : (f s.task).mtlb = s.task.mtlb) : Kept s (s.modTask f) where
  resident := s.resident_modTask f
  ctx := by rw [s.task_modTask f hs, hctx]
  lata := by rw [s.task_modTask f hs, hlata]
  mtlb := by rw [s.task_modTask f hs, hmtlb]
  spad := by rw [s.curCore_modTask]
  seed := by rw [s.curCore_modTask]

theorem kept_modStr {s : State} (hs : s.resident = true) (f : Stream → Stream) : Kept s (s.modStr f) :=
  kept_modTask hs (by simp) (by simp) (by simp)

theorem kept_guardRead (g : Guard) {s : State} (hs : s.resident = true) : Kept s (guardRead g s).2 := by
  rcases guardRead_cases g s with e | ⟨view, prop, n, e⟩ <;> rw [e]
  · exact {}
  · exact (kept_modTask hs rfl rfl rfl).trans {}

theorem countPkg_cpat (u c n : Nat) (s : State) (k : Nat) : ((countPkg u c n s).pkg k).cpat = (s.pkg k).cpat := by
  unfold countPkg
  split
  · rfl
  · by_cases h : k = u
    · rw [h, State.pkg_modPkg]
    · rw [State.pkg_modPkg_of_ne _ _ h]

theorem countCore_cpat (u c n : Nat) (s : State) (k : Nat) : ((countCore u c n s).pkg k).cpat = (s.pkg k).cpat := by
  unfold countCore countDie
  rw [countPkg_cpat]
  split <;> split <;> rfl

theorem kept_countCore (u c n : Nat) (s : State) : Kept s (countCore u c n s) where
  cur := countCore_cur ..
  mem := countCore_mem ..
  resident := countCore_resident ..
  ctx := by rw [countCore_taskOf]
  lata := by rw [countCore_taskOf]
  mtlb := by rw [countCore_taskOf]
  cpat := countCore_cpat u c n s
  spad := by
    obtain ⟨e, h⟩ := countCore_core u c n s s.cur.core
    rw [State.curCore, countCore_cur, h]
    rfl
  seed := by
    obtain ⟨e, h⟩ := countCore_core u c n s s.cur.core
    rw [State.curCore, countCore_cur, h]
    rfl

theorem kept_post (s : State) (i : Instr) (a : Args) : Kept s (s.post i a) := {}

@[simp] theorem post_str (s : State) (i : Instr) (a : Args) : (s.post i a).str = s.str := rfl

/-! ### Results of the executing stream -/

/-- The result of a class that the executing stream puts in flight (R91, R99). -/
def flightOf (cls : Nat) (l : Land) (fl : Nat) (s : State) : Flight :=
  { due := s.str.cyc + s.task.lat cls, iss := s.str.cyc, seq := s.str.seq, land := l, fl := fl, wait := if s.task.interlocked cls then 10 else 0 }

theorem result_str {s : State} (hs : s.resident = true) (cls : Nat) (l : Land) (fl : Nat) :
    (result cls l fl s).str = { s.str with flights := s.str.flights ++ [flightOf cls l fl s], seq := s.str.seq + 1 } := by
  unfold result resultAfter
  dsimp only
  split
  · rw [post_str, s.str_modStr _ hs]
    simp [flightOf, *]
  · rw [s.str_modStr _ hs]
    simp [flightOf, *]

theorem kept_result {s : State} (hs : s.resident = true) (cls : Nat) (l : Land) (fl : Nat) : Kept s (result cls l fl s) := by
  unfold result resultAfter
  dsimp only
  split
  · exact (kept_modStr hs _).trans (kept_post _ _ _)
  · exact kept_modStr hs _

theorem landsIf_some (cls : Nat) (l : Land) (fl : Nat) (s : State) : landsIf cls (some (l, fl)) s = result cls l fl s :=
  (result_eq_pending ..).symm

theorem kept_landsIf {s : State} (hs : s.resident = true) (cls : Nat) (l : Option (Land × Nat)) : Kept s (landsIf cls l s) := by
  cases l with
  | none => exact {}
  | some e => rw [landsIf_some]; exact kept_result hs ..

/-- A result that lands changes nothing of its stream but the results in flight and their number. -/
theorem landsIf_str {s : State} (hs : s.resident = true) (cls : Nat) (l : Option (Land × Nat)) :
    (landsIf cls l s).str = { s.str with flights := (landsIf cls l s).str.flights, seq := (landsIf cls l s).str.seq } := by
  cases l with
  | none => rfl
  | some e => rw [landsIf_some, result_str hs]

/-- What is in flight after a result depends on the executing stream and the task's latencies only. -/
theorem landsIf_str_congr {s t : State} (hs : s.resident = true) (h : Kept s t) (hstr : t.str = s.str) (cls : Nat) (l : Option (Land × Nat)) :
    (landsIf cls l t).str = (landsIf cls l s).str := by
  cases l with
  | none => exact hstr
  | some e =>
    rw [landsIf_some, landsIf_some, result_str hs, result_str (h.resident.trans hs), hstr]
    unfold flightOf Task.interlocked Task.lat
    rw [hstr, h.lata]

end Sys2Proof.Machine
end

section
/-!
PROOFS. The rows in which the statements give the vector instructions describe what the model executes, row by row.
-/

namespace Sys2Proof.Machine

open Claim

/-! ### Rows of the statements and the model's instructions -/

/-- A row of the statements describes an instruction of the model: wherever there are as many operands as it has registers, both
count, check, compute, gather and end alike, and what a beat reads of the core is its scratchpad. -/
structure VSpec.DescribedBy (sp : VSpec) (r : VRow) : Prop where
  regs : sp.regs = r.regs := by rfl
  cls : sp.cls = r.cls := by rfl
  bytes : sp.bytes = r.bytes := by rfl
  n : ∀ ops, ops.length = r.regs.length → sp.n ops = r.n ops
  ok : ∀ fs, sp.ask.ok fs = r.ask.ok fs := by intros; rfl
  one : sp.ask.one = r.ask.one := by rfl
  geo : sp.ask.geo = r.ask.geo := by rfl
  rel : ∀ ops, ops.length = r.regs.length → sp.ask.rel ops = r.ask.rel ops
  beat : ∀ c ops lo hi data, ops.length = r.regs.length →
    sp.beat c ops lo hi data = { bytes := (r.out c ops lo hi data).1, fl := (r.out c ops lo hi data).2, data := r.keep c ops lo hi data }
  fin : ∀ ops data s, ops.length = r.regs.length → sp.fin ops data s = landsIf r.cls (r.fin ops data) s
  out_task : ∀ c t ops lo hi data, r.out { c with task := t } ops lo hi data = r.out c ops lo hi data := by intros; rfl
  keep_task : ∀ c t ops lo hi data, r.keep { c with task := t } ops lo hi data = r.keep c ops lo hi data := by intros; rfl

@[simp] theorem opnd_zero (ops : List Qd) : opnd ops 0 = ops.headD (qFields 0) := by cases ops <;> rfl

theorem elemwise_described {g : Guard} {regs : List Nat} {cls : Nat} {ok ok' : List EFmt → Bool} {op op' : List EFmt → List Nat → Nat × Nat}
    (hok : ∀ fs, ok fs = ok' fs) (hop : ∀ fs xs, op fs xs = op' fs xs) : (elemwise regs cls ok op).DescribedBy (ew g regs cls ok' op') := by
  obtain rfl : ok = ok' := funext hok
  obtain rfl : op = op' := funext fun fs => funext (hop fs)
  exact
    { n := fun ops _ => by cases ops <;> rfl
      rel := fun ops _ => by cases ops <;> rfl
      beat := fun c ops lo hi data _ => by cases ops <;> rfl
      fin := fun _ _ _ _ => rfl }

/-- What a reduction writes after its last beat. -/
theorem finWrite_eq_landsIf (cls : Nat) (q : Qd) (n : Nat) (f : Nat → Nat × Nat) (s : State) :
    finWrite cls q ((List.range n).map f) s =
      landsIf cls (if n = 0 then none else some (.spad (q.put 0 (((List.range n).map f).map Prod.fst)), foldFlags ((List.range n).map f))) s := by
  cases n with
  | zero => rfl
  | succ n => simp [finWrite, landsIf, result_eq_pending]

theorem reduceSpec_described {g : Guard} {d a : Nat} {ok : List EFmt → Bool} {red red' : EFmt → EFmt → List Nat → Nat × Nat}
    (hred : ∀ x y l, red x y l = red' x y l) : (reduceSpec d a ok red).DescribedBy (reduction g d a ok red') := by
  obtain rfl : red = red' := funext fun x => funext fun y => funext (hred x y)
  exact
    { n := fun ops h => by obtain ⟨x, y, rfl⟩ := List.length_eq_two.1 h; rfl
      rel := fun ops h => by obtain ⟨x, y, rfl⟩ := List.length_eq_two.1 h; rfl
      beat := fun c ops lo hi data h => by obtain ⟨x, y, rfl⟩ := List.length_eq_two.1 h; rfl
      fin := fun ops data s h => by obtain ⟨x, y, rfl⟩ := List.length_eq_two.1 h; exact finWrite_eq_landsIf .. }

theorem voteSpec_described {g : Guard} {p a : Nat} {f : List Nat → Bool} : (voteSpec p a f).DescribedBy (vote g p a f) where
  n ops _ := by cases ops <;> rfl
  rel _ _ := rfl
  beat c ops lo hi data _ := by cases ops <;> rfl
  fin _ _ s _ := result_eq_pending 9 _ 0 s

theorem quantSpec_described {g : Guard} {d a b : Nat} {ok : List EFmt → Bool} {q : FVal → FVal → Nat × Nat} :
    (quantSpec d a b ok fun _ => q).DescribedBy (quantised g d a b ok q) where
  n ops _ := by cases ops <;> rfl
  rel ops h := by obtain ⟨x, y, z, rfl⟩ := List.length_eq_three.1 h; rfl
  beat c ops lo hi data h := by
    obtain ⟨x, y, z, rfl⟩ := List.length_eq_three.1 h
    unfold quantSpec quantised
    by_cases hlt : lo < hi
    · simp [hlt, opnd]
    · simp [hlt, opnd, Nat.sub_eq_zero_of_le (Nat.le_of_not_lt hlt)]
  fin _ _ _ _ := rfl
  out_task c t ops lo hi data := by rfl

/-! ### The integer forms in the words of the statements (R167, R169) -/

theorem ofSigned_eq_toNat (w : Nat) (x : Int) : ofSigned w x = (BitVec.ofInt w x).toNat := (BitVec.toNat_ofInt ..).symm

theorem EFmt.lo_le_hi (f : EFmt) : f.lo ≤ f.hi := by cases f <;> decide

theorem clampInt_eq_max_min {lo hi : Int} (h : lo ≤ hi) (x : Int) : clampInt lo hi x = max lo (min hi x) := by
  unfold clampInt
  split
  · omega
  · split <;> omega

/-- An integer operation's result, wrapped or clamped, as the statements write it. -/
theorem intOp_eq_int2 (f : Nat → Int → Int → Int) (sat : Bool) (fs : List EFmt) (xs : List Nat) : intOp f sat fs xs = int2 f sat fs xs := by
  unfold intOp int2 intRes
  simp only [ofSigned_eq_toNat, clampInt_eq_max_min (EFmt.lo_le_hi _)]

theorem intOp_bitOp_eq_bits2 (f : Nat → Nat → Nat) (fs : List EFmt) (xs : List Nat) : intOp (bitOp f) false fs xs = bits2 f fs xs := by
  unfold intOp bits2 bitOp intRes
  simp only [ofSigned_eq_toNat]
  rfl

theorem cmpOp_eq_compare (k : Nat) (hk : k < 5) (fs : List EFmt) (xs : List Nat) : cmpOp k fs xs = Claim.compare k fs xs := by
  unfold cmpOp Claim.compare
  cases (fs.getD 1 .fp32).isInt <;> interval_cases k <;> simp

theorem virsum_eq (dst src : EFmt) (v : List Nat) :
    (ofSigned dst.bits (v.foldl (fun t w => t + src.int w) 0), 0) = intRes dst false ((v.map src.int).sum) := by
  unfold intRes
  rw [ofSigned_eq_toNat, List.sum_eq_foldl, List.foldl_map]
  rfl

/-- The element-wise rows describe the element-wise instructions (R165 to R169). -/
theorem ewRow_described {i : Instr} {r : VRow} (h : ewRow i = some r) : ∃ sp : VSpec, (∀ s, exec i s = vExec sp r.g s) ∧ sp.DescribedBy r := by
  cases i with
  | vadd g d a b | vsub g d a b | vmul g d a b | vdiv g d a b | vmin g d a b | vmax g d a b | vminp g d a b | vmaxp g d a b
  | vfma g d a b c | vfms g d a b c | vmov g d a | vneg g d a | vabs g d a | vexp2 g d a | vlog2 g d a | vrcp g d a | vrsqrt g d a
  | vsqrt g d a | vcvt g d a rz =>
    cases h
    exact ⟨_, fun _ => rfl, elemwise_described (fun _ => rfl) fun _ _ => rfl⟩
  | viadd g d a b sat | visub g d a b sat | vimul g d a b sat | vishl g d a b | visra g d a b | vimin g d a b | vimax g d a b =>
    cases h
    exact ⟨_, fun _ => rfl, elemwise_described (fun _ => rfl) (intOp_eq_int2 _ _)⟩
  | vishr g d a b =>
    cases h
    exact ⟨_, fun _ => rfl, elemwise_described (fun _ => rfl) fun fs xs => by
      simp only [ofSigned_eq_toNat]
      exact intOp_eq_int2 _ _ fs xs⟩
  | viand g d a b | vior g d a b | vixor g d a b =>
    cases h
    exact ⟨_, fun _ => rfl, elemwise_described (fun _ => rfl) (intOp_bitOp_eq_bits2 _)⟩
  | vsel g d a b c =>
    cases h
    exact ⟨_, fun _ => rfl, elemwise_described (fun _ => rfl) fun _ xs => by simp only [ne_eq, ite_not]⟩
  | vcmpEq g d a b | vcmpNe g d a b | vcmpLt g d a b | vcmpLe g d a b | vcmpUn g d a b =>
    cases h
    exact ⟨_, fun _ => rfl, elemwise_described (fun _ => rfl) (cmpOp_eq_compare _ (by decide))⟩
  | _ => cases h

/-- Every row of the statements describes the instruction that it stands for. -/
theorem vRow_described {i : Instr} {r : VRow} (h : vRow i = some r) : ∃ sp : VSpec, (∀ s, exec i s = vExec sp r.g s) ∧ sp.DescribedBy r := by
  cases i with
  | vqlg6 g d a b => cases h; exact ⟨_, fun _ => rfl, quantSpec_described⟩
  | vqint8 g d a b => cases h; exact ⟨_, fun _ => rfl, quantSpec_described⟩
  | vrsum g d a => cases h; exact ⟨_, fun _ => rfl, reduceSpec_described fun _ _ _ => rfl⟩
  | vrmax g d a => cases h; exact ⟨_, fun _ => rfl, reduceSpec_described fun _ _ _ => rfl⟩
  | vrmin g d a => cases h; exact ⟨_, fun _ => rfl, reduceSpec_described fun _ _ _ => rfl⟩
  | vrmaxp g d a => cases h; exact ⟨_, fun _ => rfl, reduceSpec_described fun _ _ _ => rfl⟩
  | vrminp g d a => cases h; exact ⟨_, fun _ => rfl, reduceSpec_described fun _ _ _ => rfl⟩
  | virsum g d a => cases h; exact ⟨_, fun _ => rfl, reduceSpec_described virsum_eq⟩
  | vany g p a => cases h; exact ⟨_, fun _ => rfl, voteSpec_described⟩
  | vall g p a => cases h; exact ⟨_, fun _ => rfl, voteSpec_described⟩
  | vdq g d a =>
    cases h
    exact ⟨_, fun _ => rfl,
      { n := fun ops _ => by cases ops <;> rfl
        rel := fun ops h => by obtain ⟨x, y, rfl⟩ := List.length_eq_two.1 h; rfl
        beat := fun c ops lo hi data h => by obtain ⟨x, y, rfl⟩ := List.length_eq_two.1 h; rfl
        fin := fun _ _ _ _ => rfl }⟩
  | vscl g d a b =>
    cases h
    exact ⟨_, fun _ => rfl,
      { n := fun ops h => by obtain ⟨x, y, z, rfl⟩ := List.length_eq_three.1 h; rfl
        rel := fun ops h => by obtain ⟨x, y, z, rfl⟩ := List.length_eq_three.1 h; rfl
        beat := fun c ops lo hi data h => by
          obtain ⟨x, y, z, rfl⟩ := List.length_eq_three.1 h
          cases data <;> simp [gather, opnd]
        fin := fun ops data s h => by obtain ⟨x, y, z, rfl⟩ := List.length_eq_three.1 h; exact finWrite_eq_landsIf .. }⟩
  | vperm g d a b =>
    cases h
    exact ⟨_, fun _ => rfl,
      { n := fun ops _ => by cases ops <;> rfl
        rel := fun ops h => by obtain ⟨x, y, z, rfl⟩ := List.length_eq_three.1 h; rfl
        beat := fun c ops lo hi data h => by
          obtain ⟨x, y, z, rfl⟩ := List.length_eq_three.1 h
          simp only [Nat.mul_comm 128]
          rfl
        fin := fun _ _ _ _ => rfl }⟩
  | vunpk4 g d a =>
    cases h
    exact ⟨_, fun _ => rfl,
      { n := fun ops _ => by cases ops <;> rfl
        rel := fun ops h => by
          obtain ⟨x, y, rfl⟩ := List.length_eq_two.1 h
          simp [shortSource, apply_ite]
        beat := fun c ops lo hi data h => by obtain ⟨x, y, rfl⟩ := List.length_eq_two.1 h; rfl
        fin := fun _ _ _ _ => rfl }⟩
  | vtr8 g d a =>
    cases h
    exact ⟨_, fun _ => rfl,
      { n := fun ops _ => by cases ops <;> rfl
        rel := fun ops h => by obtain ⟨x, y, rfl⟩ := List.length_eq_two.1 h; rfl
        beat := fun c ops lo hi data h => by obtain ⟨x, y, rfl⟩ := List.length_eq_two.1 h; rfl
        fin := fun _ _ _ _ => rfl }⟩
  | vmrg g d a b =>
    cases h
    exact ⟨_, fun _ => rfl,
      { n := fun ops _ => by cases ops <;> rfl
        rel := fun ops h => by obtain ⟨x, y, z, rfl⟩ := List.length_eq_three.1 h; rfl
        beat := fun c ops lo hi data h => by obtain ⟨x, y, z, rfl⟩ := List.length_eq_three.1 h; rfl
        fin := fun _ _ _ _ => rfl }⟩
  | vck g d a =>
    cases h
    exact ⟨_, fun _ => rfl,
      { n := fun ops h => by obtain ⟨x, y, rfl⟩ := List.length_eq_two.1 h; rfl
        rel := fun ops h => by obtain ⟨x, y, rfl⟩ := List.length_eq_two.1 h; rfl
        beat := fun c ops lo hi data h => by obtain ⟨x, y, rfl⟩ := List.length_eq_two.1 h; rfl
        fin := fun ops data s h => by obtain ⟨x, y, rfl⟩ := List.length_eq_two.1 h; exact result_eq_pending 9 _ 0 s }⟩
  | _ => exact ewRow_described h

end Sys2Proof.Machine
end

section
/-!
PROOFS. The beats of a vector instruction from its row: the issue, the first beat and the further ones, a false guard and a failed check.
-/

namespace Sys2Proof.Machine

open Claim

/-! ### Beats (R157, R158) -/

theorem vChecks_of_described {sp : VSpec} {r : VRow} (h : sp.DescribedBy r) {ops : List Qd} (hops : ops.length = r.regs.length) (c : Core)
    (lim n : Nat) : vChecks sp.ask c lim n ops = vChecks r.ask c lim n ops := by
  unfold vChecks
  simp only [h.ok, h.one, h.geo, h.rel ops hops]

/-- The next cycle of an occupancy, or its end with what its beats have gathered (R158). -/
def vNext (sp : VSpec) (o : Occ) (s : State) : State :=
  if o.beat + 1 < o.total then s.modStr fun x => { x with occ := some { o with beat := o.beat + 1 } }
  else (if o.go then sp.fin (o.qs.map qFields) o.data s else s).modStr fun x => { x with occ := none }

/-- A beat is counted, a second time where the operands' lanes collide (R434). -/
def countBeat (o : Occ) (s : State) : State := countCore s.cur.core 0x30 1 (if o.addr = 1 then countCore s.cur.core 0x31 1 s else s)

theorem kept_countBeat (o : Occ) (s : State) : Kept s (countBeat o s) := by
  unfold countBeat
  split
  · exact (kept_countCore ..).trans (kept_countCore ..)
  · exact kept_countCore ..

theorem countBeat_str (o : Occ) (s : State) : (countBeat o s).str = s.str := by
  unfold countBeat
  split <;> simp

/-- The items that a beat of an occupancy takes (R157): the first, and the end. -/
def beatItems (bytes : Bool) (n : Nat) (o : Occ) : Nat × Nat :=
  let e := (beatPlan bytes (o.step = 2 || (bytes && o.addr = 1)) (o.qs.map qFields) n).1
  (o.beat / o.step * e, min n (o.beat / o.step * e + e))

/-- A cycle under a false guard or between two beats does nothing. -/
theorem vCycle_of_idle (sp : VSpec) {o : Occ} (h : (!o.go || o.beat % o.step ≠ 0) = true) (s : State) : vCycle sp o s = vNext sp o s := by
  unfold vCycle
  dsimp only
  rw [if_pos h]
  rfl

/-- What a beat of results in flight is: nothing where it gives neither bytes nor flags. -/
theorem result_eq_landsIf (cls : Nat) (bytes : List (Nat × Byte)) (fl : Nat) (s : State) :
    (if bytes.isEmpty && fl = 0 then s else result cls (.spad bytes) fl s) =
      landsIf cls (if bytes = [] ∧ fl = 0 then none else some (.spad bytes, fl)) s := by
  by_cases h : bytes = [] ∧ fl = 0
  · simp [h, landsIf]
  · rw [if_neg (by simpa using h), if_neg h, landsIf_some]

/-- A beat lands what its instruction computes and is counted. -/
theorem vCycle_of_beat (sp : VSpec) {o : Occ} (hgo : o.go = true) (hbeat : o.beat % o.step = 0) {s : State} (hp : s.poison = []) :
    let e := beatItems sp.bytes (sp.n (o.qs.map qFields)) o
    let out := sp.beat s.curCore (o.qs.map qFields) e.1 e.2 o.data
    vCycle sp o s = vNext sp { o with data := out.data }
      (countBeat o (landsIf sp.cls (if out.bytes = [] ∧ out.fl = 0 then none else some (.spad out.bytes, out.fl)) s)) := by
  have hbad (l : List Nat) : badGranule s l = none := by simp [badGranule, hp]
  unfold vCycle
  dsimp only
  rw [if_neg (by simp [hgo, hbeat]), hbad, ← result_eq_landsIf]
  rfl

/-! ### Beats in the words of the statements -/

/-- A beat of a row over items lo to hi − 1 as the statements write it: what it puts in flight, and what comes after the last beat; the
y registers and memory stay. -/
def BeatLands (r : VRow) (lo hi : Nat) (o : Occ) (s t : State) : Prop :=
  let ops := o.qs.map qFields
  let out := r.out s.curCore ops lo hi o.data
  let kept := r.keep s.curCore ops lo hi o.data
  let last := o.total ≤ o.beat + 1
  t.str.flights = (landsIf r.cls (if last then r.fin ops kept else none)
    (landsIf r.cls (if out.1 = [] ∧ out.2 = 0 then none else some (.spad out.1, out.2)) s)).str.flights ∧
  t.str.occ = (if last then none else some { o with beat := o.beat + 1, data := kept }) ∧ t.str.regs = s.str.regs ∧ SameMemory s t

theorem vNext_of_more (sp : VSpec) {o : Occ} (h : ¬ o.total ≤ o.beat + 1) (s : State) :
    vNext sp o s = s.modStr fun x => { x with occ := some { o with beat := o.beat + 1 } } := if_pos (Nat.lt_of_not_le h)

/-- After the last beat of a described instruction what its row gathered lands. -/
theorem vNext_of_last {sp : VSpec} {r : VRow} (h : sp.DescribedBy r) {o : Occ} (hlen : o.qs.length = r.regs.length) (hgo : o.go = true)
    (hlast : o.total ≤ o.beat + 1) (s : State) :
    vNext sp o s = (landsIf r.cls (r.fin (o.qs.map qFields) o.data) s).modStr fun x => { x with occ := none } := by
  unfold vNext
  rw [if_neg (Nat.not_lt.2 hlast), if_pos hgo, h.fin _ _ _ (by simpa using hlen)]

/-- After a beat the stream goes on to the next, or what its row gathered is in flight: counting in between changes neither. -/
theorem vNext_str {sp : VSpec} {r : VRow} (h : sp.DescribedBy r) {o : Occ} (hlen : o.qs.length = r.regs.length) (hgo : o.go = true)
    {s t : State} (hs : s.resident = true) (hst : Kept s t) (hstr : t.str = s.str) :
    (vNext sp o t).str =
      { (landsIf r.cls (if o.total ≤ o.beat + 1 then r.fin (o.qs.map qFields) o.data else none) s).str with
        occ := if o.total ≤ o.beat + 1 then none else some { o with beat := o.beat + 1 } } ∧ Kept s (vNext sp o t) := by
  have ht : t.resident = true := hst.resident.trans hs
  by_cases hlast : o.total ≤ o.beat + 1
  · rw [vNext_of_last h hlen hgo hlast, if_pos hlast, if_pos hlast, ← landsIf_str_congr hs hst hstr]
    have hfin := kept_landsIf ht r.cls (r.fin (o.qs.map qFields) o.data)
    have hres := hfin.resident.trans ht
    exact ⟨State.str_modStr _ _ hres, hst.trans (hfin.trans (kept_modStr hres _))⟩
  · rw [vNext_of_more sp hlast, if_neg hlast, if_neg hlast, State.str_modStr _ _ ht, hstr]
    exact ⟨rfl, hst.trans (kept_modStr ht _)⟩

/-- A beat of a described instruction does what its row says. -/
theorem vCycle_beatLands {sp : VSpec} {r : VRow} (h : sp.DescribedBy r) {o : Occ} (hlen : o.qs.length = r.regs.length) (hgo : o.go = true)
    (hbeat : o.beat % o.step = 0) {s : State} (hs : s.resident = true) (hp : s.poison = []) {lo hi : Nat}
    (hitems : beatItems r.bytes (r.n (o.qs.map qFields)) o = (lo, hi)) : BeatLands r lo hi o s (vCycle sp o s) := by
  have hops : (o.qs.map qFields).length = r.regs.length := by simpa using hlen
  have hcycle := vCycle_of_beat sp hgo hbeat hp
  rw [h.n _ hops, h.bytes, hitems, h.cls] at hcycle
  dsimp only at hcycle
  rw [h.beat _ _ _ _ _ hops] at hcycle
  rw [hcycle]
  unfold BeatLands
  dsimp only
  generalize hlanded : landsIf r.cls _ s = landed
  have hkept : Kept s landed := hlanded ▸ kept_landsIf hs ..
  have hregs : landed.str.regs = s.str.regs := by rw [← hlanded, landsIf_str hs]
  have hres := hkept.resident.trans hs
  obtain ⟨hstr, hnext⟩ := vNext_str h (o := { o with data := r.keep s.curCore (o.qs.map qFields) lo hi o.data }) hlen hgo hres
    (kept_countBeat o landed) (countBeat_str o landed)
  refine ⟨?_, ?_, ?_, (hkept.trans hnext).sameMemory⟩ <;> rw [hstr]
  rw [landsIf_str hres, hregs]

/-! ### The issue (R157 to R160) -/

theorem guardRead_qreg (g : Guard) {s : State} (hs : s.resident = true) (q : Nat) : (guardRead g s).2.qreg q = s.qreg q := by
  obtain ⟨view, prop, e⟩ := guardRead_task g s hs
  unfold State.qreg
  rw [e]

/-- The statements' plan of an issue is the model's, with one cycle where there is no work (R158). -/
theorem plan_eq_beatPlan (r : VRow) (s : State) :
    let ops := (r.regs.map s.qreg).map qFields
    let p := beatPlan r.bytes (collides ((r.regs.map (physQ s.task.qrot)).zip (ops.map (·.lane)))) ops (r.n ops)
    plan r s = (p.1, if r.n ops = 0 then 1 else p.2.1, p.2.2) := by
  intro ops
  have hunfold : plan r s =
      (let clash := collides ((r.regs.map (physQ s.task.qrot)).zip (ops.map (·.lane)))
       let n := r.n ops
       let b := fun e => max 1 ((n + e - 1) / e)
       if r.bytes then ((if clash then 64 else 128), b (if clash then 64 else 128), 1)
       else if clash then (beatElems ops, if n = 0 then 1 else 2 * b (beatElems ops), 2) else (beatElems ops, b (beatElems ops), 1)) := rfl
  rw [hunfold]
  unfold beatPlan
  dsimp only
  have hone : (beatElems ops - 1) / beatElems ops ≤ 1 := Nat.div_le_of_le_mul (by omega)
  generalize beatElems ops = e at *
  generalize r.n ops = n
  generalize collides _ = clash
  rcases Nat.eq_zero_or_pos n with rfl | hn
  · cases r.bytes <;> cases clash <;> simp [hone]
  · cases r.bytes <;> cases clash <;> simp [hn.ne']

/-- A described instruction issues with the occupancy of the statements (R157, R158). -/
theorem vIssue_of_described {sp : VSpec} {r : VRow} (h : sp.DescribedBy r) (go : Bool) (s : State) :
    let ops := (r.regs.map s.qreg).map qFields
    vIssue sp go s = if !go then vCycle sp (firstOcc r go s) (countCore s.cur.core 6 1 s)
      else readingFile 0 (r.regs.map (physQ s.task.qrot)) (fun t => match vChecks sp.ask t.curCore t.task.spadBytes (r.n ops) ops with
        | some b => fault b.1 b.2.1 b.2.2 t
        | none => vCycle sp (firstOcc r go s) t) s := by
  intro ops
  have hops : ops.length = r.regs.length := by simp [ops]
  unfold vIssue vRegs firstOcc
  dsimp only
  rw [h.regs, h.n _ hops, h.bytes, plan_eq_beatPlan] <;> rfl

/-- What an issue reads of its registers is not changed by reading its guard. -/
theorem firstOcc_guardRead (r : VRow) (g : Guard) (go : Bool) {s : State} (hs : s.resident = true) :
    firstOcc r go (guardRead g s).2 = firstOcc r go s := by
  obtain ⟨view, prop, htask⟩ := guardRead_task g s hs
  have hq : r.regs.map (guardRead g s).2.qreg = r.regs.map s.qreg := List.map_congr_left fun q _ => guardRead_qreg g hs q
  unfold firstOcc plan
  rw [hq, guardRead_str g s hs, htask]

/-- A vector instruction that starts, in the words of the statements: a false guard counts and takes its cycles, a failed check is a precise
fault, and else the first beat is made. -/
theorem exec_vector_of_idle {i : Instr} {r : VRow} (hrow : vRow i = some r) {s : State} (hs : s.resident = true) (hocc : s.str.occ = none) :
    ∃ sp : VSpec, sp.DescribedBy r ∧
      ((guardRead r.g s).1 = false → exec i s = .next (vCycle sp (firstOcc r false s) (countCore s.cur.core 6 1 (guardRead r.g s).2))) ∧
      ((guardRead r.g s).1 = true → s.poison = [] → exec i s = .next
        (match vChecks r.ask s.curCore s.task.spadBytes (r.n ((r.regs.map s.qreg).map qFields)) ((r.regs.map s.qreg).map qFields) with
        | some b => fault b.1 b.2.1 b.2.2 (guardRead r.g s).2
        | none => vCycle sp (firstOcc r true s) (guardRead r.g s).2)) := by
  obtain ⟨sp, hexec, h⟩ := vRow_described hrow
  have hstart : exec i s = .next (vIssue sp (guardRead r.g s).1 (guardRead r.g s).2) := by
    rw [hexec, vExec, onStream_of_resident _ _ hs, vRun, hocc]
  obtain ⟨view, prop, htask⟩ := guardRead_task r.g s hs
  obtain ⟨t, hcore⟩ := guardRead_curCore r.g s
  have hq : r.regs.map (guardRead r.g s).2.qreg = r.regs.map s.qreg := List.map_congr_left fun q _ => guardRead_qreg r.g hs q
  refine ⟨sp, h, fun hg => ?_, fun hg hp => ?_⟩ <;> rw [hstart, hg, vIssue_of_described h, firstOcc_guardRead _ _ _ hs]
  · rw [guardRead_cur]
    rfl
  · rw [if_neg (by decide), readingFile, if_pos (by simp [hp]), vChecks_of_described h (by simp), hq, hcore, htask]
    rfl

/-! ### The first beat (R157, R158) -/

/-- The collision that an issue records stands for its beats' items too (R157). -/
theorem beatPlan_recorded (bytes clash : Bool) (ops : List Qd) (n : Nat) :
    (beatPlan bytes ((beatPlan bytes clash ops n).2.2 = 2 || (bytes && (if clash then 1 else 0) = 1)) ops n).1 = (beatPlan bytes clash ops n).1 := by
  unfold beatPlan
  cases bytes <;> cases clash <;> rfl

theorem beatItems_firstOcc (r : VRow) (s : State) :
    beatItems r.bytes (r.n ((r.regs.map s.qreg).map qFields)) (firstOcc r true s) = (0, min (r.n ((r.regs.map s.qreg).map qFields)) (plan r s).1) := by
  unfold beatItems firstOcc
  rw [plan_eq_beatPlan]
  dsimp only
  rw [beatPlan_recorded]
  simp

/-- What a beat lands is the same after a guard has been read. -/
theorem BeatLands.before_guard {sp : VSpec} {r : VRow} (hd : sp.DescribedBy r) {lo hi : Nat} {o : Occ} {s t : State} (hs : s.resident = true)
    (h : BeatLands r lo hi o (guardRead r.g s).2 t) : BeatLands r lo hi o s t := by
  obtain ⟨c, hcore⟩ := guardRead_curCore r.g s
  have hk := kept_guardRead r.g hs
  have hg := hk.resident.trans hs
  have hland (l : Option (Land × Nat)) : Kept (landsIf r.cls l s) (landsIf r.cls l (guardRead r.g s).2) :=
    (kept_landsIf hs ..).symm.trans (hk.trans (kept_landsIf hg ..))
  unfold BeatLands at h ⊢
  dsimp only at h ⊢
  rw [hcore, hd.out_task, hd.keep_task] at h
  obtain ⟨hflights, hocc, hregs, hmem⟩ := h
  refine ⟨?_, hocc, by rw [hregs, guardRead_str _ _ hs], fun a => by rw [hmem, hk.mem]⟩
  rw [hflights, landsIf_str_congr ((kept_landsIf hs ..).resident.trans hs) (hland _) (landsIf_str_congr hs hk (guardRead_str _ _ hs) ..)]

end Sys2Proof.Machine

namespace Sys2Proof.Proofs

open Machine Claim

/-- Settles O17: each row of the statements describes its instruction, and the first beat of what it describes lands what the row says. -/
theorem vectorInstructionsIssueTheirFirstBeat : Obligations.VectorInstructionsIssueTheirFirstBeat := by
  intro i r s hrow hs hocc hg hp ops hi out kept last hchecks
  obtain ⟨sp, hd, -, hissue⟩ := exec_vector_of_idle hrow hs hocc
  have hgs := (guardRead_resident r.g s).trans hs
  have hbeat : BeatLands r 0 hi (firstOcc r true s) (guardRead r.g s).2 (vCycle sp (firstOcc r true s) (guardRead r.g s).2) :=
    vCycle_beatLands hd (by simp [firstOcc]) rfl (Nat.zero_mod _) hgs (by simp [hp]) (beatItems_firstOcc r s)
  refine ⟨_, by rw [hissue hg hp, hchecks], hbeat.before_guard hd hs⟩

end Sys2Proof.Proofs

namespace Sys2Proof.Proofs

open Machine Claim

/-! ### Further beats and failed checks (R157, R158, R160) -/

/-- An occupancy of `vrsum` that holds one register, of one element, where the instruction names two. -/
def oneRegister : Occ := { ins := .vrsum ⟨0, false⟩ 0 0, total := 2, qs := [BitVec.ofNat 128 (2 ^ 35)] }

/-- The V stream in that occupancy. -/
def holdsOneRegister : State := { cores := [(0, { task := some { v := { occ := some oneRegister } } })], cur := { st := .v } }

/-- How many codes each list of an occupancy holds. -/
def gathered (o : Option Occ) : Option (List Nat) := o.map fun o => o.data.map List.length

/-- The second register is missing, so the model's beat finds no source and gathers no element. -/
theorem exec_holdsOneRegister : ∃ t, exec (.vrsum ⟨0, false⟩ 0 0) holdsOneRegister = .next t ∧ gathered t.str.occ = some [0] :=
  ⟨_, rfl, by decide +kernel⟩

/-- Refutes O18: its first clause asks nothing of how many registers the occupancy holds. In `holdsOneRegister` the row's `opnd` falls back on
the register there is and gathers its element, where the model finds a source of no elements. With as many registers as the instruction
names, as every issue leaves them, the clauses hold: `vectorBeats_of_registers` and `falseGuardsAndFailedChecks`. -/
theorem not_vectorBeatsAndFailedChecks : ¬ Obligations.VectorBeatsAndFailedChecks := by
  rintro ⟨hbeats, -⟩
  obtain ⟨hbeat, -⟩ := hbeats (.vrsum ⟨0, false⟩ 0 0) _ oneRegister holdsOneRegister rfl rfl rfl rfl rfl (.inr rfl)
  obtain ⟨t, ht, -, hocc, -⟩ := hbeat rfl
  obtain ⟨u, hu, hnone⟩ := exec_holdsOneRegister
  cases ht.symm.trans hu
  rw [hocc] at hnone
  exact absurd hnone (by decide +kernel)

/-- The items of a beat as O18 writes them: its collision is that of R157, recorded in the occupancy. -/
theorem beatItems_eq (bytes : Bool) (n : Nat) (o : Occ) :
    beatItems bytes n o =
      (let e := (beatPlan bytes (decide (o.step = 2 ∨ (bytes = true ∧ o.addr = 1))) (o.qs.map qFields) n).1
       (o.beat / o.step * e, min n (o.beat / o.step * e + e))) := by
  simp [beatItems]

/-- The first clause of O18 for an occupancy with the registers that its instruction names. -/
theorem vectorBeats_of_registers {i : Instr} {r : VRow} {o : Occ} {s : State} (hrow : vRow i = some r) (hs : s.resident = true)
    (hocc : s.str.occ = some o) (hp : s.poison = []) (hgo : o.go = true) (hlen : o.qs.length = r.regs.length) :
    let ops := o.qs.map qFields
    let e := beatItems r.bytes (r.n ops) o
    let last := o.total ≤ o.beat + 1
    (o.beat % o.step = 0 → ∃ t, exec i s = .next t ∧ BeatLands r e.1 e.2 o s t) ∧
    (o.beat % o.step ≠ 0 → ¬ last → exec i s = .next (s.modStr fun x => { x with occ := some { o with beat := o.beat + 1 } })) ∧
    (o.beat % o.step ≠ 0 → last → exec i s = .next ((landsIf r.cls (r.fin ops o.data) s).modStr fun x => { x with occ := none })) := by
  obtain ⟨sp, hexec, h⟩ := vRow_described hrow
  have hcycle : exec i s = .next (vCycle sp o s) := by rw [hexec, vExec, onStream_of_resident _ _ hs, vRun, hocc]
  refine ⟨fun hbeat => ⟨_, hcycle, vCycle_beatLands h hlen hgo hbeat hs hp rfl⟩, fun hidle hmore => ?_, fun hidle hlast => ?_⟩ <;>
    rw [hcycle, vCycle_of_idle sp (by simp [hidle])]
  · rw [vNext_of_more sp hmore]
  · rw [vNext_of_last h hlen hgo hlast]

/-- The second clause of O18. -/
theorem falseGuardsAndFailedChecks {i : Instr} {r : VRow} {s : State} (hrow : vRow i = some r) (hs : s.resident = true) (hocc : s.str.occ = none) :
    let ops := (r.regs.map s.qreg).map qFields
    ((guardRead r.g s).1 = false → exec i s = .next ((countCore s.cur.core 6 1 (guardRead r.g s).2).modStr fun x =>
      { x with occ := if 1 < (plan r s).2.1 then some { firstOcc r false s with beat := 1 } else none })) ∧
    (∀ b, (guardRead r.g s).1 = true → s.poison = [] → vChecks r.ask s.curCore s.task.spadBytes (r.n ops) ops = some b →
      exec i s = .next (fault b.1 b.2.1 b.2.2 (guardRead r.g s).2)) := by
  intro ops
  obtain ⟨sp, -, hfalse, htrue⟩ := exec_vector_of_idle hrow hs hocc
  refine ⟨fun hg => ?_, fun b hg hp hb => by rw [htrue hg hp, hb]⟩
  rw [hfalse hg, vCycle_of_idle sp rfl]
  unfold vNext
  by_cases hmore : 1 < (plan r s).2.1
  · rw [if_pos hmore, if_pos (by exact hmore)]
    rfl
  · rw [if_neg hmore, if_neg (by exact hmore)]
    rfl

end Sys2Proof.Proofs
end

section
/-!
PROOFS. The stream-register instructions: what they read and what lands.
-/

namespace Sys2Proof.Machine

open Claim

/-! ### Registers of another file (R428) -/

theorem readingFile_of_clean {f : Nat} {l : List Nat} {s : State} (h : ∀ r ∈ l, ErrLoc.file s.cur.core f r ∉ s.poison) (g : State → State) :
    readingFile f l g s = g s := by
  unfold readingFile
  have hany : (l.any fun r => s.poison.contains (.file s.cur.core f r)) = false := by simpa using h
  rw [hany, if_neg Bool.false_ne_true, ite_self]

theorem readingFile_of_poisoned {f : Nat} {l : List Nat} {s : State} (h : ∃ r ∈ l, ErrLoc.file s.cur.core f r ∈ s.poison) (g : State → State) :
    readingFile f l g s = dataLoss 0 0 s := by
  obtain ⟨r, hr, hp⟩ := h
  unfold readingFile
  rw [if_neg (by simpa using List.ne_nil_of_mem hp), if_pos (by simpa using ⟨r, hr, hp⟩)]

/-! ### Fields of a stream register (R156) -/

/-- A field replaced leaves the bits below and above it. -/
theorem setFld_eq {hi lo : Nat} (h : lo ≤ hi + 1) (w v : Nat) :
    setFld w hi lo v = w % 2 ^ lo + v % 2 ^ (hi + 1 - lo) * 2 ^ lo + w / 2 ^ (hi + 1) * 2 ^ (hi + 1) := by
  have hpow : 2 ^ (hi + 1) = 2 ^ lo * 2 ^ (hi + 1 - lo) := by rw [← Nat.pow_add, Nat.add_sub_cancel' h]
  have hlow := Nat.mod_mul (x := w) (a := 2 ^ lo) (b := 2 ^ (hi + 1 - lo))
  have hall := Nat.div_add_mod' w (2 ^ (hi + 1))
  unfold setFld fld
  rw [← hpow, Nat.mul_comm] at hlow
  omega

theorem setFld_lt {n hi lo w : Nat} (hlo : lo ≤ hi + 1) (hhi : hi < n) (hw : w < 2 ^ n) (v : Nat) : setFld w hi lo v < 2 ^ n := by
  have hpow : 2 ^ (hi + 1) = 2 ^ lo * 2 ^ (hi + 1 - lo) := by rw [← Nat.pow_add, Nat.add_sub_cancel' hlo]
  have hn : 2 ^ n = 2 ^ (hi + 1) * 2 ^ (n - (hi + 1)) := by rw [← Nat.pow_add, Nat.add_sub_cancel' hhi]
  have hlow : w % 2 ^ lo + v % 2 ^ (hi + 1 - lo) * 2 ^ lo < 2 ^ (hi + 1) := by
    calc w % 2 ^ lo + v % 2 ^ (hi + 1 - lo) * 2 ^ lo
        < 2 ^ lo + v % 2 ^ (hi + 1 - lo) * 2 ^ lo := Nat.add_lt_add_right (Nat.mod_lt _ (Nat.two_pow_pos _)) _
      _ = (v % 2 ^ (hi + 1 - lo) + 1) * 2 ^ lo := by ring
      _ ≤ 2 ^ (hi + 1 - lo) * 2 ^ lo := Nat.mul_le_mul_right _ (Nat.mod_lt _ (Nat.two_pow_pos _))
      _ = 2 ^ (hi + 1) := by rw [hpow, Nat.mul_comm]
  have hhigh : w / 2 ^ (hi + 1) < 2 ^ (n - (hi + 1)) := by
    rw [Nat.div_lt_iff_lt_mul (Nat.two_pow_pos _), Nat.mul_comm, ← hn]
    exact hw
  rw [setFld_eq hlo]
  calc _ < 2 ^ (hi + 1) + w / 2 ^ (hi + 1) * 2 ^ (hi + 1) := Nat.add_lt_add_right hlow _
    _ = (w / 2 ^ (hi + 1) + 1) * 2 ^ (hi + 1) := by ring
    _ ≤ 2 ^ (n - (hi + 1)) * 2 ^ (hi + 1) := Nat.mul_le_mul_right _ hhigh
    _ = 2 ^ n := by rw [hn, Nat.mul_comm]

theorem withBits_eq {hi lo : Nat} (h : lo ≤ hi + 1) (w : QWord) (v : Nat) : withBits w hi lo v = BitVec.ofNat 128 (setFld w.toNat hi lo v) := by
  rw [setFld_eq h]
  rfl

theorem withBits_toNat {hi lo : Nat} (h : lo ≤ hi + 1) (hhi : hi < 128) (w : QWord) (v : Nat) :
    (withBits w hi lo v).toNat = setFld w.toNat hi lo v := by
  rw [withBits_eq h, BitVec.toNat_ofNat, Nat.mod_eq_of_lt (setFld_lt h hhi w.isLt v)]

/-! ### Stream-register instructions (R155, R156, R177) -/

theorem guardRead_qrot (g : Guard) {s : State} (hs : s.resident = true) : (guardRead g s).2.task.qrot = s.task.qrot := by
  obtain ⟨view, prop, htask⟩ := guardRead_task g s hs
  rw [htask]

theorem reading_nil (f : State → State) : reading [] f = f := funext fun s => reading_of_clean [] f s (by simp)

theorem readingFile_nil (k : Nat) (f : State → State) : readingFile k [] f = f := funext fun s => readingFile_of_clean (by simp) f

/-- A stream-register instruction reads its registers after its guard and lands what its row says. -/
theorem exec_of_qRow {i : Instr} {g : Guard} {src : List Nat} {cls : Nat} {l : Land} {s : State} (h : qRow s i = some (g, src, cls, l))
    (hs : s.resident = true) : ∃ land : State → Land, land (guardRead g s).2 = l ∧
      exec i s = onStream s (guarded g (reading src (readingFile 0 (qReads s i) fun t => result cls (land t) 0 t))) := by
  have hrot := guardRead_qrot g hs
  have hreg := guardRead_reg g s hs
  have hq := guardRead_qreg g hs
  cases i with
  | vsetq g' d a b =>
    cases h
    refine ⟨fun t => .qreg (physQ t.task.qrot d) (BitVec.ofNat 128 ((t.reg a).toNat + (t.reg b).toNat * 2 ^ 64)), ?_,
      by rw [show qReads s _ = [] from rfl, readingFile_nil]; rfl⟩
    dsimp only
    rw [hrot, hreg, hreg, Nat.mul_comm]
  | vgetq g' d a b =>
    cases h
    refine ⟨fun t => .regs [(a, (t.qreg d).setWidth 64), (b, BitVec.ofNat 64 ((t.qreg d).toNat / 2 ^ 64))], ?_, by rw [reading_nil]; rfl⟩
    dsimp only
    rw [hq]
    rfl
  | vadvq g' d a b =>
    cases h
    refine ⟨fun t => .qreg (physQ t.task.qrot d) (BitVec.ofNat 128 (advQ (t.qreg d).toNat (t.reg a).toNat (t.reg b).toNat)), ?_, rfl⟩
    dsimp only
    rw [hrot, hreg, hreg, hq, withBits_eq (by decide), withBits_toNat (by decide) (by decide), withBits_toNat (by decide) (by decide)]
    simp [advQ, fld]
  | vcntq g' d a =>
    cases h
    refine ⟨fun t => .qreg (physQ t.task.qrot d) (BitVec.ofNat 128 (setFld (t.qreg d).toNat 50 35 (min (t.reg a).toNat 65535))), ?_, rfl⟩
    dsimp only
    rw [hrot, hreg, hq, withBits_eq (by decide)]
  | vstg g' v =>
    cases h
    refine ⟨fun _ => .stg v (stagePreds (fld v 15 12) (fld v 11 8) (fld v 7 0)), ?_,
      by rw [reading_nil, show qReads s _ = [] from rfl, readingFile_nil]; rfl⟩
    simp [fld]
  | _ => cases h

/-- A stream-register instruction that issues lands its row's register, or takes the data loss of a poisoned y register. -/
theorem exec_qRow_of_issues {i : Instr} {g : Guard} {src : List Nat} {cls : Nat} {l : Land} {s : State} (h : qRow s i = some (g, src, cls, l))
    (hi : Issues g s) (hc : Clean src s) :
    ((∀ r ∈ qReads s i, ErrLoc.file s.cur.core 0 r ∉ s.poison) → exec i s = .next (pending 0 cls l 0 (guardRead g s).2)) ∧
    ((∃ r ∈ qReads s i, ErrLoc.file s.cur.core 0 r ∈ s.poison) → exec i s = .next (takeFault { cls := 0x14 } .never (guardRead g s).2)) := by
  obtain ⟨land, hland, hexec⟩ := exec_of_qRow h hi.1
  rw [hexec, onStream_guarded_of_issues hi, reading_guardRead_of_clean hc]
  refine ⟨fun hclean => ?_, fun hpoison => ?_⟩
  · rw [readingFile_of_clean (by simpa using hclean), hland, result_eq_pending]
  · rw [readingFile_of_poisoned (by simpa using hpoison)]
    rfl

end Sys2Proof.Machine
end

section
/-!
PROOFS. The footprint of a vector memory access: its granules, its pages and the translations that the access finds.
-/

namespace Sys2Proof.Machine

open Claim

/-! ### Granules of a footprint (R176) -/

/-- The footprint bytes of a granule that runs from e.1 to e.2 − 1. -/
def granuleBytes (e : Nat × Nat) : List Nat := (List.range (e.2 - e.1)).map (e.1 + ·)

@[simp] theorem granuleBytes_length (e : Nat × Nat) : (granuleBytes e).length = e.2 - e.1 := by simp [granuleBytes]

theorem granuleBytes_headD {e : Nat × Nat} (h : e.1 < e.2) : (granuleBytes e).headD 0 = e.1 := by
  obtain ⟨k, hk⟩ := Nat.exists_eq_add_of_lt h
  simp [granuleBytes, hk, Nat.add_assoc, List.range_succ_eq_map]

theorem granuleBytes_map {α : Type} (e : Nat × Nat) (f : Nat → α) : (granuleBytes e).map f = spanOf e.1 e.2 f := by
  simp [granuleBytes, spanOf, Function.comp_def]

/-- What the statements say of a granule of a beat over footprint bytes lo to hi − 1. -/
structure InBeat (lo hi : Nat) (e : Nat × Nat) : Prop where
  nonempty : e.1 < e.2
  size : e.2 ≤ e.1 + 64
  stop : e.2 ≤ hi
  start : e.1 = lo ∨ e.1 = lo + 64

theorem inBeat_of_mem_halves {lo hi : Nat} {e : Nat × Nat} (h : e ∈ halves lo hi) (hhi : hi ≤ lo + 128) : InBeat lo hi e := by
  simp only [halves, List.mem_filter, List.mem_cons, List.not_mem_nil, or_false, decide_eq_true_eq] at h
  rcases h with ⟨rfl | rfl, hlt⟩ <;> constructor <;> dsimp only at * <;> omega

theorem halves_length_le (lo hi : Nat) : (halves lo hi).length ≤ 2 := List.length_filter_le _ _

/-- The granules of a beat follow one another. -/
theorem halves_pairwise (lo hi : Nat) : (halves lo hi).Pairwise fun e f => f.1 = e.1 + 64 ∧ e.2 ≤ f.1 := by
  refine List.Pairwise.filter _ ?_
  simp

theorem halves_ne_nil {lo hi : Nat} (h : lo < hi) : halves lo hi ≠ [] := by
  have hmem : (lo, min hi (lo + 64)) ∈ halves lo hi := by simp [halves, h]
  exact List.ne_nil_of_mem hmem

/-- The model's granules of a beat are the statements'. -/
theorem granules_eq {lo hi : Nat} (h : hi ≤ lo + 128) : granules lo hi = (halves lo hi).map granuleBytes := by
  have hfirst : granuleBytes (lo, min hi (lo + 64)) = (List.range (min 64 (hi - lo))).map (lo + ·) := by
    unfold granuleBytes
    dsimp only
    rw [show min hi (lo + 64) - lo = min 64 (hi - lo) by omega]
  have hsecond : granuleBytes (lo + 64, hi) = (List.range (min 64 (hi - (lo + 64)))).map (lo + 64 + ·) := by
    unfold granuleBytes
    dsimp only
    rw [show min 64 (hi - (lo + 64)) = hi - (lo + 64) by omega]
  unfold granules halves
  by_cases hlo : lo < hi
  · by_cases hmid : lo + 64 < hi
    · simp [hlo, hmid, hfirst, hsecond]
    · simp [hlo, hmid, hfirst]
  · have hmid : ¬ lo + 64 < hi := by omega
    simp [hlo, hmid]

/-! ### Pages of 64 KiB and more (R237, R240) -/

theorem TlbEnt.hits_iff (x : TlbEnt) (ctx va : Nat) : x.hits ctx va = true ↔ x.ctx = ctx ∧ x.vpn = va / 2 ^ x.bits := by
  simp [TlbEnt.hits]

theorem div_two_pow_congr {a c n b : Nat} (h : n ≤ b) (hac : a / 2 ^ n = c / 2 ^ n) : a / 2 ^ b = c / 2 ^ b := by
  rw [← Nat.add_sub_cancel' h, Nat.pow_add, ← Nat.div_div_eq_div_mul, ← Nat.div_div_eq_div_mul, hac]

/-- A translation of a page of 64 KiB or more holds all of 64 KiB. -/
theorem TlbEnt.hits_congr {x : TlbEnt} (hx : 16 ≤ x.bits) {ctx a c : Nat} (h : a / 2 ^ 16 = c / 2 ^ 16) (hit : x.hits ctx a = true) :
    x.hits ctx c = true := by
  rw [TlbEnt.hits_iff] at hit ⊢
  rw [← div_two_pow_congr hx h]
  exact hit

/-- Physical addresses run on through a page. -/
theorem TlbEnt.page_pa_add {x : TlbEnt} (hx : 16 ≤ x.bits) {a m : Nat} (ha : a % 64 = 0) (hm : m < 64) :
    (x.page (a + m)).pa = (x.page a).pa + m := by
  have hdiv : (a + m) / 2 ^ x.bits = a / 2 ^ x.bits := div_two_pow_congr (n := 6) (by omega) (by omega)
  have h1 := Nat.div_add_mod (a + m) (2 ^ x.bits)
  have h2 := Nat.div_add_mod a (2 ^ x.bits)
  rw [hdiv] at h1
  unfold TlbEnt.page
  dsimp only
  omega

theorem TlbEnt.page_pa_mod {x : TlbEnt} (hx : 16 ≤ x.bits) (a : Nat) : (x.page a).pa % 2 ^ 16 = a % 2 ^ 16 := by
  have hdvd : 2 ^ 16 ∣ 2 ^ x.bits := Nat.pow_dvd_pow 2 hx
  unfold TlbEnt.page
  dsimp only
  rw [Nat.add_comm, Nat.add_mul_mod_self_right, Nat.mod_mod_of_dvd _ hdvd]

/-! ### Translations that agree (R240) -/

theorem pageIn_eq_some {l : List TlbEnt} {s : State} {v : Nat} {p : Page} (h : pageIn l s v = some p) :
    ∃ x, l.find? (·.hits s.task.ctx v) = some x ∧ x.bad = false ∧ p = x.page v := by
  obtain ⟨x, hx, hp⟩ := Option.bind_eq_some_iff.1 h
  refine ⟨x, hx, ?_⟩
  split at hp
  · cases hp
  next hbad => exact ⟨Bool.eq_false_iff.2 hbad, (Option.some.inj hp).symm⟩

/-- Where translations agree, one that holds an address is the one found for it. -/
theorem find_of_onePage {l : List TlbEnt} {s : State} (h : OnePage l s) {x : TlbEnt} (hx : x ∈ l) {v : Nat} (hit : x.hits s.task.ctx v = true) :
    l.find? (·.hits s.task.ctx v) = some x := by
  cases hf : l.find? (·.hits s.task.ctx v) with
  | none => exact absurd hit (List.find?_eq_none.1 hf x hx)
  | some y => rw [(h x hx).2 y (List.mem_of_find?_eq_some hf) v hit (List.find?_some (p := fun y : TlbEnt => y.hits s.task.ctx v) hf)]

/-- A translation of the list that holds an address gives its page. -/
theorem page_of_onePage {l : List TlbEnt} {s : State} (h : OnePage l s) {x : TlbEnt} (hx : x ∈ l) {v : Nat} (hit : x.hits s.task.ctx v = true)
    {p : Page} (hp : pageIn l s v = some p) : p = x.page v := by
  obtain ⟨y, hy, -, rfl⟩ := pageIn_eq_some hp
  cases (find_of_onePage h hx hit).symm.trans hy
  rfl

/-! ### The pages of a footprint -/

theorem mem_pagesOf {va n v : Nat} (h : v ∈ pagesOf va n) : va ≤ v ∧ v < va + n := by
  unfold pagesOf at h
  split at h
  · cases h
  · obtain ⟨i, hi, rfl⟩ := List.mem_map.1 h
    rw [List.mem_range] at hi
    omega

/-- Every byte of a footprint lies in the 64 KiB of one of its page addresses. -/
theorem exists_pagesOf {va n v : Nat} (hlo : va ≤ v) (hhi : v < va + n) : ∃ u ∈ pagesOf va n, u / 2 ^ 16 = v / 2 ^ 16 := by
  unfold pagesOf
  rw [if_neg (by omega)]
  refine ⟨_, List.mem_map_of_mem (List.mem_range.2 (show v / 65536 - va / 65536 < _ by omega)), ?_⟩
  omega

/-! ### Finding the pages of an access (R176, R240) -/

/-- What finding pages changes: the translations that the access has found, now `got`, the page the stream waits for, and the core's TLB. -/
structure PagesSought (got : List TlbEnt) (s t : State) : Prop where
  kept : Kept s t
  poison : t.poison = s.poison
  remote : t.curCore.remote = s.curCore.remote
  str : ∃ miss res, t.str = { s.str with miss := miss, walkRes := res, got := got }

theorem PagesSought.refl (s : State) : PagesSought s.str.got s s := ⟨{}, rfl, rfl, _, _, rfl⟩

theorem PagesSought.trans {g g' : List TlbEnt} {s t u : State} (h : PagesSought g s t) (k : PagesSought g' t u) : PagesSought g' s u := by
  obtain ⟨m, w, hstr⟩ := h.str
  obtain ⟨m', w', kstr⟩ := k.str
  exact ⟨h.kept.trans k.kept, k.poison.trans h.poison, k.remote.trans h.remote, m', w', by rw [kstr, hstr]⟩

theorem PagesSought.got {g : List TlbEnt} {s t : State} (h : PagesSought g s t) : t.str.got = g := by
  obtain ⟨m, w, hstr⟩ := h.str
  rw [hstr]

/-- The micro-TLB stays. -/
theorem PagesSought.utlb {g : List TlbEnt} {s t : State} (h : PagesSought g s t) : t.utlb = s.utlb := by
  obtain ⟨m, w, hstr⟩ := h.str
  unfold State.utlb usesPipes
  rw [h.kept.cur, h.kept.mtlb, hstr]

theorem pagesSought_of_str {s t : State} (hk : Kept s t) (hp : t.poison = s.poison) (hr : t.curCore.remote = s.curCore.remote)
    (hstr : t.str = s.str) : PagesSought s.str.got s t := ⟨hk, hp, hr, _, _, hstr⟩

theorem pagesSought_modStr {s : State} (hs : s.resident = true) {f : Stream → Stream} {g : List TlbEnt}
    (hf : ∃ miss res, f s.str = { s.str with miss := miss, walkRes := res, got := g }) : PagesSought g s (s.modStr f) where
  kept := kept_modStr hs f
  poison := rfl
  remote := by
    unfold State.modStr
    rw [State.curCore_modTask]
  str := by
    rw [s.str_modStr f hs]
    exact hf

/-- A translation kept in the core's TLB. -/
theorem pagesSought_modCore_tlb (s : State) (g : List TlbEnt → List TlbEnt) :
    PagesSought s.str.got s (s.modCore s.cur.core fun c => { c with tlb := g c.tlb }) := by
  have hcore : (s.modCore s.cur.core fun c => { c with tlb := g c.tlb }).curCore = { s.curCore with tlb := g s.curCore.tlb } := State.core_modCore ..
  have htask : (s.modCore s.cur.core fun c => { c with tlb := g c.tlb }).task = s.task := by
    unfold State.task
    rw [State.modCore_cur, State.core_modCore]
  refine pagesSought_of_str
    { resident := ?_, ctx := by rw [htask], lata := by rw [htask], mtlb := by rw [htask], spad := by rw [hcore], seed := by rw [hcore] }
    rfl (by rw [hcore]) ?_
  · unfold State.resident
    rw [State.modCore_cur, State.core_modCore]
  · unfold State.str
    rw [htask, State.modCore_cur]

theorem tlbAdd_of_mem {n : Nat} {l : List TlbEnt} {x : TlbEnt} (h : x ∈ l) : tlbAdd n l x = l := if_pos (by simpa using h)

/-- A translation that the micro-TLB holds is kept there as it stands. -/
theorem pagesSought_keepUtlb {s : State} (hs : s.resident = true) {x : TlbEnt} (hx : x ∈ s.utlb) : PagesSought s.str.got s (keepUtlb x s) := by
  unfold State.utlb at hx
  unfold keepUtlb
  split at hx
  next hpipes =>
    rw [if_pos hpipes]
    have htask : (s.modTask fun t => { t with mtlb := tlbAdd 32 t.mtlb x }).task = s.task := by
      rw [s.task_modTask _ hs, tlbAdd_of_mem hx]
    refine pagesSought_of_str (kept_modTask hs rfl rfl (tlbAdd_of_mem hx)) rfl (by rw [State.curCore_modTask]) ?_
    unfold State.str
    rw [htask, State.modTask_cur]
  next hpipes =>
    rw [if_neg hpipes]
    exact pagesSought_modStr hs ⟨_, _, by rw [tlbAdd_of_mem hx]⟩

/-- Keeping a translation that the micro-TLB has given changes nothing that an access reads. -/
theorem pagesSought_keepXlate {s : State} (hs : s.resident = true) {v : Nat} {x : TlbEnt} (hx : s.utlb.find? (·.hits s.task.ctx v) = some x) :
    PagesSought s.str.got s (keepXlate v s) := by
  have hlook : tlbLook s v = some x := by simp [tlbLook, hx]
  have hcore : PagesSought s.str.got s
      (if s.curCore.tlb.contains x then s else s.modCore s.cur.core fun c => { c with tlb := tlbAdd 512 c.tlb x }) := by
    split
    · exact .refl s
    · exact pagesSought_modCore_tlb s fun l => tlbAdd 512 l x
  unfold keepXlate
  rw [hlook]
  dsimp only
  generalize (if s.curCore.tlb.contains x then s else _) = t at hcore ⊢
  have ht := hcore.kept.resident.trans hs
  have hkeep := pagesSought_keepUtlb ht (x := x) (hcore.utlb ▸ List.mem_of_find?_eq_some hx)
  refine hcore.trans (hkeep.trans (pagesSought_modStr (hkeep.kept.resident.trans ht) ?_))
  rw [← hcore.got, ← hkeep.got]
  split
  · exact ⟨_, _, rfl⟩
  · exact ⟨_, _, rfl⟩

/-- The micro-TLB gives an access the page of an entry that it holds. -/
theorem withPage_of_held {s : State} {v : Nat} (hv : v < 2 ^ 56) {x : TlbEnt} (hx : s.utlb.find? (·.hits s.task.ctx v) = some x)
    (hbad : x.bad = false) (kind : Nat) (f : Page → State → State) : withPage kind v s f = f (x.page v) (keepXlate v s) := by
  unfold withPage xlate
  rw [if_neg (by omega), hx]
  simp [TlbEnt.found, hbad]

/-- What an access notes of a page is the entry that gave it. -/
theorem noted_eq {x : TlbEnt} {ctx v : Nat} (hit : x.hits ctx v = true) (hbad : x.bad = false) :
    ({ ctx := ctx, vpn := v / 2 ^ (x.page v).bits, bits := (x.page v).bits, pte := (x.page v).pte } : TlbEnt) = x := by
  obtain ⟨hctx, hvpn⟩ := (x.hits_iff ctx v).1 hit
  cases x
  simp_all [TlbEnt.page]

/-- Pages that the micro-TLB holds and the access may use are found one after the other (R176): what was found is of the micro-TLB. -/
theorem withPages_of_held {kind : Nat} {bad : Nat → Option Nat} {f : State → State} (l : List Nat) {s : State} (hs : s.resident = true)
    (hl : ∀ v ∈ l, v < 2 ^ 56 ∧ ∃ x, s.utlb.find? (·.hits s.task.ctx v) = some x ∧ x.bad = false ∧ bad x.pte = none)
    (hgot : ∀ x ∈ s.str.got, x ∈ s.utlb) :
    ∃ t got, withPages kind bad f l s = f t ∧ PagesSought got s t ∧ (∀ x ∈ got, x ∈ s.utlb) ∧ (∀ x ∈ s.str.got, x ∈ got) ∧
      ∀ v ∈ l, ∃ x ∈ got, x.hits s.task.ctx v = true := by
  induction l generalizing s with
  | nil => exact ⟨s, _, rfl, .refl s, hgot, fun _ h => h, by simp⟩
  | cons v l ih =>
    obtain ⟨⟨hlt, x, hx, hxbad, hok⟩, hl⟩ := List.forall_mem_cons.1 hl
    unfold withPages
    cases hfound : gotXlate s v with
    | some y =>
      obtain ⟨t, got, hf, hst, hsub, hkept, hall⟩ := ih hs hl hgot
      refine ⟨t, got, hf, hst, hsub, hkept, List.forall_mem_cons.2 ⟨⟨y, hkept y (List.mem_of_find?_eq_some hfound), ?_⟩, hall⟩⟩
      exact List.find?_some (p := fun z : TlbEnt => z.hits s.task.ctx v) hfound
    | none =>
      have hxmem := List.mem_of_find?_eq_some hx
      have hit : x.hits s.task.ctx v = true := List.find?_some (p := fun z : TlbEnt => z.hits s.task.ctx v) hx
      have hkeep := pagesSought_keepXlate hs hx
      have hnote := pagesSought_modStr (hkeep.kept.resident.trans hs) (f := fun y => { y with got := x :: y.got }) ⟨_, _, rfl⟩
      have hstep := hkeep.trans hnote
      rw [hkeep.got] at hstep
      dsimp only
      rw [withPage_of_held hlt hx hxbad, show bad (x.page v).pte = none from hok]
      dsimp only
      rw [hkeep.kept.ctx, noted_eq hit hxbad]
      generalize (keepXlate v s).modStr _ = u at hstep ⊢
      obtain ⟨t, got, hf, hst, hsub, hkept, hall⟩ := ih (s := u) (hstep.kept.resident.trans hs)
        (by rw [hstep.utlb, hstep.kept.ctx]; exact hl)
        (by rw [hstep.utlb, hstep.got]; exact List.forall_mem_cons.2 ⟨hxmem, hgot⟩)
      rw [hstep.utlb] at hsub
      rw [hstep.kept.ctx] at hall
      rw [hstep.got] at hkept
      exact ⟨t, got, hf, hstep.trans hst, hsub, fun z hz => hkept z (.tail _ hz), List.forall_mem_cons.2 ⟨⟨x, hkept x (.head _), hit⟩, hall⟩⟩

/-! ### Granules and the pages found for them (R176) -/

/-- An access at t has found the page of a granule of a footprint at va, and the translations l give the same page for every byte of it. -/
structure Served (l : List TlbEnt) (s : State) (va : Nat) (t : State) (e : Nat × Nat) (p : Page) : Prop where
  found : (gotXlate t (va + e.1)).isSome = true
  at_first : pageAt t (va + e.1) = p
  page : pageIn l s (va + e.1) = some p
  bytes : ∀ m < e.2 - e.1, physIn l s (va + (e.1 + m)) = p.pa + m
  place : p.pa % 2 ^ 16 = (va + e.1) % 2 ^ 16

/-- What is found of translations that agree serves the granules of a footprint whose bytes they hold. -/
theorem served_of_found {l : List TlbEnt} {s t : State} {va n lo hi : Nat} (hone : OnePage l s) (hctx : t.task.ctx = s.task.ctx)
    (hsub : ∀ x ∈ t.str.got, x ∈ l) (hin : ∀ v, va ≤ v → v < va + n → ∃ p, pageIn l s v = some p)
    (hfound : ∀ v, va ≤ v → v < va + n → ∃ x ∈ t.str.got, x.hits s.task.ctx v = true)
    (halign : (va + lo) % 64 = 0) (hhi : hi ≤ n) {e : Nat × Nat} (he : InBeat lo hi e) : ∃ p, Served l s va t e p := by
  obtain ⟨hne, hsize, hstop, hstart⟩ := he
  obtain ⟨p, hp⟩ := hin (va + e.1) (by omega) (by omega)
  have hpage (y : TlbEnt) (hy : y ∈ l) (m : Nat) (hm : m < e.2 - e.1) (hit : y.hits s.task.ctx (va + (e.1 + m)) = true) :
      physIn l s (va + (e.1 + m)) = (y.page (va + (e.1 + m))).pa := by
    obtain ⟨q, hq⟩ := hin (va + (e.1 + m)) (by omega) (by omega)
    rw [physIn, hq, page_of_onePage hone hy hit hq]
    rfl
  obtain ⟨x, hx, hit⟩ : ∃ x, t.str.got.find? (·.hits s.task.ctx (va + e.1)) = some x ∧ x.hits s.task.ctx (va + e.1) = true := by
    obtain ⟨y, hy, hit⟩ := hfound (va + e.1) (by omega) (by omega)
    cases hf : t.str.got.find? (·.hits s.task.ctx (va + e.1)) with
    | none => exact absurd hit (List.find?_eq_none.1 hf y hy)
    | some x => exact ⟨x, rfl, List.find?_some (p := fun z : TlbEnt => z.hits s.task.ctx (va + e.1)) hf⟩
  have hxl := hsub x (List.mem_of_find?_eq_some hx)
  have hbits := (hone x hxl).1
  obtain rfl := page_of_onePage hone hxl hit hp
  refine ⟨x.page (va + e.1), ?_, ?_, hp, fun m hm => ?_, TlbEnt.page_pa_mod hbits _⟩
  · simp [gotXlate, hctx, hx]
  · simp [pageAt, gotXlate, hctx, hx]
  · rw [hpage x hxl m hm (TlbEnt.hits_congr hbits (by omega) hit), ← Nat.add_assoc, TlbEnt.page_pa_add hbits (by omega) (by omega)]

theorem gotXlate_congr {t u : State} (hgot : u.str.got = t.str.got) (hctx : u.task.ctx = t.task.ctx) (a : Nat) : gotXlate u a = gotXlate t a := by
  unfold gotXlate
  rw [hgot, hctx]

/-- A page that an access has found depends on its translations only. -/
theorem pageAt_congr {t u : State} (hgot : u.str.got = t.str.got) (hctx : u.task.ctx = t.task.ctx) {a : Nat} (h : (gotXlate t a).isSome = true) :
    pageAt u a = pageAt t a := by
  obtain ⟨x, hx⟩ := Option.isSome_iff_exists.1 h
  unfold pageAt
  rw [gotXlate_congr hgot hctx, hx]

theorem Served.congr {l : List TlbEnt} {s : State} {va : Nat} {t u : State} {e : Nat × Nat} {p : Page} (h : Served l s va t e p)
    (hgot : u.str.got = t.str.got) (hctx : u.task.ctx = t.task.ctx) : Served l s va u e p where
  found := by rw [gotXlate_congr hgot hctx, h.found]
  at_first := by rw [pageAt_congr hgot hctx h.found, h.at_first]
  page := h.page
  bytes := h.bytes
  place := h.place

/-- The physical bytes of a granule run on from its page's. -/
theorem Served.physBytes {l : List TlbEnt} {s : State} {va : Nat} {t : State} {e : Nat × Nat} {p : Page} (h : Served l s va t e p) :
    spanOf e.1 e.2 (fun m => physIn l s (va + m)) = bytesFrom p.pa (e.2 - e.1) :=
  List.map_congr_left fun m hm => h.bytes m (List.mem_range.1 hm)

theorem Served.physFirst {l : List TlbEnt} {s : State} {va : Nat} {t : State} {e : Nat × Nat} {p : Page} (h : Served l s va t e p) :
    physIn l s (va + e.1) = p.pa := by
  rw [physIn, h.page]
  rfl

end Sys2Proof.Machine
end

section
/-!
PROOFS. The beats of vector loads: the requests of their granules, or the pattern of a constant-fill page.
-/

namespace Sys2Proof.Machine

open Claim

/-! ### Requests to other packages (R355) -/

theorem countCore_remote (u c n : Nat) (s : State) : (countCore u c n s).curCore.remote = s.curCore.remote := by
  obtain ⟨e, h⟩ := countCore_core u c n s s.cur.core
  rw [State.curCore, countCore_cur, h]
  rfl

theorem modStr_remote (s : State) (f : Stream → Stream) : (s.modStr f).curCore.remote = s.curCore.remote := by
  unfold State.modStr
  rw [State.curCore_modTask]

@[simp] theorem post_remote (s : State) (i : Instr) (a : Args) : (s.post i a).curCore.remote = s.curCore.remote := rfl

theorem Kept.isRemote {s t : State} (h : Kept s t) (pa : Nat) : Machine.isRemote t pa = Machine.isRemote s pa := by
  unfold Machine.isRemote
  rw [h.cur]

/-- One more request of the core to another package is outstanding. -/
theorem kept_modCore_remote (s : State) : Kept s (s.modCore s.cur.core fun c => { c with remote := c.remote + 1 }) where
  resident := by
    unfold State.resident
    rw [State.modCore_cur, State.core_modCore]
  ctx := by rw [State.task, State.modCore_cur, State.core_modCore]; rfl
  lata := by rw [State.task, State.modCore_cur, State.core_modCore]; rfl
  mtlb := by rw [State.task, State.modCore_cur, State.core_modCore]; rfl
  spad := by rw [State.curCore, State.modCore_cur, State.core_modCore]; rfl
  seed := by rw [State.curCore, State.modCore_cur, State.core_modCore]; rfl

/-- An access with a place for its request goes on, with at most one request more outstanding. -/
theorem remotePlace_of_room {pa : Nat} {s : State} (h : isRemote s pa = false ∨ s.curCore.remote < 64) (f : State → State) :
    ∃ t, remotePlace pa f s = f t ∧ Kept s t ∧ t.str = s.str ∧ t.curCore.remote ≤ s.curCore.remote + 1 := by
  unfold remotePlace
  split
  next hfar =>
    rw [hfar] at h
    have hroom : ¬ 64 ≤ s.curCore.remote := by simpa using h
    rw [if_neg hroom]
    refine ⟨_, rfl, (kept_modCore_remote s).trans (kept_countCore ..), ?_, ?_⟩
    · rw [countCore_str, State.str, State.task, State.modCore_cur, State.core_modCore]
      rfl
    · rw [countCore_remote, State.curCore, State.modCore_cur, State.core_modCore]
      rfl
  · exact ⟨s, rfl, {}, rfl, Nat.le_succ _⟩

/-! ### The loads of a beat (R176) -/

/-- Flights put in flight, with at most one request to another package each; the rest of the executing stream stays. -/
structure Issued (fs : List Flight) (s t : State) : Prop where
  kept : Kept s t
  str : t.str = { s.str with flights := s.str.flights ++ fs, seq := t.str.seq }
  remote : t.curCore.remote ≤ s.curCore.remote + fs.length

theorem Issued.refl (s : State) : Issued [] s s := ⟨{}, by rw [List.append_nil], Nat.le_refl _⟩

theorem Issued.trans {fs gs : List Flight} {s t u : State} (h : Issued fs s t) (k : Issued gs t u) : Issued (fs ++ gs) s u where
  kept := h.kept.trans k.kept
  str := by rw [k.str, h.str, List.append_assoc]
  remote := by
    have hk := k.remote
    have hh := h.remote
    rw [List.length_append]
    omega

theorem Issued.got {fs : List Flight} {s t : State} (h : Issued fs s t) : t.str.got = s.str.got := by rw [h.str]

theorem Issued.cyc {fs : List Flight} {s t : State} (h : Issued fs s t) : t.str.cyc = s.str.cyc := by rw [h.str]

theorem issued_result {s : State} (hs : s.resident = true) (cls : Nat) (l : Land) (fl : Nat) :
    Issued [flightOf cls l fl s] s (result cls l fl s) where
  kept := kept_result hs ..
  str := by rw [result_str hs]
  remote := by
    have hr : (result cls l fl s).curCore.remote = s.curCore.remote := by
      unfold result resultAfter
      dsimp only
      split
      · rw [post_remote, modStr_remote]
      · exact modStr_remote ..
    exact hr.trans_le (Nat.le_add_right ..)

/-- A load that is put in flight with its data late. -/
theorem issued_inFlight {s t : State} (hs : s.resident = true) (hk : Kept s t) (hstr : t.str = s.str) (hr : t.curCore.remote ≤ s.curCore.remote + 1)
    (f : Flight) (i : Instr) (a : Args) :
    Issued [f] s ((t.modStr fun x => { x with flights := x.flights ++ [f], seq := x.seq + 1 }).post i a) where
  kept := hk.trans ((kept_modStr (hk.resident.trans hs) _).trans (kept_post ..))
  str := by rw [post_str, t.str_modStr _ (hk.resident.trans hs), hstr]
  remote := by
    rw [post_remote, modStr_remote]
    exact hr

/-- A load into the scratchpad is in flight, its data late (R100). -/
theorem issueLoad_spad {cls : Nat} {r : LoadReq} {dst : List Nat} {s : State} (hs : s.resident = true) (hhow : r.how = .spad dst)
    (hroom : isRemote s (r.addrs.headD 0) = false ∨ s.curCore.remote < 64) :
    ∃ f r', Issued [f] s (issueLoad cls r s) ∧ f.due = s.str.cyc + s.task.lat cls ∧ f.iss = s.str.cyc ∧ f.req = some r' ∧
      r'.addrs = r.addrs ∧ r'.how = r.how := by
  unfold issueLoad
  extract_lets x due q hit r' f plain count o go
  have haddrs : r'.addrs = r.addrs := by unfold r'; split <;> rfl
  have hhow' : r'.how = r.how := by unfold r'; split <;> rfl
  have hplain : plain = false := by
    unfold plain
    rw [hhow', hhow]
  have hcount (t : State) : Kept t (count t) ∧ (count t).str = t.str ∧ (count t).curCore.remote = t.curCore.remote := by
    unfold count
    split
    · exact ⟨kept_countCore .., countCore_str .., countCore_remote ..⟩
    · split
      · exact ⟨kept_countCore .., countCore_str .., countCore_remote ..⟩
      · exact ⟨{}, rfl, rfl⟩
  have hgo (t : State) (hk : Kept s t) (hstr : t.str = s.str) (hr : t.curCore.remote ≤ s.curCore.remote + 1) : Issued [f] s (go t) := by
    obtain ⟨kcount, strcount, rcount⟩ := hcount t
    exact issued_inFlight hs (hk.trans kcount) (strcount.trans hstr) (rcount.trans_le hr) ..
  rw [hplain, Bool.false_and, Bool.false_and, Bool.false_and, Bool.false_and, if_neg Bool.false_ne_true]
  refine ⟨f, r', ?_, rfl, rfl, rfl, haddrs, hhow'⟩
  split
  · exact hgo s {} rfl (Nat.le_succ _)
  · rw [haddrs]
    obtain ⟨t, ht, hk, hstr, hr⟩ := remotePlace_of_room hroom go
    rw [ht]
    exact hgo t hk hstr hr

/-! ### Beats of `vld` (R176) -/

theorem patternBytes_congr {s t : State} (h : Kept s t) (pte a n : Nat) : patternBytes t pte a n = patternBytes s pte a n := by
  unfold patternBytes
  rw [h.cpat, h.cur]

@[simp] theorem bytesFrom_headD {pa n : Nat} (h : 0 < n) : (bytesFrom pa n).headD 0 = pa := by
  obtain ⟨k, rfl⟩ := Nat.exists_eq_succ_of_ne_zero h.ne'
  simp [bytesFrom, List.range_succ_eq_map]

/-- A granule of `vld` puts in flight the load or the pattern that the statements say. -/
theorem vldGranule_served {l : List TlbEnt} {s t : State} {q : Qd} {va hint : Nat} {e : Nat × Nat} {p : Page} (ht : t.resident = true)
    (hk : Kept s t) (hcyc : t.str.cyc = s.str.cyc) (hne : e.1 < e.2) (hp : Served l s va t e p)
    (hroom : isRemote t p.pa = false ∨ t.curCore.remote < 64) :
    ∃ f, Issued [f] t (vldGranule q va hint (granuleBytes e) t) ∧ GranuleLoad l s q va e f := by
  have hlat : t.task.lat 4 = s.task.lat 4 := by
    unfold Task.lat
    rw [hk.lata]
  unfold vldGranule
  dsimp only
  rw [granuleBytes_headD hne, granuleBytes_length, granuleBytes_map, hp.at_first]
  split
  next hcf =>
    refine ⟨_, issued_result ht .., ?_, hcyc, fun p' hp' => ?_⟩
    · rw [← hcyc, ← hlat]
      rfl
    · cases hp.page.symm.trans hp'
      rw [hcf, patternBytes_congr hk]
      exact ⟨fun h => absurd h (by decide), fun _ => ⟨rfl, rfl⟩⟩
  next hcf =>
    obtain ⟨f, r, hissued, hdue, hiss, hreq, haddrs, hhow⟩ := issueLoad_spad (cls := 4)
      (r := loadReq t p (va + e.1) hint (.spad (spanOf e.1 e.2 q.bytePos)) (bytesFrom p.pa (e.2 - e.1))) ht rfl
      (by rw [show LoadReq.addrs _ = bytesFrom p.pa (e.2 - e.1) from rfl, bytesFrom_headD (by omega)]; exact hroom)
    refine ⟨f, hissued, by rw [hdue, hcyc, hlat], hiss.trans hcyc, fun p' hp' => ?_⟩
    cases hp.page.symm.trans hp'
    exact ⟨fun _ => ⟨r, hreq, by rw [haddrs, hp.physBytes]; rfl, hhow⟩, fun h => absurd h hcf⟩

/-- The granules of a beat of `vld`, one after the other. -/
theorem vldGranules_served {l : List TlbEnt} {s : State} {q : Qd} {va hint : Nat} (hs : s.resident = true) (es : List (Nat × Nat)) {t : State}
    (hk : Kept s t) (hcyc : t.str.cyc = s.str.cyc) (hes : ∀ e ∈ es, e.1 < e.2 ∧ ∃ p, Served l s va t e p)
    (hroom : (∀ e ∈ es, isRemote s (physIn l s (va + e.1)) = false) ∨ t.curCore.remote + es.length ≤ 64) :
    ∃ fs, Issued fs t (es.foldl (fun t e => vldGranule q va hint (granuleBytes e) t) t) ∧ List.Forall₂ (GranuleLoad l s q va) es fs := by
  induction es generalizing t with
  | nil => exact ⟨[], .refl t, .nil⟩
  | cons e es ih =>
    obtain ⟨⟨hne, p, hp⟩, hes⟩ := List.forall_mem_cons.1 hes
    have hfirst : isRemote t p.pa = false ∨ t.curCore.remote < 64 := by
      rw [hk.isRemote, ← hp.physFirst]
      exact hroom.imp (fun h => h e (.head _)) (fun h => by rw [List.length_cons] at h; omega)
    obtain ⟨f, hissued, hf⟩ := vldGranule_served (q := q) (hint := hint) (hk.resident.trans hs) hk hcyc hne hp hfirst
    have hrest : (∀ e ∈ es, isRemote s (physIn l s (va + e.1)) = false) ∨
        (vldGranule q va hint (granuleBytes e) t).curCore.remote + es.length ≤ 64 := by
      refine hroom.imp (fun h e he => h e (.tail _ he)) (fun h => ?_)
      have hr : _ ≤ _ + 1 := hissued.remote
      rw [List.length_cons] at h
      omega
    obtain ⟨fs, hfs, hall⟩ := ih (hk.trans hissued.kept) (hissued.cyc.trans hcyc)
      (fun e' he' => (hes e' he').imp_right fun ⟨p', hp'⟩ => ⟨p', hp'.congr hissued.got hissued.kept.ctx⟩) hrest
    exact ⟨f :: fs, hissued.trans hfs, .cons hf hall⟩

/-- A beat of `vld` whose pages are found, with room for its requests, puts its granules in flight. -/
theorem vldBeat_served {l : List TlbEnt} {s t : State} {q : Qd} {va hint lo hi : Nat} (hs : s.resident = true) (hk : Kept s t)
    (hcyc : t.str.cyc = s.str.cyc) (hremote : t.curCore.remote = s.curCore.remote) (hhi : hi ≤ lo + 128)
    (hserved : ∀ e, InBeat lo hi e → ∃ p, Served l s va t e p)
    (hroom : (∀ e, InBeat lo hi e → isRemote s (physIn l s (va + e.1)) = false) ∨ s.curCore.remote ≤ 62) :
    ∃ fs, Issued fs t (vldBeat q va hint lo hi t) ∧ List.Forall₂ (GranuleLoad l s q va) (halves lo hi) fs := by
  have hmem (e : Nat × Nat) (he : e ∈ halves lo hi) : InBeat lo hi e := inBeat_of_mem_halves he hhi
  have hlen := halves_length_le lo hi
  have hfar : ¬ (farGranules t va ((halves lo hi).map granuleBytes) ≠ 0 ∧
      64 < t.curCore.remote + farGranules t va ((halves lo hi).map granuleBytes)) := by
    rcases hroom with hnear | hfree
    · have hnone : farGranules t va ((halves lo hi).map granuleBytes) = 0 := by
        unfold farGranules
        rw [List.length_eq_zero_iff, List.filter_eq_nil_iff]
        intro ix hix
        obtain ⟨e, he, rfl⟩ := List.mem_map.1 hix
        obtain ⟨p, hp⟩ := hserved e (hmem e he)
        dsimp only
        rw [granuleBytes_headD (hmem e he).nonempty, hp.at_first, hk.isRemote, ← hp.physFirst]
        simp [hnear e (hmem e he)]
      exact fun h => h.1 hnone
    · have hle : farGranules t va ((halves lo hi).map granuleBytes) ≤ 2 := by
        refine (List.length_filter_le _ _).trans ?_
        rw [List.length_map]
        exact hlen
      omega
  unfold vldBeat
  rw [granules_eq hhi]
  dsimp only
  rw [if_neg hfar, List.foldl_map]
  exact vldGranules_served hs _ hk hcyc (fun e he => ⟨(hmem e he).nonempty, hserved e (hmem e he)⟩)
    (hroom.imp (fun h e he => h e (hmem e he)) fun h => by omega)

end Sys2Proof.Machine
end

section
/-!
PROOFS. The beats of vector stores: their granules in the store buffer.
-/

namespace Sys2Proof.Machine

open Claim

/-! ### The stores of a beat (R176) -/

/-- Two stores have no byte in the same double-word. -/
def SbEnt.Apart (d e : SbEnt) : Prop := ∀ c ∈ d.cells, ∀ x ∈ e.cells, c.1 / 8 ≠ x.1 / 8

/-- Stores put into the store buffer, with at most one request to another package each; the rest of the executing stream stays. -/
structure Stored (es : List SbEnt) (s t : State) : Prop where
  kept : Kept s t
  str : t.str = { s.str with sbuf := s.str.sbuf ++ es, seq := t.str.seq }
  remote : t.curCore.remote ≤ s.curCore.remote + es.length

theorem Stored.refl (s : State) : Stored [] s s := ⟨{}, by rw [List.append_nil], Nat.le_refl _⟩

theorem Stored.trans {es fs : List SbEnt} {s t u : State} (h : Stored es s t) (k : Stored fs t u) : Stored (es ++ fs) s u where
  kept := h.kept.trans k.kept
  str := by rw [k.str, h.str, List.append_assoc]
  remote := by
    have hk := k.remote
    have hh := h.remote
    rw [List.length_append]
    omega

theorem Stored.sbuf {es : List SbEnt} {s t : State} (h : Stored es s t) : t.str.sbuf = s.str.sbuf ++ es := by rw [h.str]

/-- A store apart from every store of the buffer merges into none (R214). -/
theorem mergeInto_of_apart {x : Stream} {e : SbEnt} (h : ∀ d ∈ x.sbuf, d.Apart e) : mergeInto x e = none := by
  have hnone : (x.sbuf.filter fun d => d.addrs.any fun a => e.addrs.any fun b => a / 8 = b / 8) = [] := by
    rw [List.filter_eq_nil_iff]
    intro d hd
    simp only [SbEnt.addrs, List.any_map, List.any_eq_true, Function.comp_apply, decide_eq_true_eq, not_exists, not_and]
    exact h d hd
  unfold mergeInto
  rw [hnone]
  rfl

theorem pushStore_of_apart {e : SbEnt} {s : State} (hs : s.resident = true) (h : ∀ d ∈ s.str.sbuf, d.Apart e) :
    ∃ e', e'.cells = e.cells ∧ Kept s (pushStore e s) ∧ (pushStore e s).curCore.remote = s.curCore.remote ∧
      (pushStore e s).str = { s.str with sbuf := s.str.sbuf ++ [e'], seq := s.str.seq + 1 } := by
  unfold pushStore
  extract_lets e' own
  have hnone : mergeInto s.str e' = none := mergeInto_of_apart h
  rw [hnone]
  dsimp only [own]
  rw [post_remote, modStr_remote, post_str, s.str_modStr _ hs]
  exact ⟨e', rfl, (kept_modStr hs _).trans (kept_post ..), rfl, rfl⟩

/-- Stores apart from each other and from those of the buffer enter it one after the other. -/
theorem sendStores_of_apart (es : List SbEnt) {s : State} (hs : s.resident = true)
    (hroom : (∀ e ∈ es, isRemote s (e.addrs.headD 0) = false) ∨ s.curCore.remote + es.length ≤ 64)
    (hbuf : ∀ e ∈ es, ∀ d ∈ s.str.sbuf, d.Apart e) (hpair : es.Pairwise SbEnt.Apart) :
    ∃ es', es'.map SbEnt.cells = es.map SbEnt.cells ∧
      Stored es' s (es.foldl (fun s e => remotePlace (e.addrs.headD 0) (pushStore e) s) s) := by
  induction es generalizing s with
  | nil => exact ⟨[], rfl, .refl s⟩
  | cons e es ih =>
    obtain ⟨hfirst, hrest⟩ := List.forall_mem_cons.1 hbuf
    obtain ⟨hapart, hpair⟩ := List.pairwise_cons.1 hpair
    obtain ⟨t, ht, hk, hstr, hr⟩ := remotePlace_of_room (f := pushStore e)
      (hroom.imp (fun h => h e (.head _)) fun h => by rw [List.length_cons] at h; omega)
    obtain ⟨e', hcells, hk', hr', hstr'⟩ := pushStore_of_apart (hk.resident.trans hs) (by rw [hstr]; exact hfirst)
    rw [List.foldl_cons, ht]
    have hstored : Stored [e'] s (pushStore e t) :=
      ⟨hk.trans hk', by rw [hstr', hstr], by rw [hr']; exact hr⟩
    generalize pushStore e t = u at hstored ⊢
    obtain ⟨es', hes', hall⟩ := ih (s := u) (hstored.kept.resident.trans hs)
      (by
        have hle : _ ≤ _ + 1 := hstored.remote
        refine hroom.imp (fun h x hx => ?_) fun h => ?_
        · rw [hstored.kept.isRemote, h x (.tail _ hx)]
        · rw [List.length_cons] at h
          omega)
      (fun x hx d hd => by
        rw [hstored.sbuf, List.mem_append, List.mem_singleton] at hd
        rcases hd with hd | rfl
        · exact hrest x hx d hd
        · have happ := hapart x hx
          unfold SbEnt.Apart at happ ⊢
          rw [hcells]
          exact happ)
      hpair
    exact ⟨e' :: es', by rw [List.map_cons, List.map_cons, hcells, hes'], hstored.trans hall⟩

/-- Granules for which there is room are sent (R176, R355). -/
theorem sendGranules_of_room {es : List SbEnt} {s : State} (hs : s.resident = true) (hne : ∀ e ∈ es, e.cells ≠ [])
    (hlen : s.str.sbuf.length + es.length ≤ 16)
    (hflag : ∀ e ∈ es, e.remote = isRemote s (e.addrs.headD 0))
    (hroom : (∀ e ∈ es, isRemote s (e.addrs.headD 0) = false) ∨ s.curCore.remote + es.length ≤ 64)
    (hbuf : ∀ e ∈ es, ∀ d ∈ s.str.sbuf, d.Apart e) (hpair : es.Pairwise SbEnt.Apart) :
    ∃ es', es'.map SbEnt.cells = es.map SbEnt.cells ∧ Stored es' s (sendGranules es s) := by
  have hall : (es.filter fun e => !e.cells.isEmpty) = es := List.filter_eq_self.2 fun e he => by simpa using hne e he
  have hfar : ¬ ((es.filter (·.remote)).length ≠ 0 ∧ 64 < s.curCore.remote + (es.filter (·.remote)).length) := by
    rcases hroom with hnear | hfree
    · have hnone : es.filter (·.remote) = [] := List.filter_eq_nil_iff.2 fun e he => by rw [hflag e he, hnear e he]; decide
      rw [hnone]
      exact fun h => h.1 rfl
    · have hle := List.length_filter_le (fun e : SbEnt => e.remote) es
      omega
  unfold sendGranules
  rw [hall]
  dsimp only
  rw [if_neg (by omega), if_neg hfar]
  exact sendStores_of_apart es hs hroom hbuf hpair

/-- Granules that find no room freeze the stream before its cycle (log 30). -/
theorem sendGranules_of_full {es : List SbEnt} {s : State} (hes : ∃ e ∈ es, e.cells ≠ []) (hlen : 16 ≤ s.str.sbuf.length) :
    sendGranules es s = freezeBefore 3 s := by
  obtain ⟨e, he, hne⟩ := hes
  have hmem : e ∈ es.filter fun e => !e.cells.isEmpty := List.mem_filter.2 ⟨he, by simpa using hne⟩
  have hpos := List.length_pos_of_mem hmem
  exact if_pos (by omega)

/-! ### Beats of `vst` (R176) -/

/-- The store of a granule of a footprint at va: its cells are those of its page and of the scratchpad. -/
def granuleStore (q : Qd) (va hint : Nat) (s : State) (e : Nat × Nat) : SbEnt :=
  storeEnt s (pageAt s (va + e.1)) (va + e.1) hint (spanOf e.1 e.2 fun m => ((pageAt s (va + e.1)).pa + (m - e.1), s.curCore.spadGet (q.bytePos m)))

theorem vstBeat_eq {q : Qd} {va hint lo hi : Nat} {s : State} (hpoison : s.poison = []) (hhi : hi ≤ lo + 128) :
    vstBeat q va hint lo hi s = sendGranules ((halves lo hi).map (granuleStore q va hint s)) s := by
  unfold vstBeat badGranule
  rw [hpoison, granules_eq hhi, List.isEmpty_nil, if_pos rfl]
  dsimp only
  rw [List.map_map]
  refine congrArg (sendGranules · s) (List.map_congr_left fun e he => ?_)
  unfold granuleStore
  dsimp only [Function.comp_apply]
  rw [granuleBytes_headD (inBeat_of_mem_halves he hhi).nonempty, granuleBytes_map]

theorem spadGet_congr {c d : Core} (hspad : d.spad = c.spad) (hseed : d.seed = c.seed) (a : Nat) : d.spadGet a = c.spadGet a := by
  unfold Core.spadGet
  rw [hspad, hseed]

section
variable {l : List TlbEnt} {s t : State} {q : Qd} {va hint : Nat} {e : Nat × Nat} {p : Page}

theorem granuleStore_cells (hk : Kept s t) (hp : Served l s va t e p) : (granuleStore q va hint t e).cells = granuleCells l s q va e := by
  unfold granuleStore granuleCells spanOf
  rw [hp.at_first]
  refine List.map_congr_left fun m hm => ?_
  dsimp only
  rw [hp.bytes m (List.mem_range.1 hm), Nat.add_sub_cancel_left, spadGet_congr hk.spad hk.seed]

theorem granuleCells_first (hp : Served l s va t e p) (hne : e.1 < e.2) : ((granuleCells l s q va e).map Prod.fst).headD 0 = p.pa := by
  have hfst : (granuleCells l s q va e).map Prod.fst = spanOf e.1 e.2 fun m => physIn l s (va + m) := by
    unfold granuleCells spanOf
    rw [List.map_map]
    rfl
  rw [hfst, hp.physBytes, bytesFrom_headD (by omega)]

theorem mem_granuleCells {c : Nat × Byte} (hp : Served l s va t e p) (hc : c ∈ granuleCells l s q va e) :
    ∃ m < e.2 - e.1, c.1 = physIn l s (va + (e.1 + m)) ∧ c.1 = p.pa + m := by
  obtain ⟨m, hm, rfl⟩ := List.mem_map.1 hc
  rw [List.mem_range] at hm
  exact ⟨m, hm, rfl, hp.bytes m hm⟩

theorem granuleCells_ne_nil (hne : e.1 < e.2) : granuleCells l s q va e ≠ [] := by
  unfold granuleCells spanOf
  simpa [List.range_eq_nil] using Nat.sub_ne_zero_of_lt hne

/-- The granules of a beat touch different double-words. -/
theorem granuleStore_apart {e' : Nat × Nat} {p' : Page} (hk : Kept s t) (hp : Served l s va t e p) (hp' : Served l s va t e' p')
    (halign : (va + e.1) % 64 = 0) (hnext : e'.1 = e.1 + 64) (hsize : e.2 ≤ e.1 + 64) (hsize' : e'.2 ≤ e'.1 + 64) :
    (granuleStore q va hint t e).Apart (granuleStore q va hint t e') := by
  unfold SbEnt.Apart
  rw [granuleStore_cells hk hp, granuleStore_cells hk hp']
  intro c hc x hx
  obtain ⟨m, hm, -, hcm⟩ := mem_granuleCells hp hc
  obtain ⟨m', hm', -, hxm⟩ := mem_granuleCells hp' hx
  have hplace := hp.place
  have hplace' := hp'.place
  omega

end

/-- A beat of `vst` whose pages are found, with room for its granules and its requests, sends the scratchpad bytes that the statements say. -/
theorem vstBeat_served {l : List TlbEnt} {s t : State} {q : Qd} {va hint lo hi n : Nat} (hs : s.resident = true) (hk : Kept s t)
    (hpoison : t.poison = []) (hsbuf : t.str.sbuf = s.str.sbuf) (hremote : t.curCore.remote = s.curCore.remote) (hhi : hi ≤ lo + 128)
    (halign : (va + lo) % 64 = 0) (hserved : ∀ e, InBeat lo hi e → ∃ p, Served l s va t e p)
    (hroom : (∀ e, InBeat lo hi e → isRemote s (physIn l s (va + e.1)) = false) ∨ s.curCore.remote ≤ 62)
    (hlen : s.str.sbuf.length ≤ 14) (hn : hi ≤ n) (hmerge : NoMerge l s va n) :
    ∃ es, Stored es t (vstBeat q va hint lo hi t) ∧ es.map SbEnt.cells = (halves lo hi).map (granuleCells l s q va) := by
  have hmem (e : Nat × Nat) (he : e ∈ halves lo hi) : InBeat lo hi e := inBeat_of_mem_halves he hhi
  have hlen' := halves_length_le lo hi
  have hcells (e : Nat × Nat) (he : e ∈ halves lo hi) : (granuleStore q va hint t e).cells = granuleCells l s q va e := by
    obtain ⟨p, hp⟩ := hserved e (hmem e he)
    exact granuleStore_cells hk hp
  have hfirst (e : Nat × Nat) (he : e ∈ halves lo hi) : (granuleStore q va hint t e).addrs.headD 0 = physIn l s (va + e.1) := by
    obtain ⟨p, hp⟩ := hserved e (hmem e he)
    rw [SbEnt.addrs, hcells e he, granuleCells_first hp (hmem e he).nonempty, hp.physFirst]
  rw [vstBeat_eq hpoison hhi]
  obtain ⟨es, hes, hstored⟩ := sendGranules_of_room (es := (halves lo hi).map (granuleStore q va hint t)) (hk.resident.trans hs)
    (List.forall_mem_map.2 fun e he => by rw [hcells e he]; exact granuleCells_ne_nil (hmem e he).nonempty)
    (by rw [hsbuf, List.length_map]; omega)
    (List.forall_mem_map.2 fun e he => by
      obtain ⟨p, hp⟩ := hserved e (hmem e he)
      rw [hfirst e he, hp.physFirst, ← hp.at_first]
      rfl)
    (hroom.imp (fun h => List.forall_mem_map.2 fun e he => by rw [hfirst e he, hk.isRemote, h e (hmem e he)])
      fun h => by rw [hremote, List.length_map]; omega)
    (List.forall_mem_map.2 fun e he d hd => by
      obtain ⟨p, hp⟩ := hserved e (hmem e he)
      unfold SbEnt.Apart
      rw [hcells e he]
      intro c hc x hx
      obtain ⟨m, hm, hxm, -⟩ := mem_granuleCells hp hx
      rw [hxm]
      have hstop := (hmem e he).stop
      exact hmerge d (hsbuf ▸ hd) c hc _ (by omega))
    (List.pairwise_map.2 <| (halves_pairwise lo hi).imp_of_mem fun {e e'} he he' hnext => by
      obtain ⟨p, hp⟩ := hserved e (hmem e he)
      obtain ⟨p', hp'⟩ := hserved e' (hmem e' he')
      have hin := hmem e he
      have hstart := hin.start
      exact granuleStore_apart hk hp hp' (by omega) hnext.1 hin.size (hmem e' he').size)
  exact ⟨es, hstored, by rw [hes, List.map_map]; exact List.map_congr_left hcells⟩

/-- A beat of `vst` that finds the store buffer full freezes the stream before its cycle. -/
theorem vstBeat_of_full {s t : State} {l : List TlbEnt} {q : Qd} {va hint lo hi : Nat} (hk : Kept s t) (hpoison : t.poison = [])
    (hlen : 16 ≤ t.str.sbuf.length) (hlo : lo < hi) (hhi : hi ≤ lo + 128) (hserved : ∀ e, InBeat lo hi e → ∃ p, Served l s va t e p) :
    vstBeat q va hint lo hi t = freezeBefore 3 t := by
  obtain ⟨e, he⟩ := List.exists_mem_of_ne_nil _ (halves_ne_nil hlo)
  have hin := inBeat_of_mem_halves he hhi
  obtain ⟨p, hp⟩ := hserved e hin
  rw [vstBeat_eq hpoison hhi]
  exact sendGranules_of_full ⟨_, List.mem_map_of_mem he, by rw [granuleStore_cells hk hp]; exact granuleCells_ne_nil hin.nonempty⟩ hlen

end Sys2Proof.Machine
end

section
/-!
PROOFS. One cycle of a vector memory instruction: an idle one, and the beats of the statements.
-/

namespace Sys2Proof.Machine

open Claim

/-! ### One cycle of `vld` and `vst` (R176) -/

/-- A cycle with a false guard, or beyond the footprint, does nothing but pass. -/
theorem vmCycle_of_idle {o : Occ} {s : State} (h : o.go = false ∨ (qFields (o.qs.headD 0)).nbytes ≤ o.beat * 128) (hf : s.str.frozen = none)
    (store : Bool) (hint : Nat) : vmCycle store hint o s = s.modStr fun x => { x with occ := nextBeat o } := by
  have hidle : (!o.go || decide (min (qFields (o.qs.headD 0)).nbytes (o.beat * 128 + 128) ≤ o.beat * 128)) = true := by
    rcases h with hgo | hend
    · rw [hgo]
      rfl
    · rw [decide_eq_true ((Nat.min_le_left ..).trans hend), Bool.or_true]
  unfold vmCycle
  dsimp only
  rw [if_pos hidle, if_pos hidle, hf, Option.isSome_none, if_neg Bool.false_ne_true]
  rfl

/-- The beat of a cycle within the footprint. -/
def vmBeat (store : Bool) (hint : Nat) (o : Occ) (s : State) : State :=
  let q := qFields (o.qs.headD 0)
  let lo := o.beat * 128
  let hi := min q.nbytes (lo + 128)
  if store then vstBeat q o.addr hint lo hi s else vldBeat q o.addr hint lo hi s

theorem vmCycle_of_beat {o : Occ} (hgo : o.go = true) (hlo : o.beat * 128 < (qFields (o.qs.headD 0)).nbytes) (store : Bool) (hint : Nat) (s : State) :
    vmCycle store hint o s =
      (let t := vmBeat store hint o s
       if t.str.frozen.isSome then (if o.beat = 0 && !t.str.redo then t else t.modStr fun x => { x with occ := some o })
       else (countCore t.cur.core 0x30 1 t).modStr fun x => { x with occ := nextBeat o }) := by
  have hbusy : ¬ (!o.go || decide (min (qFields (o.qs.headD 0)).nbytes (o.beat * 128 + 128) ≤ o.beat * 128)) = true := by
    rw [hgo, decide_eq_false (by omega)]
    decide
  unfold vmCycle vmBeat
  dsimp only
  rw [if_neg hbusy, if_neg hbusy]
  rfl

/-- After a beat that goes on comes the next, and the beat is counted. -/
theorem vmCycle_of_going {o : Occ} (hgo : o.go = true) (hlo : o.beat * 128 < (qFields (o.qs.headD 0)).nbytes) {store : Bool} {hint : Nat} {s : State}
    (hs : (vmBeat store hint o s).resident = true) (hf : (vmBeat store hint o s).str.frozen = none) :
    Kept (vmBeat store hint o s) (vmCycle store hint o s) ∧
      (vmCycle store hint o s).str = { (vmBeat store hint o s).str with occ := nextBeat o } := by
  rw [vmCycle_of_beat hgo hlo]
  dsimp only
  rw [if_neg (by rw [hf]; decide)]
  have hcount : (countCore (vmBeat store hint o s).cur.core 0x30 1 (vmBeat store hint o s)).resident = true := (countCore_resident ..).trans hs
  exact ⟨(kept_countCore ..).trans (kept_modStr hcount _), by rw [State.str_modStr _ _ hcount, countCore_str]⟩

/-! ### The statements' beats -/

section
variable {l got : List TlbEnt} {o : Occ} {w : QWord} {hint : Nat} {s t : State}

/-- A cycle of `vld` whose pages are found makes the beat of the statements. -/
theorem vmCycle_loadBeat (hs : s.resident = true) (hst : PagesSought got s t) (hgo : o.go = true) (hqs : o.qs = [w])
    (hlo : o.beat * 128 < (qFields w).nbytes) (hf : s.str.frozen = none)
    (hserved : ∀ e, InBeat (o.beat * 128) (min (qFields w).nbytes (o.beat * 128 + 128)) e → ∃ p, Served l s o.addr t e p)
    (hroom : (∀ v, o.addr ≤ v → v < o.addr + (qFields w).nbytes → isRemote s (physIn l s v) = false) ∨ s.curCore.remote ≤ 62) :
    LoadBeat l (qFields w) o.addr (o.beat * 128) (min (qFields w).nbytes (o.beat * 128 + 128)) (nextBeat o) s (vmCycle false hint o t) := by
  obtain ⟨miss, res, hstr⟩ := hst.str
  have hbeat : vmBeat false hint o t = vldBeat (qFields w) o.addr hint (o.beat * 128) (min (qFields w).nbytes (o.beat * 128 + 128)) t := by
    unfold vmBeat
    rw [hqs]
    rfl
  obtain ⟨fs, hissued, hfs⟩ := vldBeat_served (q := qFields w) (hint := hint) hs hst.kept (by rw [hstr]) hst.remote (Nat.min_le_right ..) hserved
    (hroom.imp_left fun h e he => h _ (Nat.le_add_right ..) (by
      have hne := he.nonempty
      have hstop := he.stop
      omega))
  rw [← hbeat] at hissued
  have hfree : (vmBeat false hint o t).str.frozen = none := by rw [hissued.str, hstr, hf]
  obtain ⟨hk, hcycle⟩ := vmCycle_of_going (store := false) (hint := hint) hgo (by rw [hqs]; exact hlo)
    (hissued.kept.resident.trans (hst.kept.resident.trans hs)) hfree
  refine ⟨fs, ?_, hfs, ?_, ?_, ?_, ?_, (hst.kept.trans (hissued.kept.trans hk)).sameMemory⟩ <;> rw [hcycle, hissued.str, hstr]
  exact hf

/-- A cycle of `vst` whose pages are found, with room in the store buffer, makes the beat of the statements. -/
theorem vmCycle_storeBeat (hs : s.resident = true) (hst : PagesSought got s t) (hgo : o.go = true) (hqs : o.qs = [w])
    (hlo : o.beat * 128 < (qFields w).nbytes) (hf : s.str.frozen = none) (hpoison : s.poison = []) (halign : o.addr % 64 = 0)
    (hserved : ∀ e, InBeat (o.beat * 128) (min (qFields w).nbytes (o.beat * 128 + 128)) e → ∃ p, Served l s o.addr t e p)
    (hroom : (∀ v, o.addr ≤ v → v < o.addr + (qFields w).nbytes → isRemote s (physIn l s v) = false) ∨ s.curCore.remote ≤ 62)
    (hlen : s.str.sbuf.length ≤ 14) (hmerge : NoMerge l s o.addr (qFields w).nbytes) :
    StoreBeat l (qFields w) o.addr (o.beat * 128) (min (qFields w).nbytes (o.beat * 128 + 128)) (nextBeat o) s (vmCycle true hint o t) := by
  obtain ⟨miss, res, hstr⟩ := hst.str
  have hbeat : vmBeat true hint o t = vstBeat (qFields w) o.addr hint (o.beat * 128) (min (qFields w).nbytes (o.beat * 128 + 128)) t := by
    unfold vmBeat
    rw [hqs]
    rfl
  obtain ⟨es, hstored, hes⟩ := vstBeat_served (q := qFields w) (hint := hint) hs hst.kept (hst.poison.trans hpoison) (by rw [hstr]) hst.remote
    (Nat.min_le_right ..) (by omega) hserved
    (hroom.imp_left fun h e he => h _ (Nat.le_add_right ..) (by
      have hne := he.nonempty
      have hstop := he.stop
      omega)) hlen (Nat.min_le_left ..) hmerge
  rw [← hbeat] at hstored
  have hfree : (vmBeat true hint o t).str.frozen = none := by rw [hstored.str, hstr, hf]
  obtain ⟨hk, hcycle⟩ := vmCycle_of_going (store := true) (hint := hint) hgo (by rw [hqs]; exact hlo)
    (hstored.kept.resident.trans (hst.kept.resident.trans hs)) hfree
  refine ⟨es, ?_, hes, ?_, ?_, ?_, ?_, (hst.kept.trans (hstored.kept.trans hk)).sameMemory⟩ <;> rw [hcycle, hstored.str, hstr]
  exact hf

/-- A cycle of `vst` that finds the store buffer full freezes, and its beat stays the next (log 30). -/
theorem vmCycle_of_full (hs : s.resident = true) (hocc : s.str.occ = some o) (hgo : o.go = true) (hqs : o.qs = [w])
    (hlo : o.beat * 128 < (qFields w).nbytes) (hpoison : s.poison = [])
    (hserved : ∀ e, InBeat (o.beat * 128) (min (qFields w).nbytes (o.beat * 128 + 128)) e → ∃ p, Served l s o.addr s e p)
    (hlen : 16 ≤ s.str.sbuf.length) :
    Kept s (vmCycle true hint o s) ∧ (vmCycle true hint o s).str.frozen = some 3 ∧ (vmCycle true hint o s).str.occ = some o ∧
      (vmCycle true hint o s).str.sbuf = s.str.sbuf := by
  have hbeat : vmBeat true hint o s = freezeBefore 3 s := by
    unfold vmBeat
    rw [hqs]
    exact vstBeat_of_full (l := l) (s := s) {} hpoison hlen (by dsimp only [List.headD_cons]; omega) (Nat.min_le_right ..) hserved
  rw [vmCycle_of_beat hgo (by rw [hqs]; exact hlo), hbeat]
  have hk := kept_modStr hs fun x => { x with frozen := some 3 }
  have hstr := s.str_modStr (fun x => { x with frozen := some 3 }) hs
  unfold freezeBefore
  generalize (s.modStr fun x => { x with frozen := some 3 }) = t at hk hstr ⊢
  dsimp only
  rw [hstr, Option.isSome_some, if_pos rfl]
  split
  · exact ⟨hk, by rw [hstr], by rw [hstr, hocc], by rw [hstr]⟩
  · have ht := hk.resident.trans hs
    rw [t.str_modStr _ ht, hstr]
    exact ⟨hk.trans (kept_modStr ht _), rfl, rfl, rfl⟩

end

end Sys2Proof.Machine
end

section
/-!
PROOFS. Vector memory from issue to its last beat: the pages of its footprint, its checks and its cycles.
-/

namespace Sys2Proof.Machine

open Claim

/-! ### The pages of a footprint (R176, R240) -/

theorem pagesSought_guardRead (g : Guard) {s : State} (hs : s.resident = true) : PagesSought s.str.got s (guardRead g s).2 := by
  obtain ⟨t, hcore⟩ := guardRead_curCore g s
  exact pagesSought_of_str (kept_guardRead g hs) (guardRead_poison g s) (by rw [hcore]) (guardRead_str g s hs)

theorem withPages_of_got {kind : Nat} {bad : Nat → Option Nat} {f : State → State} {l : List Nat} {s : State}
    (h : ∀ v ∈ l, (gotXlate s v).isSome = true) : withPages kind bad f l s = f s := by
  induction l with
  | nil => rfl
  | cons v l ih =>
    obtain ⟨hv, hl⟩ := List.forall_mem_cons.1 h
    obtain ⟨x, hx⟩ := Option.isSome_iff_exists.1 hv
    unfold withPages
    rw [hx]
    exact ih hl

theorem vmPages_of_got {va n : Nat} {s : State} (h : ∀ v ∈ pagesOf va n, (gotXlate s v).isSome = true) (store : Bool) (f : State → State) :
    vmPages store va n f s = f s := withPages_of_got h

/-- Where the translations that an access has found serve a footprint, each of its pages is found. -/
theorem gotXlate_of_pagesServe {store : Bool} {s : State} {va n v : Nat} (h : PagesServe s.str.got store s va n)
    (hv : v ∈ pagesOf va n ∨ (va ≤ v ∧ v < va + n)) : (gotXlate s v).isSome = true := by
  obtain ⟨p, hp, -⟩ := h.1 v hv
  obtain ⟨x, hx, -⟩ := pageIn_eq_some hp
  rw [gotXlate, hx]
  rfl

/-- What a page must allow is what `vld`, or `vst`, asks of it (R176). -/
theorem vmBad_eq_none {store : Bool} {pte : Nat} (hcmp : pteCmp pte = false) (hst : store = true → pteW pte = true ∧ pteCf pte = false) :
    (if store then storePageFault pte else if pteCmp pte then some 0x03 else none) = none := by
  cases store with
  | false => simp [hcmp]
  | true =>
    obtain ⟨hw, hcf⟩ := hst rfl
    simp [storePageFault, hcmp, hw, hcf]

section
variable {store : Bool} {s t : State} {va n lo hi : Nat} {got : List TlbEnt}

/-- A first cycle finds the pages of its footprint in the micro-TLB. -/
theorem vmPages_of_utlb (hs : s.resident = true) (hst : PagesSought [] s t) (h : PagesServe s.utlb store s va n)
    (hend : va + n ≤ 2 ^ 56) (f : State → State) :
    ∃ u got, vmPages store va n f t = f u ∧ PagesSought got s u ∧ (∀ x ∈ got, x ∈ s.utlb) ∧
      ∀ v ∈ pagesOf va n, ∃ x ∈ got, x.hits s.task.ctx v = true := by
  have htgot : t.str.got = [] := hst.got
  obtain ⟨u, got, hu, hsought, hsub, -, hall⟩ := withPages_of_held (kind := if store then 1 else 0)
    (bad := fun e => if store then storePageFault e else if pteCmp e then some 0x03 else none) (f := f) (pagesOf va n) (s := t)
    (hst.kept.resident.trans hs)
    (fun v hv => by
      obtain ⟨p, hp, hcmp, hstore⟩ := h.1 v (.inl hv)
      obtain ⟨x, hx, hbad, rfl⟩ := pageIn_eq_some hp
      have hv' := mem_pagesOf hv
      rw [hst.utlb, hst.kept.ctx]
      exact ⟨by omega, x, hx, hbad, vmBad_eq_none hcmp hstore⟩)
    (by simp [htgot])
  rw [hst.utlb] at hsub
  rw [hst.kept.ctx] at hall
  exact ⟨u, got, hu, hst.trans hsought, hsub, hall⟩

/-- Pages found in the micro-TLB serve the granules of a beat. -/
theorem served_of_utlb (hst : PagesSought got s t) (hsub : ∀ x ∈ got, x ∈ s.utlb)
    (hall : ∀ v ∈ pagesOf va n, ∃ x ∈ got, x.hits s.task.ctx v = true) (hone : OnePage s.utlb s) (h : PagesServe s.utlb store s va n) (halign : (va + lo) % 64 = 0) (hhi : hi ≤ n) {e : Nat × Nat}
    (he : InBeat lo hi e) : ∃ p, Served s.utlb s va t e p := by
  refine served_of_found hone hst.kept.ctx (by rw [hst.got]; exact hsub) (fun v hlo hhi => ?_) (fun v hlo hhi => ?_) halign hhi he
  · obtain ⟨p, hp, -⟩ := h.1 v (.inr ⟨hlo, hhi⟩)
    exact ⟨p, hp⟩
  · obtain ⟨u, hu, hdiv⟩ := exists_pagesOf hlo hhi
    obtain ⟨x, hx, hit⟩ := hall u hu
    rw [hst.got]
    exact ⟨x, hx, TlbEnt.hits_congr (hone x (hsub x hx)).1 hdiv hit⟩

/-- Pages that the issue has found serve the granules of a later beat. -/
theorem served_of_got (hone : OnePage s.str.got s) (h : PagesServe s.str.got store s va n) (halign : (va + lo) % 64 = 0) (hhi : hi ≤ n)
    {e : Nat × Nat} (he : InBeat lo hi e) : ∃ p, Served s.str.got s va s e p := by
  refine served_of_found hone rfl (fun x hx => hx) (fun v hlo hhi => ?_) (fun v hlo hhi => ?_) halign hhi he
  · obtain ⟨p, hp, -⟩ := h.1 v (.inr ⟨hlo, hhi⟩)
    exact ⟨p, hp⟩
  · obtain ⟨x, hx⟩ := Option.isSome_iff_exists.1 (gotXlate_of_pagesServe h (.inr ⟨hlo, hhi⟩))
    exact ⟨x, List.mem_of_find?_eq_some hx, List.find?_some (p := fun y : TlbEnt => y.hits s.task.ctx v) hx⟩

end

/-! ### Issue and further cycles of `vld` and `vst` (R160, R176) -/

/-- `vld`, or `vst`. -/
def vmInstr (store : Bool) (g : Guard) (q a h : Nat) : Instr := if store then .vst g q a h else .vld g q a h

theorem exec_vmInstr {s : State} (hs : s.resident = true) (store : Bool) (g : Guard) (q a h : Nat) :
    exec (vmInstr store g q a h) s = .next (vmRun store g q a h s) := by
  cases store <;> exact onStream_of_resident _ _ hs

theorem vmRun_of_occupied {s : State} {o : Occ} (hocc : s.str.occ = some o) (store : Bool) (g : Guard) (q a h : Nat) :
    vmRun store g q a h s = if o.go then vmPages store o.addr (qFields (o.qs.headD 0)).nbytes (vmCycle store h o) s else vmCycle store h o s := by
  unfold vmRun
  rw [hocc]

/-- What R160 checks of the descriptor of a `vld` or `vst`. -/
def vmChecks (s : State) (q : Nat) : Option VBad :=
  vChecks { ok := fun fs => fs.all (· != .int4) } s.curCore s.task.spadBytes (qFields (s.qreg q)).nbytes [{ qFields (s.qreg q) with tc := false }]

/-- What an issue reads of its registers is not changed by reading its guard. -/
theorem vmOcc_guardRead (g : Guard) (go : Bool) (q a : Nat) {s : State} (hs : s.resident = true) : vmOcc (guardRead g s).2 q a go = vmOcc s q a go := by
  unfold vmOcc
  rw [guardRead_qreg g hs, guardRead_reg g s hs, guardRead_str g s hs]

theorem vmChecks_guardRead (g : Guard) (q : Nat) {s : State} (hs : s.resident = true) : vmChecks (guardRead g s).2 q = vmChecks s q := by
  obtain ⟨t, hcore⟩ := guardRead_curCore g s
  obtain ⟨view, prop, htask⟩ := guardRead_task g s hs
  unfold vmChecks
  rw [guardRead_qreg g hs, hcore, htask]
  rfl

theorem vmRun_of_false {g : Guard} {s : State} (hs : s.resident = true) (hocc : s.str.occ = none) (hg : (guardRead g s).1 = false)
    (store : Bool) (q a h : Nat) : vmRun store g q a h s = vmCycle store h (vmOcc s q a false) (countCore s.cur.core 6 1 (guardRead g s).2) := by
  rw [← vmOcc_guardRead g false q a hs]
  unfold vmRun
  rw [hocc]
  dsimp only
  rw [hg, guardRead_cur]
  rfl

theorem vmRun_of_issues {g : Guard} {s : State} (hi : Issues g s) (hocc : s.str.occ = none) (hp : s.poison = []) (store : Bool) (q a h : Nat) :
    vmRun store g q a h s =
      (match vmChecks s q with
      | some b => fault b.1 b.2.1 b.2.2 (guardRead g s).2
      | none =>
        if (s.reg a).toNat % 64 ≠ 0 then faultAfter 0x02 0 (s.reg a).toNat (guardRead g s).2
        else vmPages store (s.reg a).toNat (qFields (s.qreg q)).nbytes (vmCycle store h (vmOcc s q a true)) (guardRead g s).2) := by
  obtain ⟨hs, hg⟩ := hi
  rw [← vmChecks_guardRead g q hs, ← vmOcc_guardRead g true q a hs, ← guardRead_qreg g hs, ← guardRead_reg g s hs]
  unfold vmRun
  rw [hocc]
  dsimp only
  rw [hg, if_neg (by decide), reading_of_clean _ _ _ (by simp [hp]), readingFile_of_clean (by simp [hp])]
  rfl

/-- `vld` and `vst` in the words of the statements. -/
theorem mem_vmInstrs {g : Guard} {q a h : Nat} {i : Instr} (hi : i ∈ [Instr.vld g q a h, .vst g q a h]) : ∃ store, i = vmInstr store g q a h := by
  simp only [List.mem_cons, List.not_mem_nil, or_false] at hi
  rcases hi with rfl | rfl
  · exact ⟨false, rfl⟩
  · exact ⟨true, rfl⟩

end Sys2Proof.Machine

namespace Sys2Proof.Proofs

open Machine Claim

/-- The first beats of `vld` and `vst`. -/
theorem vectorMemory_firstBeats {g : Guard} {q a h : Nat} {s : State} (hi : Issues g s) (hocc : s.str.occ = none) (hf : s.str.frozen = none)
    (hp : s.poison = []) (hgot : s.str.got = []) (hchecks : vmChecks s q = none) (halign : (s.reg a).toNat % 64 = 0)
    (hn : 0 < (qFields (s.qreg q)).nbytes) (hend : (s.reg a).toNat + (qFields (s.qreg q)).nbytes ≤ 2 ^ 56) (hone : OnePage s.utlb s) :
    (PagesServe s.utlb false s (s.reg a).toNat (qFields (s.qreg q)).nbytes → ∃ t, exec (.vld g q a h) s = .next t ∧
      LoadBeat s.utlb (qFields (s.qreg q)) (s.reg a).toNat 0 (min (qFields (s.qreg q)).nbytes 128) (nextBeat (vmOcc s q a true)) s t) ∧
    (PagesServe s.utlb true s (s.reg a).toNat (qFields (s.qreg q)).nbytes → s.str.sbuf.length ≤ 14 →
      NoMerge s.utlb s (s.reg a).toNat (qFields (s.qreg q)).nbytes → ∃ t, exec (.vst g q a h) s = .next t ∧
      StoreBeat s.utlb (qFields (s.qreg q)) (s.reg a).toNat 0 (min (qFields (s.qreg q)).nbytes 128) (nextBeat (vmOcc s q a true)) s t) := by
  have hrun (store : Bool) : vmRun store g q a h s =
      vmPages store (s.reg a).toNat (qFields (s.qreg q)).nbytes (vmCycle store h (vmOcc s q a true)) (guardRead g s).2 := by
    rw [vmRun_of_issues hi hocc hp, hchecks]
    dsimp only
    rw [if_neg (by simpa using halign)]
  have hguard := pagesSought_guardRead g hi.1
  rw [hgot] at hguard
  refine ⟨fun hserve => ?_, fun hserve hlen hmerge => ?_⟩
  · obtain ⟨u, got, hu, hsought, hsub, hall⟩ := vmPages_of_utlb hi.1 hguard hserve hend (vmCycle false h (vmOcc s q a true))
    refine ⟨_, exec_vmInstr hi.1 false g q a h, ?_⟩
    rw [hrun, hu]
    exact vmCycle_loadBeat (o := vmOcc s q a true) hi.1 hsought rfl rfl hn hf
      (fun e he => served_of_utlb hsought hsub hall hone hserve halign (Nat.min_le_left ..) he) hserve.2
  · obtain ⟨u, got, hu, hsought, hsub, hall⟩ := vmPages_of_utlb hi.1 hguard hserve hend (vmCycle true h (vmOcc s q a true))
    refine ⟨_, exec_vmInstr hi.1 true g q a h, ?_⟩
    rw [hrun, hu]
    exact vmCycle_storeBeat (o := vmOcc s q a true) hi.1 hsought rfl rfl hn hf hp halign
      (fun e he => served_of_utlb hsought hsub hall hone hserve halign (Nat.min_le_left ..) he) hserve.2 hlen hmerge

/-- An issue that begins no beat: an empty footprint, a misaligned address, a failed check. -/
theorem vectorMemory_withoutBeat {g : Guard} {q a h : Nat} {s : State} (hi : Issues g s) (hocc : s.str.occ = none) (hf : s.str.frozen = none)
    (hp : s.poison = []) (store : Bool) :
    (vmChecks s q = none → (s.reg a).toNat % 64 = 0 → (qFields (s.qreg q)).nbytes = 0 →
      exec (vmInstr store g q a h) s = .next ((guardRead g s).2.modStr fun x => { x with occ := none })) ∧
    (vmChecks s q = none → (s.reg a).toNat % 64 ≠ 0 → exec (vmInstr store g q a h) s = .next (faultAfter 0x02 0 (s.reg a).toNat (guardRead g s).2)) ∧
    (∀ b, vmChecks s q = some b → exec (vmInstr store g q a h) s = .next (fault b.1 b.2.1 b.2.2 (guardRead g s).2)) := by
  rw [exec_vmInstr hi.1, vmRun_of_issues hi hocc hp]
  refine ⟨fun hchecks halign hn => ?_, fun hchecks halign => ?_, fun b hchecks => ?_⟩ <;> rw [hchecks] <;> dsimp only
  · have hlast : nextBeat (vmOcc s q a true) = none := by simp [nextBeat, vmOcc, hn]
    rw [if_neg (by simpa using halign), hn, vmPages_of_got (by simp [pagesOf]),
      vmCycle_of_idle (.inr (by simp [vmOcc, hn])) (by rw [guardRead_str _ _ hi.1, hf]), hlast]
  · rw [if_pos halign]

/-- The beats after the first. -/
theorem vectorMemory_furtherBeats {g : Guard} {q a h : Nat} {o : Occ} {w : QWord} {s : State} (hs : s.resident = true) (hocc : s.str.occ = some o)
    (hgo : o.go = true) (hqs : o.qs = [w]) (hf : s.str.frozen = none) (hp : s.poison = []) (hlo : o.beat * 128 < (qFields w).nbytes)
    (halign : o.addr % 64 = 0) (hone : OnePage s.str.got s) :
    (PagesServe s.str.got false s o.addr (qFields w).nbytes → ∃ t, exec (.vld g q a h) s = .next t ∧
      LoadBeat s.str.got (qFields w) o.addr (o.beat * 128) (min (qFields w).nbytes (o.beat * 128 + 128)) (nextBeat o) s t) ∧
    (PagesServe s.str.got true s o.addr (qFields w).nbytes → s.str.sbuf.length ≤ 14 → NoMerge s.str.got s o.addr (qFields w).nbytes →
      ∃ t, exec (.vst g q a h) s = .next t ∧
        StoreBeat s.str.got (qFields w) o.addr (o.beat * 128) (min (qFields w).nbytes (o.beat * 128 + 128)) (nextBeat o) s t) ∧
    (PagesServe s.str.got true s o.addr (qFields w).nbytes → 16 ≤ s.str.sbuf.length → ∃ t, exec (.vst g q a h) s = .next t ∧
      t.str.frozen = some 3 ∧ t.str.occ = some o ∧ t.str.sbuf = s.str.sbuf ∧ SameMemory s t) := by
  have hrun (store : Bool) (hserve : PagesServe s.str.got store s o.addr (qFields w).nbytes) : vmRun store g q a h s = vmCycle store h o s := by
    rw [vmRun_of_occupied hocc, if_pos hgo, hqs]
    exact vmPages_of_got (fun v hv => gotXlate_of_pagesServe hserve (.inl hv)) ..
  have hbeat : (o.addr + o.beat * 128) % 64 = 0 := by omega
  refine ⟨fun hserve => ?_, fun hserve hlen hmerge => ?_, fun hserve hlen => ?_⟩
  · refine ⟨_, exec_vmInstr hs false g q a h, ?_⟩
    rw [hrun false hserve]
    exact vmCycle_loadBeat hs (.refl s) hgo hqs hlo hf (fun e he => served_of_got hone hserve hbeat (Nat.min_le_left ..) he) hserve.2
  · refine ⟨_, exec_vmInstr hs true g q a h, ?_⟩
    rw [hrun true hserve]
    exact vmCycle_storeBeat hs (.refl s) hgo hqs hlo hf hp halign (fun e he => served_of_got hone hserve hbeat (Nat.min_le_left ..) he) hserve.2
      hlen hmerge
  · refine ⟨_, exec_vmInstr hs true g q a h, ?_⟩
    rw [hrun true hserve]
    obtain ⟨hk, hfrozen, hocc', hsbuf⟩ := vmCycle_of_full (hint := h) hs hocc hgo hqs hlo hp
      (fun e he => served_of_got hone hserve hbeat (Nat.min_le_left ..) he) hlen
    exact ⟨hfrozen, hocc', hsbuf, hk.sameMemory⟩

/-- Cycles that only pass: a false guard's, and those beyond the footprint. -/
theorem vectorMemory_idleCycles {g : Guard} {q a h : Nat} {s : State} (hs : s.resident = true) (hf : s.str.frozen = none) (store : Bool) :
    (s.str.occ = none → (guardRead g s).1 = false → exec (vmInstr store g q a h) s =
      .next ((countCore s.cur.core 6 1 (guardRead g s).2).modStr fun x => { x with occ := nextBeat (vmOcc s q a false) })) ∧
    (∀ o, s.str.occ = some o → o.go = false → exec (vmInstr store g q a h) s = .next (s.modStr fun x => { x with occ := nextBeat o })) ∧
    (∀ o w, s.str.occ = some o → o.go = true → o.qs = [w] → (qFields w).nbytes ≤ o.beat * 128 →
      (∀ v ∈ pagesOf o.addr (qFields w).nbytes, (gotXlate s v).isSome = true) →
      exec (vmInstr store g q a h) s = .next (s.modStr fun x => { x with occ := nextBeat o })) := by
  rw [exec_vmInstr hs]
  refine ⟨fun hocc hg => ?_, fun o hocc hgo => ?_, fun o w hocc hgo hqs hend hgot => ?_⟩
  · rw [vmRun_of_false hs hocc hg, vmCycle_of_idle (.inl rfl) (by rw [countCore_str, guardRead_str _ _ hs, hf])]
  · rw [vmRun_of_occupied hocc, if_neg (by simp [hgo]), vmCycle_of_idle (.inl hgo) hf]
  · rw [vmRun_of_occupied hocc, if_pos hgo, hqs]
    dsimp only [List.headD_cons]
    rw [vmPages_of_got hgot, vmCycle_of_idle (.inr (by rw [hqs]; exact hend)) hf]

/-- Settles O19: what an access finds in the micro-TLB serves the granules of its beats, and each granule is one load, pattern or store. -/
theorem vectorMemoryAndStreamRegisters : Obligations.VectorMemoryAndStreamRegisters := by
  refine ⟨fun i g src cls l s => exec_qRow_of_issues, fun g q a h s hi hocc hf hp hgot => ?_,
    fun g q a h o w s hs hocc hgo hqs hf hp => ?_, fun g q a h s hs hf i hin => ?_⟩
  · refine ⟨fun hchecks halign hn hend hone => vectorMemory_firstBeats hi hocc hf hp hgot hchecks halign hn hend hone, fun i hin => ?_⟩
    obtain ⟨store, rfl⟩ := mem_vmInstrs hin
    exact vectorMemory_withoutBeat hi hocc hf hp store
  · exact fun hlo halign _ hone => vectorMemory_furtherBeats hs hocc hgo hqs hf hp hlo halign hone
  · obtain ⟨store, rfl⟩ := mem_vmInstrs hin
    exact vectorMemory_idleCycles hs hf store

end Sys2Proof.Proofs
end
